-- ==== Sys2Proof/Word.lean ====
section
/-! DEFINITION. The word types of the block: a register is 32 bits, memory is bytes (R6, R11). -/

namespace Sys2Proof

/-- A register of BAR0: 32 bits, little-endian (R6). -/
abbrev Word := BitVec 32

/-- One byte of memory (R11). -/
abbrev Byte := BitVec 8

end Sys2Proof
end

