-- ==== Sys2Proof/Syntax.lean ====
section
/-! DEFINITION. The commands the block takes, one constructor per row of spec/opcode_table.json, and what their operands are
made of. A command carries what comes from outside the block: an address, a value, bytes, a frame, a reading, a verdict. -/

namespace Sys2Proof

/-- Who reads or writes a register (R10, R359). -/
inductive Requester where
  /-- The host, through BAR0. -/
  | host
  /-- System controller A or B. -/
  | ctrlA
  | ctrlB
  /-- The secure controller. -/
  | secure
  /-- The tile supervisor of a compute die. -/
  | supervisor (die : Nat)
  /-- The management endpoint, relaying a message of an SPDM secured session. -/
  | session
  deriving DecidableEq, Repr

/-- How a page, tier or video command reached its engine: from the host's command registers of a context, or from a cell of
the context's port (R184, R227, R315). -/
inductive Via where
  | host (ctx : Nat)
  | cell (ctx : Nat) (cell : Nat)
  deriving DecidableEq, Repr

/-- How a fetch from host memory ended (Table EX-7 test 6). -/
inductive Fetch where
  | data (bytes : List Byte)
  /-- Unsupported Request, Completer Abort or a poisoned completion. -/
  | failed
  deriving DecidableEq, Repr

/-- What checking a signature found (R384): cryptography is outside the model, its verdict an operand (log entry 6). -/
structure SigVerdict where
  /-- The signature verifies under the key the image names. -/
  valid : Bool
  /-- The device's own digest of the signed bytes (SHA-384), little-endian byte order. -/
  digest : BitVec 384
  deriving DecidableEq, Repr

/-- What a patrol read, or a read in service, finds in a memory (R213 to R215). `errors`: 0 none, 1 corrected, 2 uncorrectable. -/
inductive ScrubTarget where
  /-- A 64-byte unit of HBM by device memory address: its pseudo-channel's DRAM row, whether its bank has a repair resource left,
  and whether this read ends a patrol pass. -/
  | hbm (addr row errors : Nat) (repair last : Bool)
  /-- A line of a die's LLM cache, by device memory address ÷ 256. -/
  | llm (die line errors : Nat)
  /-- A byte of a die's tier-1 banks. -/
  | tier1 (die off errors : Nat)
  /-- A scratchpad, accumulator file, instruction buffer or queue of a core. -/
  | sram (core addr errors : Nat)
  /-- A reduction buffer of a die, in use by a barrier object. -/
  | reduction (die index errors : Nat)
  deriving DecidableEq, Repr

/-- A frame of the Shongaron protocol (R249): header fields and payload. -/
structure Frame where
  cls : Nat
  seq : Nat
  dst : Nat
  src : Nat
  typ : Nat
  vc : Nat
  hops : Nat
  ctx : Nat
  addr : Nat
  tag : Nat
  flags : Nat
  /-- TYPE_FIELDS of REDUCE and SYNC frames. -/
  fields : Nat
  payload : List Byte
  deriving DecidableEq, Repr

/-- What checking a firmware bundle's signatures and digests found (R380): cryptography is outside the model (log entry 6). -/
structure FwVerdict where
  /-- The slot-0 signature verifies; the owner's signature verifies; every component's digest matches. -/
  slot0 : Bool
  owner : Bool
  digests : Bool
  deriving DecidableEq, Repr

/-- A flash channel's packages as their parameter pages tell (R237). -/
structure FlashChannel where
  packages : Nat
  /-- Highest NV-LPDDR4 timing mode every package supports; none where a package does not support NV-LPDDR4. -/
  mode : Option Nat
  deriving DecidableEq, Repr

/-- What the second half of cold boot finds (Table BOOT-2 steps 6 to 10; R207, R217, R237, R292, R340). -/
structure BootTests where
  /-- Islands that cannot be calibrated. -/
  islands : List Nat
  /-- Stacks with a wrong configuration or a failed step 2; pseudo-channels that fail step 3 or 4. -/
  hbmStacks : List Nat
  pchs : List Nat
  channels : List FlashChannel
  /-- Cores and LLM banks (die, bank) not proven good. -/
  cores : List Nat
  banks : List (Nat × Nat)
  /-- HBM rows of repair resources the stacks report. -/
  rows : Nat
  /-- The signatures of the image slot marked for boot and of the other. -/
  boot : SigVerdict
  other : SigVerdict
  deriving DecidableEq, Repr

/-- Who asks for START, SET_BOOT or WARM_RESET: a notice on a mailbox channel, or the management endpoint with the payload. -/
inductive Caller where
  | notice (channel : Nat)
  | mgmt (payload : List Byte)
  deriving DecidableEq, Repr

/-- A management message as its standard classes it (Table BOOT-5): what it needs, not its bytes. -/
inductive MgmtMessage where
  /-- MCTP control. -/
  | control
  /-- PLDM base or firmware update. -/
  | pldmBase
  /-- Any other PLDM message; does it need the switched domains? -/
  | pldm (switched : Bool)
  | spdm (switched : Bool)
  /-- A secured message; does it end its session? -/
  | secured (ends switched : Bool)
  /-- A message type that is not supported. -/
  | unsupported
  deriving DecidableEq, Repr


/-- The commands of the block: one constructor for each row of spec/opcode_table.json. -/
inductive Instr where
  /-- BAR0_BAD_WIDTH_ACCESS: A BAR0 access that is not an aligned 32-bit word: a read completes with Unsupported Request, a write is dropped, and no state changes. -/
  | bar0BadWidthAccess (req : Requester) (write : Bool) (off : Nat) (bytes : Nat)
  /-- UNDEFINED_OFFSET_ACCESS: An aligned access to a BAR0 offset where no register is defined: a read returns zero and a write is ignored. -/
  | undefinedOffsetAccess (req : Requester) (write : Bool) (off : Nat) (value : Word)
  /-- REGISTER_WRITE: A write to a register that has no row of its own, applied under its field access codes, the reserved-field rule and the out-of-range rule. -/
  | registerWrite (req : Requester) (off : Nat) (value : Word)
  /-- RC_REGISTER_READ: A read of an RC counter returns its value and clears it; an event arriving during the read is kept for the next read. -/
  | rcRegisterRead (req : Requester) (off : Nat) (arriving : Nat)
  /-- PAIR_LO_READ: A read of a _LO register captures all 64 bits of the pair for the requester. -/
  | pairLoRead (req : Requester) (off : Nat)
  /-- PAIR_HI_READ: A read of a _HI register returns the requester's captured upper half, or the live upper half when nothing is captured. -/
  | pairHiRead (req : Requester) (off : Nat)
  /-- PAIR_LO_WRITE: A write to a _LO register stages the lower half for the requester. -/
  | pairLoWrite (req : Requester) (off : Nat) (value : Word)
  /-- PAIR_HI_WRITE: A write to a _HI register commits both halves at once, using the staged or last-committed lower half, subject to the range test. -/
  | pairHiWrite (req : Requester) (off : Nat) (value : Word)
  /-- SIL_START: START written to SIL_CONTROL begins a load from the BAR2 window or a flash slot, or fails with IMAGE_BUSY when a load is in progress. -/
  | silStart (req : Requester) (value : Word)
  /-- SIL_CANCEL: CANCEL written to SIL_CONTROL discards a held image with IMAGE_CANCELLED, acting before a START in the same write. -/
  | silCancel (req : Requester) (value : Word)
  /-- IMAGE_CHECKS_COMPLETE: The loader finishes its validation checks; the image fails with the code of the first failing check, is held, or goes to application. -/
  | imageChecksComplete (sig : SigVerdict)
  /-- HELD_IMAGE_APPLY: At the next moment its kind allows, a held image is checked again from check 5 and applied, or discarded with the code of the failing check. -/
  | heldImageApply
  /-- IMAGE_APPLY_COMMIT: Application of shadow tables finishes and the new structure commits in one step, setting RWL fields on a KIND 0 commit. -/
  | imageApplyCommit (fault : Bool)
  /-- CORE_RETIRE_PATCH: At a full Lull system controller A builds, signs and loads a KIND 1 spare patch that moves a retiring logical core to a spare. -/
  | coreRetirePatch
  /-- IMAGE_WITHDRAW: At a full Lull after the profile no longer fits, the device ends jobs and contexts, dissolves the stripe set and enters READY with no image. -/
  | imageWithdraw
  /-- STEP_BEGIN: A job's next step is placed on the first free allowed cores and its tile programs start, once cores, quota and any full-Lull hold allow. -/
  | stepBegin
  /-- PREEMPT_SAVE_COMPLETE: The save of the taken cores to the preemption save area completes and the saffron step begins on them. -/
  | preemptSaveComplete (job : Nat)
  /-- PREEMPT_RESTORE_COMPLETE: After the saffron step's Lull the taken cores are restored and the victim resumes where it stopped. -/
  | preemptRestoreComplete (job : Nat)
  /-- LULL_DECLARE: Once every unit of a step has drained (and any bank phase completed), the job's Lull is declared, state is released and the Lull record written. -/
  | lullDeclare (job : Nat) (lateUnit : Nat)
  /-- LULL_WATCHDOG_EXPIRE: The Lull watchdog expires: LULL_LATE is raised, JOB_LATE_UNIT records the undrained unit, and the device keeps waiting. -/
  | lullWatchdogExpire (job : Nat) (unit : Nat)
  /-- COMPLETION_RECORD_POST: A completion record is written into a released ring slot, the queue entry is freed and the context's completion interrupt raised. -/
  | completionRecordPost (ctx : Nat)
  /-- RING_HEAD_WRITE: The host writes JOB_CTX_RING_HEAD, releasing completion ring slots to waiting records. -/
  | ringHeadWrite (req : Requester) (ctx : Nat) (value : Word)
  /-- CONTEXT_CREATE: A template ID written to JOB_CTX_CREATE creates a context with the lowest free ID, or is refused with CONTEXT_LIMIT, NOT_AUTHORIZED or NO_IMAGE. -/
  | contextCreate (req : Requester) (value : Word)
  /-- CONTEXT_CLOSE: CLOSE written to JOB_CTX_CONTROL moves an OPEN context to CLOSING. -/
  | contextClose (req : Requester) (ctx : Nat) (value : Word)
  /-- CONTEXT_TEARDOWN: TEARDOWN written to JOB_CTX_CONTROL stops and discards every job of the context and frees its resources. -/
  | contextTeardown (req : Requester) (ctx : Nat) (value : Word)
  /-- CONTEXT_TEARDOWN_COMPLETE: Teardown finishes and the context returns to FREE with LAST_FAULT set. -/
  | contextTeardownComplete (ctx : Nat)
  /-- JOB_SUBMIT: A write to JOB_CTX_SUBMIT_HI submits a descriptor address, applying submission tests 1 to 5 and starting the descriptor fetch. -/
  | jobSubmit (req : Requester) (ctx : Nat) (value : Word)
  /-- DESCRIPTOR_FETCH_DONE: The descriptor fetch completes and tests 7 to 10 decide whether the job takes a queue entry or is refused. -/
  | descriptorFetchDone (ctx : Nat) (fetch : Fetch)
  /-- DESCRIPTOR_FETCH_TIMEOUT: A descriptor fetch not complete within 4 µs is refused with HOST_STALL_SUSPENDED. -/
  | descriptorFetchTimeout (ctx : Nat)
  /-- SUBMIT_RESULT_READ: A read of JOB_CTX_SUBMIT_RESULT completes after every earlier submission of the context is decided and returns the latest outcome. -/
  | submitResultRead (req : Requester) (ctx : Nat)
  /-- JOB_ABORT: A job ID written to JOB_CTX_ABORT aborts the job according to its state and records exactly one outcome. -/
  | jobAbort (req : Requester) (ctx : Nat) (value : Word)
  /-- LOAD: The LOAD instruction copies rows from context virtual memory into the scratchpad. -/
  | load (core : Nat) (enc : BitVec 256)
  /-- STORE: The STORE instruction moves scratchpad or accumulator data to memory or scratchpad, converting formats. -/
  | store (core : Nat) (enc : BitVec 256)
  /-- MMA: The MMA instruction computes M rows of a 64-column output block over reduction length K into accumulator tiles. -/
  | mma (core : Nat) (enc : BitVec 256)
  /-- MMA_CHECK_COMPLETE: The check unit finishes verifying a selected tile; a miss triggers an Updraft repeat, acceptance, exhaustion or hardware suspicion. -/
  | mmaCheckComplete (core : Nat)
  /-- CONV: The CONV instruction performs a convolution as an MMA over windows walked by the address generator. -/
  | conv (core : Nat) (enc : BitVec 256)
  /-- CONV_EXPANDED: A CONV with EXPANDED set takes its activation rows from an expanded buffer. -/
  | convExpanded (core : Nat) (enc : BitVec 256)
  /-- MAX_POOL: A CONV with OPERATION 1 computes a max pool on the vector unit. -/
  | maxPool (core : Nat) (enc : BitVec 256)
  /-- AVERAGE_POOL: A CONV with OPERATION 2 computes an average pool on the vector unit. -/
  | averagePool (core : Nat) (enc : BitVec 256)
  /-- COPY: VOP COPY delivers each source element to the destination format. -/
  | copy (core : Nat) (enc : BitVec 256)
  /-- ADD: VOP ADD adds two row-shaped sources element-wise. -/
  | add (core : Nat) (enc : BitVec 256)
  /-- SUB: VOP SUB subtracts two row-shaped sources element-wise. -/
  | sub (core : Nat) (enc : BitVec 256)
  /-- MUL: VOP MUL multiplies two row-shaped sources element-wise. -/
  | mul (core : Nat) (enc : BitVec 256)
  /-- AXPY: VOP AXPY computes a × SCALAR + b with one fused multiply-add. -/
  | axpy (core : Nat) (enc : BitVec 256)
  /-- MAX: VOP MAX takes the larger of two sources element-wise. -/
  | max (core : Nat) (enc : BitVec 256)
  /-- MIN: VOP MIN takes the smaller of two sources element-wise. -/
  | min (core : Nat) (enc : BitVec 256)
  /-- SCALE: VOP SCALE multiplies each element by SCALAR. -/
  | scale (core : Nat) (enc : BitVec 256)
  /-- MUL_ROW: VOP MUL_ROW multiplies each row by its per-row value. -/
  | mulRow (core : Nat) (enc : BitVec 256)
  /-- ADD_ROW: VOP ADD_ROW adds its per-row value to each row. -/
  | addRow (core : Nat) (enc : BitVec 256)
  /-- MUL_COL: VOP MUL_COL multiplies each column by its per-column value. -/
  | mulCol (core : Nat) (enc : BitVec 256)
  /-- ADD_COL: VOP ADD_COL adds its per-column value to each column. -/
  | addCol (core : Nat) (enc : BitVec 256)
  /-- ROWSUM: VOP ROWSUM sums each row in lane order into one FP32 word. -/
  | rowsum (core : Nat) (enc : BitVec 256)
  /-- ROWMAX: VOP ROWMAX writes the largest element of each row. -/
  | rowmax (core : Nat) (enc : BitVec 256)
  /-- ROWSTAT: VOP ROWSTAT computes mean, variance and rstd of each row by the Welford method. -/
  | rowstat (core : Nat) (enc : BitVec 256)
  /-- NORM: VOP NORM normalizes each row from a ROWSTAT record. -/
  | norm (core : Nat) (enc : BitVec 256)
  /-- SOFTMAX: VOP SOFTMAX computes the range-based soft maximum of each row and optionally its log-sum-exp. -/
  | softmax (core : Nat) (enc : BitVec 256)
  /-- SOFTMAX_LSE: VOP SOFTMAX_LSE rebuilds probabilities from scores and a stored log-sum-exp. -/
  | softmaxLse (core : Nat) (enc : BitVec 256)
  /-- EXP: SFU EXP computes e^x for COUNT elements. -/
  | exp (core : Nat) (enc : BitVec 256)
  /-- LOG: SFU LOG computes ln x for COUNT elements. -/
  | log (core : Nat) (enc : BitVec 256)
  /-- RECIP: SFU RECIP computes 1/x correctly rounded. -/
  | recip (core : Nat) (enc : BitVec 256)
  /-- RSQRT: SFU RSQRT computes 1/√x. -/
  | rsqrt (core : Nat) (enc : BitVec 256)
  /-- SIGMOID: SFU SIGMOID computes 1/(1 + e^−x). -/
  | sigmoid (core : Nat) (enc : BitVec 256)
  /-- TANH: SFU TANH computes the hyperbolic tangent. -/
  | tanh (core : Nat) (enc : BitVec 256)
  /-- GELU: SFU GELU computes 0.5x(1 + erf(x/√2)). -/
  | gelu (core : Nat) (enc : BitVec 256)
  /-- SILU: SFU SILU computes x/(1 + e^−x). -/
  | silu (core : Nat) (enc : BitVec 256)
  /-- SIN: SFU SIN computes the sine in radians with exact range reduction. -/
  | sin (core : Nat) (enc : BitVec 256)
  /-- COS: SFU COS computes the cosine in radians with exact range reduction. -/
  | cos (core : Nat) (enc : BitVec 256)
  /-- SINCOS_POS: SFU SINCOS_POS delivers exact-phase cosine and sine position codes for token positions. -/
  | sincosPos (core : Nat) (enc : BitVec 256)
  /-- ATTN_SCAN_FORWARD: A forward ATTN_SCAN resolves and pins its page list and computes attention output and row statistics. -/
  | attnScanForward (core : Nat) (enc : BitVec 256)
  /-- ATTN_SCAN_BACKWARD: A backward ATTN_SCAN delivers probabilities from the score store or by recompute. -/
  | attnScanBackward (core : Nat) (enc : BitVec 256)
  /-- HALO_PUT: HALO PUT copies rows into a partner core's halo buffer over the mesh. -/
  | haloPut (core : Nat) (enc : BitVec 256)
  /-- HALO_WAIT: HALO WAIT completes when its buffer's received count reaches BYTES, then subtracts BYTES. -/
  | haloWait (core : Nat) (enc : BitVec 256)
  /-- HALO_DATA_ARRIVE: PUT bytes arrive at the partner's halo buffer, are checked against its limits, written and counted. -/
  | haloDataArrive (core : Nat)
  /-- ALL_REDUCE: COLL all-reduce combines every rank's vector by REDOP and delivers the result to every rank. -/
  | allReduce (core : Nat) (enc : BitVec 256)
  /-- REDUCE_SCATTER: COLL reduce-scatter combines every rank's vector and delivers each rank its segment. -/
  | reduceScatter (core : Nat) (enc : BitVec 256)
  /-- ALL_GATHER: COLL all-gather delivers every rank's SRC to every rank. -/
  | allGather (core : Nat) (enc : BitVec 256)
  /-- ALL_TO_ALL: COLL all-to-all delivers segment r of every rank's SRC to rank r. -/
  | allToAll (core : Nat) (enc : BitVec 256)
  /-- BROADCAST: COLL broadcast delivers the root's SRC down the tree to every rank. -/
  | broadcast (core : Nat) (enc : BitVec 256)
  /-- ARRIVE: SYNC ARRIVE binds the identifier if needed and counts the rank's arrival in the current phase. -/
  | arrive (core : Nat) (enc : BitVec 256)
  /-- WAIT: SYNC WAIT completes when the phase of the rank's last arrival has completed. -/
  | wait (core : Nat) (enc : BitVec 256)
  /-- ARRIVE_WAIT: SYNC ARRIVE_WAIT arrives and then waits for the phase. -/
  | arriveWait (core : Nat) (enc : BitVec 256)
  /-- FENCE: SYNC FENCE completes when every earlier instruction of the program has completed. -/
  | fence (core : Nat) (enc : BitVec 256)
  /-- CHECK: CHECK completes when every check pending on the named accumulator tiles has ended. -/
  | check (core : Nat) (enc : BitVec 256)
  /-- END: END retires the tile program once every earlier instruction, check and repeat has completed. -/
  | endProgram (core : Nat) (enc : BitVec 256)
  /-- KV_ALLOC: Page command ALLOC creates a WRITABLE page in a write slot and gives the caller one reference. -/
  | kvAlloc (via : Via)
  /-- KV_SEAL: Page command SEAL sets FILL, computes the summary and makes the page SEALED with SEAL_PENDING. -/
  | kvSeal (via : Via)
  /-- KV_RETAIN: Page command RETAIN adds a reference to a SEALED page for the caller, from a program or the host. -/
  | kvRetain (via : Via)
  /-- KV_RELEASE: Page command RELEASE drops one of the caller's references, from a program or the host. -/
  | kvRelease (via : Via)
  /-- KV_COPY: Page command COPY creates a writable copy of a page and releases the caller's reference on the original. -/
  | kvCopy (via : Via)
  /-- KV_PIN_RESUME: A pin waiting for PIN_COUNT room is granted once another pin is released. -/
  | kvPinResume (index : Nat)
  /-- RETRIEVAL_COMPLETE: The retrieval engine finishes scoring a request's candidates and returns the selected pages. -/
  | retrievalComplete (core : Nat)
  /-- PATROL_SCRUB: A patrol scrub read of an HBM unit or LLM cache line reads and corrects it. -/
  | patrolScrub (target : ScrubTarget)
  /-- HBM_TEMP_READ: A stack's 1 ms temperature reading sets its throttle level. -/
  | hbmTempRead (stack : Nat) (celsius : Nat)
  /-- REGULATOR_TOKENS_GRANT: A request waiting at a partition's token bucket proceeds once enough tokens have accumulated. -/
  | regulatorTokensGrant (partition : Nat) (waitNs : Nat)
  /-- TG_START: START written to DBG_TG_CONTROL runs the traffic generator on a pseudo-channel, or reads REFUSED. -/
  | tgStart (req : Requester) (pch : Nat) (value : Word)
  /-- TG_RUN_COMPLETE: A traffic generator run finishes and its status reads done with its counts. -/
  | tgRunComplete (pch : Nat) (ue : List Nat)
  /-- BAR2_READ: A host read of the shared window through BAR2. -/
  | bar2Read (off len : Nat)
  /-- BAR2_WRITE: A host write to the shared window through BAR2. -/
  | bar2Write (off : Nat) (data : List Byte)
  /-- BAR4_READ: A host read through the BAR4 HBM aperture, served or refused as the table gives. -/
  | bar4Read (off len : Nat)
  /-- BAR4_WRITE: A host write through the BAR4 HBM aperture, served or dropped as the table gives. -/
  | bar4Write (off : Nat) (data : List Byte)
  /-- TIER_ALLOC: Tier command ALLOC creates an object in a tier, charges it and maps it. -/
  | tierAlloc (via : Via)
  /-- TIER_FREE: Tier command FREE frees an owner's object. -/
  | tierFree (via : Via)
  /-- TIER_PROMOTE: Tier command PROMOTE starts or joins a resident copy of a tier-3 object and pins it for the caller. -/
  | tierPromote (via : Via)
  /-- TIER_UNPIN: Tier command UNPIN removes the caller's mapping and pin, re-evaluating any pending EVICT. -/
  | tierUnpin (via : Via)
  /-- TIER_WRITE_BACK: Tier command WRITE_BACK writes a resident copy to fresh flash blocks, within the daily allowance. -/
  | tierWriteBack (via : Via)
  /-- TIER_EVICT: Tier command EVICT drops a resident copy, or stays pending as EVICT_DEFERRED. -/
  | tierEvict (via : Via)
  /-- TIER_KEEP: Tier command KEEP moves a tier-3 object into the kept catalogue under a name. -/
  | tierKeep (via : Via)
  /-- TIER_ADOPT: Tier command ADOPT takes a kept object as the caller's own. -/
  | tierAdopt (via : Via)
  /-- TIER_DISCARD: Host tier command DISCARD frees a kept object by name. -/
  | tierDiscard (via : Via)
  /-- PROMOTE_COMPLETE: A promotion's flash read completes, making the copy RESIDENT or the object LOST. -/
  | promoteComplete (slot : Nat) (ok : Bool)
  /-- WRITE_BACK_COMPLETE: A WRITE_BACK's flash writes complete and its result is delivered. -/
  | writeBackComplete (slot : Nat)
  /-- TIER_LATE: A tier command passes its bound plus slack and is counted once as TIER_LATE. -/
  | tierLate (via : Via)
  /-- FLASH_RETENTION_PATROL: The weekly retention patrol reads a block and relocates it if its codewords need too much correction. -/
  | flashRetentionPatrol (block : Nat) (percent : Nat)
  /-- FLASH_ALLOWANCE_BUCKET_ROLL: An hourly bucket of the rolling 24 h write-allowance window expires. -/
  | flashAllowanceBucketRoll
  /-- GOLDEN_SYNC: SYNC written to MEM_GOLDEN_CONTROL writes dirty SHARED_WEIGHTS pages to the golden copy. -/
  | goldenSync (req : Requester) (value : Word)
  /-- GOLDEN_LOAD: LOAD written to MEM_GOLDEN_CONTROL copies the golden copy into the SHARED_WEIGHTS partition. -/
  | goldenLoad (req : Requester) (value : Word)
  /-- GOLDEN_SYNC_COMPLETE: A golden sync finishes and MEM_GOLDEN_LAST records its outcome. -/
  | goldenSyncComplete
  /-- GOLDEN_LOAD_COMPLETE: A golden load finishes and MEM_GOLDEN_LAST records its outcome. -/
  | goldenLoadComplete (ok : Bool)
  /-- GOLDEN_RELOAD_COMPLETE: A poisoned SHARED_WEIGHTS page is reloaded from the golden copy and its readers resume, or WEIGHT_LOST is raised. -/
  | goldenReloadComplete (page : Nat) (ok : Bool)
  /-- CAPABILITY_WORD_RECEIVED: A port receives three agreeing copies of the partner's capability word and settles lanes, rate, FEC, version and options. -/
  | capabilityWordReceived (port : Nat) (cap : BitVec 64)
  /-- LINK_TRAINING_ATTEMPT_END: A training attempt ends with the port UP, or failed, retiring the port after three failures. -/
  | linkTrainingAttemptEnd (port passes : Nat)
  /-- TRAINING_RETRY_TIMER: A port that has received no capability word repeats its training attempt every 100 ms. -/
  | trainingRetryTimer (port : Nat)
  /-- FRAME_RECEIVE: A whole frame with good CRC arrives on a port and is accepted, held, dropped or treated as a duplicate, then routed. -/
  | frameReceive (port : Nat) (frame : Frame)
  /-- ACK_RECEIVED: A control flit's cumulative ACK frees frames from the replay buffer. -/
  | ackReceived (port seq : Nat)
  /-- NAK_RECEIVED: A control flit's NAK retransmits the one frame named. -/
  | nakReceived (port seq : Nat)
  /-- REPLAY_TIMEOUT: The replay timer expires and every unacknowledged frame is retransmitted; the eighth in a row takes the port down. -/
  | replayTimeout (port : Nat)
  /-- CONTROL_FLIT_SEND: The reserved control slot of every 129 carries ACK, NAK, credits and any due heartbeat or swap command. -/
  | controlFlitSend (port : Nat)
  /-- EGRESS_FRAME_SELECT: At a frame boundary an egress port picks the next frame by saffron bucket, management, deficit round robin and idle rules. -/
  | egressFrameSelect (port slots noCredit : Nat)
  /-- HEARTBEAT_SEND: Every LNK_HB_PERIOD_MS a port sends a heartbeat while the active system controller is live. -/
  | heartbeatSend (port : Nat)
  /-- HEARTBEAT_RECEIVED: A heartbeat arrives and may update LNK_PORT_PARTNER. -/
  | heartbeatReceived (port : Nat) (device : Nat)
  /-- HEARTBEAT_MISS_LIMIT: LNK_HB_MISS_LIMIT heartbeats in a row are missing and the port declares LINK_DOWN. -/
  | heartbeatMissLimit (port : Nat)
  /-- LOSS_OF_SIGNAL: Loss of signal or lock on every lane lasts 1 ms and the port declares LINK_DOWN. -/
  | lossOfSignal (port : Nat)
  /-- LANE_BER_WINDOW: A 10 ms error-ratio window ends and a degraded lane starts training a spare. -/
  | laneBerWindow (port lane : Nat) (degraded : Bool)
  /-- LANE_LOSS_OF_LOCK: A lane loses lock; the port holds frames and swaps a spare, or retrains with fewer lanes when none is left. -/
  | laneLossOfLock (port lane : Nat)
  /-- LANE_SPARE_TRAINED: A spare lane finishes training and the port sends the swap command. -/
  | laneSpareTrained (port : Nat)
  /-- LANE_SWAP_COMMAND: A swap command in a control flit switches both ends to the spare at the named flit and logs LANE_SWAP. -/
  | laneSwapCommand (port lane spare : Nat)
  /-- PORT_DISABLE: DISABLE in LNK_PORT_CONTROL holds the port electrically idle or releases it. -/
  | portDisable (req : Requester) (port : Nat) (value : Word)
  /-- PORT_RETRAIN: RETRAIN written to LNK_PORT_CONTROL retrains the port. -/
  | portRetrain (req : Requester) (port : Nat) (value : Word)
  /-- SQUALL_ENABLE: ENABLE set in DBG_SQ_CONTROL opens Squall on the port and loads the seed. -/
  | squallEnable (req : Requester) (port : Nat) (value : Word)
  /-- SQUALL_SEED_WRITE: A write to DBG_SQ_SEED while enabled reloads the generator state. -/
  | squallSeedWrite (req : Requester) (port : Nat) (value : Word)
  /-- SQUALL_HOLD_DOWN: HOLD_DOWN in DBG_SQ_CONTROL holds the port electrically idle. -/
  | squallHoldDown (req : Requester) (port : Nat) (value : Word)
  /-- SQUALL_REORDER_TIMEOUT: A frame held for reordering with no later frame is sent after the port is idle in its class for LNK_REPLAY_TIMEOUT. -/
  | squallReorderTimeout (port cls : Nat)
  /-- WRITE_FRAME: A WRITE frame delivered locally writes its payload into the destination ranks' DST. -/
  | writeFrame
  /-- READ_REQUEST_FRAME: A READ_REQUEST frame delivered locally is served. -/
  | readRequestFrame
  /-- READ_RESPONSE_FRAME: A READ_RESPONSE frame delivered locally returns data to its requester. -/
  | readResponseFrame
  /-- REDUCE_FRAME: A REDUCE frame delivered to a home unit is combined in the up phase or written and passed on in the down phase. -/
  | reduceFrame
  /-- SYNC_ARRIVE_FRAME: An ARRIVE frame from a child counts toward the member's arrival to its parent. -/
  | syncArriveFrame
  /-- SYNC_RELEASE_FRAME: A RELEASE frame completes the phase locally, passes on to children and carries the fallback decision. -/
  | syncReleaseFrame
  /-- SYNC_CREDIT_FRAME: A CREDIT frame carries the parent's window BASE values, allowing further pieces to be sent. -/
  | syncCreditFrame
  /-- SYNC_READY_FRAME: A READY frame advances the READY phase of a non-reducing or fallback collective. -/
  | syncReadyFrame
  /-- CREDIT_SEND_TIMER: At least every 1 µs a member sends CREDIT frames carrying BASE to its children. -/
  | creditSendTimer
  /-- SYNC_DUMP_START: START written to DBG_SYNC_DUMP_CONTROL writes a dump of all barrier objects, or reads REFUSED. -/
  | syncDumpStart (req : Requester) (value : Word)
  /-- SYNC_DUMP_COMPLETE: The sync dump finishes writing and its status reads done. -/
  | syncDumpComplete
  /-- LIVENESS_REFRESH: The active system controller refreshes its liveness word every 1 ms. -/
  | livenessRefresh
  /-- SYSTEM_CONTROLLER_FAILOVER: The liveness word is not refreshed for 5 ms and system controller B takes over every duty of A. -/
  | systemControllerFailover
  /-- LIVENESS_LOST_RETIRE: No system controller refreshes the liveness word for 200 ms, so ports go idle, DEVICE_RETIRE is declared and the device faults. -/
  | livenessLostRetire
  /-- MARGIN_REPORT: An island's 100 ms margin report may log AGING_WARN and schedule retirement. -/
  | marginReport (island : Nat) (margin : Nat) (predicted : Bool)
  /-- CORE_PROBE: The tile supervisor probes each running core every 100 µs. -/
  | coreProbe (core : Nat) (answered : Bool)
  /-- CORE_PROBE_TIMEOUT: A core answers no probe for 1 ms and is declared failed. -/
  | coreProbeTimeout (core : Nat)
  /-- STRIPE_FORM: FORM written to REL_STRIPE_CONTROL zeroes parity, exchanges JOIN and sends every banked unit to start formation. -/
  | stripeForm (req : Requester) (value : Word)
  /-- STRIPE_JOIN: A JOIN banking message is compared with this member's set, logging STRIPE_MISMATCH on a difference. -/
  | stripeJoin
  /-- BANK_DELTA: A DELTA banking message piece is staged at the holder, which answers STAGED. -/
  | bankDelta
  /-- BANK_STAGED: A STAGED message lets the member arrive at the bank barrier once every delta is staged. -/
  | bankStaged
  /-- BANK_DROP: A DROP message discards the staged deltas of a step at the holder. -/
  | bankDrop
  /-- REBUILD_BEGIN: A REBUILD_BEGIN message makes a peer supply the banked values of every row of the dead member. -/
  | rebuildBegin
  /-- REBUILD_DATA: A REBUILD_DATA piece is XORed at the standby into the rebuilt unit. -/
  | rebuildData
  /-- REBUILD_END: A REBUILD_END returns the stripe set to FORMED and the tables are reloaded. -/
  | rebuildEnd
  /-- BANKED_UNIT_REBUILD_DONE: A poisoned banked unit is rebuilt from its peers' answers and its readers resume. -/
  | bankedUnitRebuildDone (unit : Nat)
  /-- BANK_DECIDE_COMMIT: COMMIT written to REL_CTX_BANK_DECIDE applies the pending phase's staged deltas and declares its Lull. -/
  | bankDecideCommit (req : Requester) (ctx : Nat) (value : Word)
  /-- BANK_DECIDE_ABORT: ABORT written to REL_CTX_BANK_DECIDE drops the pending phase's staged deltas. -/
  | bankDecideAbort (req : Requester) (ctx : Nat) (value : Word)
  /-- REPLAY_DISCARD: DISCARD written to REL_REPLAY_CONTROL discards the context's step in progress and makes it DISCARDED, or returns REPLAY_REFUSED. -/
  | replayDiscard (req : Requester) (value : Word)
  /-- REPLAY_RESUME: RESUME written to REL_REPLAY_CONTROL requests a restart of the discarded step with the same number. -/
  | replayResume (req : Requester) (value : Word)
  /-- REPLAY_QUIET_EXPIRE: REL_REPLAY_QUIET_US passes with no frame dropped and the pending RESUME takes effect. -/
  | replayQuietExpire
  /-- VIDEO_OPEN: Video command OPEN opens a decode, encode or ingest stream on an engine. -/
  | videoOpen (via : Via)
  /-- VIDEO_CLOSE: Video command CLOSE waits for the stream's units and frees its slot and budget. -/
  | videoClose (via : Via)
  /-- DECODE_SUBMIT: Video command SUBMIT on a decode stream decodes one unit or flushes a waiting picture. -/
  | decodeSubmit (via : Via)
  /-- ENCODE_SUBMIT: Video command SUBMIT on an encode stream queues a picture for encoding. -/
  | encodeSubmit (via : Via)
  /-- ADVANCE: Video command ADVANCE declares rows of the oldest unfinished encode picture present. -/
  | advance (via : Via)
  /-- INGEST: Video command INGEST checks a sample's limits and queues it for ingest. -/
  | ingest (via : Via)
  /-- BAND_SELECT: At a band boundary an engine chooses the next 64-row band to code by class and arrival. -/
  | bandSelect (engine : Nat)
  /-- DECODE_UNIT_COMPLETE: A decode unit finishes, writing its due picture and stream state, or stops the stream as damaged. -/
  | decodeUnitComplete (stream : Nat)
  /-- SLICE_EMIT: The entropy engine finishes a slice or tile group and writes it as one ring record. -/
  | sliceEmit (stream : Nat)
  /-- SAMPLE_COMPLETE: An ingest sample finishes and is packed into a row, closing the row when it does not fit, or fails with a record. -/
  | sampleComplete (stream : Nat) (index : Nat)
  /-- VIDEO_ENGINE_FAIL: A video engine fails, stopping its streams and bringing the spare into service. -/
  | videoEngineFail (engine : Nat)
  /-- ROW_FREE: A row index written to VID_STR_ROW_FREE makes that row buffer free again. -/
  | rowFree (req : Requester) (stream : Nat) (value : Word)
  /-- OUT_RD_WRITE: A write to VID_STR_OUT_RD frees ring space for waiting records. -/
  | outRdWrite (req : Requester) (stream : Nat) (value : Word)
  /-- POWER_APPLIED: The input stays within 44–58 V for 1 ms and the first half of cold boot runs to STANDBY. -/
  | powerApplied (addr : Nat) (a b : FwVerdict)
  /-- SUPPLY_LOST: The input falls below 40 V or rises above 60 V, the converters stop and the device goes OFF. -/
  | supplyLost
  /-- SECOND_HALF_START: The second half of cold boot runs from STANDBY through training, tests and image load to READY. -/
  | secondHalfStart (tests : BootTests)
  /-- INPUT_VOLTAGE_SAMPLE: The 10 µs input measurement logs INPUT_RANGE once per excursion outside 44–58 V lasting 1 ms. -/
  | inputVoltageSample (mv tenthAmps watts : Nat)
  /-- ISLAND_MONITOR_REPORT: An island regulator's 1 µs report of load and temperature may find its calibration record stale and guard-band the island. -/
  | islandMonitorReport (island load temp droops mhz : Nat)
  /-- RECALIBRATION_SWEEP: At a full Lull every island with RECAL_PENDING calibrates in parallel. -/
  | recalibrationSweep (failed : List Nat)
  /-- RECAL_ALL: RECAL_ALL written to PWR_CONTROL sets RECAL_PENDING on every island that is ON. -/
  | recalAll (req : Requester) (value : Word)
  /-- GO_STANDBY: GO_STANDBY written to PWR_CONTROL quiesces the device, writes back the cache, turns every island off and enters STANDBY. -/
  | goStandby (req : Requester) (value : Word)
  /-- QUIESCE_DRAIN_COMPLETE: The drain for a warm reset or power change completes and the device enters STANDBY. -/
  | quiesceDrainComplete
  /-- ISLAND_RESET: RESET in PWR_ISL_CONTROL quiesces and resets an island that holds no step's work. -/
  | islandReset (req : Requester) (island : Nat) (value : Word)
  /-- ISLAND_RECAL: RECAL in PWR_ISL_CONTROL sets RECAL_PENDING on an island that holds no step's work. -/
  | islandRecal (req : Requester) (island : Nat) (value : Word)
  /-- ISLAND_DRAINED: An island being quiesced signals drained and the controller resets, updates or gates it. -/
  | islandDrained (island : Nat)
  /-- QUIESCE_TIMEOUT: An island does not drain within 20 µs and is forced down and treated as failed. -/
  | quiesceTimeout (island : Nat)
  /-- WINDBREAK_RETRY: A crossing answered RETRY retries its request after 1 µs. -/
  | windbreakRetry
  /-- CORE_IDLE_RETENTION: An idle active core reaches PWR_IDLE_RET_US and enters RETENTION. -/
  | coreIdleRetention (core : Nat)
  /-- WAKE_LATCH_SET: An edge caught by a wake latch wakes or reaches an island once its entry to a stopped state completes. -/
  | wakeLatchSet (island : Nat)
  /-- REGULATOR_PHASE_FAIL: A regulator phase fails and the spare phase is switched in, or the island goes OFF on a second failure. -/
  | regulatorPhaseFail (island : Nat)
  /-- CLOCK_GENERATOR_FAIL: An island clock generator fails and the island runs on its backup, or goes OFF on a second failure. -/
  | clockGeneratorFail (island : Nat)
  /-- PORT_LP_ENTER: A port in PWR_PORT_LP_MASK idle for PWR_PORT_IDLE_US enters low power. -/
  | portLpEnter (port : Nat)
  /-- PORT_WAKE_PATTERN: A wake pattern from the partner aborts a low-power entry or brings the port back to UP. -/
  | portWakePattern (port : Nat)
  /-- LASER_POWER_UPDATE: Every 1 ms the optical engine reports each laser fibre's power and low flag in LNK_PORT_LASER. -/
  | laserPowerUpdate (port a b : Nat)
  /-- THERMAL_SENSOR_READ: A temperature reading is compared with the fixed warning and trip thresholds. -/
  | thermalSensorRead (kind index celsius : Nat)
  /-- HOST_LINK_TRAINED: The PCIe link trains and HOST_LINK_NARROW is raised if below 64 GT/s or x16. -/
  | hostLinkTrained (gen width : Nat)
  /-- HOST_LINK_RESET: A hot reset, FLR or DL_Down resets the function and mailbox staging, increments the epoch and raises HOST_LINK_EPOCH. -/
  | hostLinkReset (down : Bool)
  /-- D3HOT_ENTRY: The function enters D3hot, stopping MSI-X messages and stalling DMA. -/
  | d3hotEntry
  /-- DOORBELL: SEQ written to MB_DOORBELL posts a notice to the target or is answered by the mailbox block itself. -/
  | doorbell (req : Requester) (channel : Nat) (value : Word) (payload : List Byte)
  /-- NOTICE_ACK: A target acknowledges a taken notice, writing {code, SEQ} to MB_ACK and raising the acknowledge source. -/
  | noticeAck (channel code : Nat)
  /-- NOTICE_UNIMPLEMENTED: A target takes a notice whose opcode its firmware does not implement and answers BAD_NOTICE. -/
  | noticeUnimplemented (channel : Nat)
  /-- NOP: Opcode 0x0000 is taken and acknowledged with OK by every target. -/
  | nop (channel : Nat)
  /-- TARGET_NOTICE_POST: A target posts a notice toward the requester and raises the acknowledge source. -/
  | targetNoticePost (channel ptr op seq : Nat) (data : List Byte)
  /-- TARGET_NOTICE_ACK: A code written to MB_TGT_ACK acknowledges the target's notice and clears TGT_POSTED. -/
  | targetNoticeAck (req : Requester) (channel : Nat) (value : Word)
  /-- GET_INFO: Opcode GET_INFO writes device or die status to the payload. -/
  | getInfo (channel : Nat)
  /-- WARM_RESET: Opcode WARM_RESET, or the management endpoint, starts a warm device reset through QUIESCE and STANDBY. -/
  | warmReset (caller : Caller)
  /-- SET_BOOT: Opcode SET_BOOT marks the active firmware slot, the boot image slot and AUTO_START. -/
  | setBoot (caller : Caller)
  /-- STORE_IMAGE: Opcode STORE_IMAGE checks an image through check 4 and writes it to a flash image slot. -/
  | storeImage (channel : Nat) (sig : SigVerdict)
  /-- START: Opcode START begins the second half of cold boot from STANDBY, or returns DEVICE_RETIRE. -/
  | start (caller : Caller)
  /-- DEBUG_CHALLENGE: Opcode DEBUG_CHALLENGE returns a fresh nonce valid for 60 s. -/
  | debugChallenge (channel : Nat)
  /-- DEBUG_TOKEN: Opcode DEBUG_TOKEN presents a token, consuming the nonce and accepting or refusing it. -/
  | debugToken (channel : Nat) (valid : Bool)
  /-- DEBUG_REVOKE: Opcode DEBUG_REVOKE ends the caller's debug token. -/
  | debugRevoke (channel : Nat)
  /-- GET_CERTIFICATES: Opcode GET_CERTIFICATES writes the slot-0 certificate chain. -/
  | getCertificates (channel : Nat)
  /-- IMPORT_WEIGHTS: Opcode IMPORT_WEIGHTS authenticates one encrypted weight page and writes it through the cipher. -/
  | importWeights (channel : Nat) (page : Option (List Byte))
  /-- ENROL: Opcode ENROL with OP 1 enrols an owner key from a signed record. -/
  | enrol (channel : Nat) (valid : Bool)
  /-- REVOKE: Opcode ENROL with OP 2 revokes an owner key, ending its tokens and held images. -/
  | revoke (channel : Nat) (valid : Bool)
  /-- MODEL_KEY: Opcode MODEL_KEY seals a delivered model key and loads it when its MODEL_ID matches. -/
  | modelKey (channel : Nat)
  /-- SIGN_PATCH: Opcode SIGN_PATCH signs a KIND 1 patch with the device patch key. -/
  | signPatch (channel : Nat)
  /-- NONCE_EXPIRE: A debug challenge nonce expires 60 s after issue. -/
  | nonceExpire (who : Nat)
  /-- TOKEN_EXPIRED: A debug token's lifetime ends; its facilities close and TOKEN_EXPIRED is logged. -/
  | tokenExpired (who : Nat)
  /-- MCTP_MESSAGE: A management message arrives at the endpoint and is answered, or refused with ERROR_NOT_READY. -/
  | mctpMessage (msg : MgmtMessage)
  /-- SPDM_KEY_EXCHANGE: An SPDM KEY_EXCHANGE opens a secured session, or returns Busy when four are open. -/
  | spdmKeyExchange
  /-- SPDM_GET_MEASUREMENTS: An SPDM GET_MEASUREMENTS returns the signed measurement blocks. -/
  | spdmGetMeasurements
  /-- PLDM_SENSOR_READ: A PLDM sensor read returns the matching register value. -/
  | pldmSensorRead (sensor : Nat)
  /-- FW_VERIFY_COMPLETE: At PLDM VerifyComplete the bundle in the inactive slot is checked under R380. -/
  | fwVerifyComplete (bundle : List Byte) (verdict : FwVerdict)
  /-- ACTIVATE_FIRMWARE: PLDM ActivateFirmware sets HOLD_PENDING so that activation runs at the next full Lull. -/
  | activateFirmware
  /-- FIRMWARE_ACTIVATION: At a full Lull the new bundle's components are loaded through a controller handover. -/
  | firmwareActivation
  /-- DMA_STALL_TIMEOUT: A virtual channel accepts no TLP for GLB_DMA_STALL_TIMEOUT and is suspended with HOST_STALL_SUSPENDED. -/
  | dmaStallTimeout (vc accepted : Nat)
  /-- HOST_CREDIT_RETURN: The host returns credits on a virtual channel and its non-suspended transfers proceed. -/
  | hostCreditReturn (vc : Nat) (more : Bool)
  /-- DMA_RESUME: A RESUME bit written to GLB_DMA_CONTROL restarts a suspended channel from the first byte not accepted. -/
  | dmaResume (req : Requester) (value : Word)
  /-- INTERRUPT_DELIVER: A target with no active interrupt receives the lowest pending unmasked source, or the host an MSI-X message. -/
  | interruptDeliver (target vector : Nat) (late : Bool)
  /-- IRQ_TGT_EOI: A controller target writes its end-of-interrupt register, ending its active interrupt. -/
  | irqTgtEoi (req : Requester) (target : Nat) (value : Word)
  /-- IRQ_HOST_EOI: A vector written to IRQ_HOST_EOI ends that outstanding MSI-X vector. -/
  | irqHostEoi (req : Requester) (value : Word)
  /-- FLIT_CRC_ERROR: A flit whose CRC fails arrives on a port; it is discarded, counted in LNK_PORT_CRC_ERR, and the frame it belongs to is discarded whole. -/
  | flitCrcError (port : Nat)
  /-- D3HOT_EXIT: The PCIe function returns from D3hot to D0, so held MSI-X messages are delivered and stalled DMA resumes. -/
  | d3hotExit
  /-- CONFIG_SPACE_WRITE: The host sets Bus Master Enable or MSI-X enable, or unmasks a vector in the MSI-X table, releasing stalled DMA and waiting interrupt deliveries. -/
  | configSpaceWrite (busMaster msix : Bool) (vcs : Nat) (masked : List Nat) (bar4GiB : Nat)
  /-- MODULE_CONVERTER_FAIL: One of the eight module converters fails; seven cannot carry the bus, so DEVICE_RETIRE is declared under Table REL-6. -/
  | moduleConverterFail (converter : Nat)
  /-- SECURE_ONLY_ACCESS: A non-secure request to a secure-only register, or an unauthorized access to the debug block, reads zero or is dropped and is counted in GLB_ACCESS_DENIED and GLB_ACCESS_LAST. -/
  | secureOnlyAccess (req : Requester) (write : Bool) (off : Nat) (value : Word)
  deriving DecidableEq, Repr

end Sys2Proof
end

