-- ==== Sys2Proof/Machine/Bits.lean ====
section
/-! DEFINITION. Bit fields of numbers, as the manual's tables write them (Table SC-5). -/

namespace Sys2Proof

/-- The bits `hi` down to `lo` of a number, as Table SC-5 writes [msb:lsb]. -/
def bits (v hi lo : Nat) : Nat := v / 2 ^ lo % 2 ^ (hi + 1 - lo)

/-- `v` with bits `hi` down to `lo` replaced by the low bits of `f`. -/
def putBits (v hi lo f : Nat) : Nat :=
  v - bits v hi lo * 2 ^ lo + f % 2 ^ (hi + 1 - lo) * 2 ^ lo

/-- Is bit `i` of `v` one? -/
def bit (v i : Nat) : Bool := v / 2 ^ i % 2 == 1

end Sys2Proof
end

