-- ==== Sys2Proof/Machine/Numbers.lean ====
section
/-! DEFINITION. Number formats, rounding and conversion (R96 to R113, 05_number_formats.md) and the extended internal format
(R165, 09_vector_special.md). Values are exact: a sign, a natural magnitude and a power of two. -/

namespace Sys2Proof.Machine

open Sys2Proof

/-- The four sticky flags of one engine: bit 0 OF, bit 1 UF, bit 2 NX, bit 3 NV (Table NUM-7). -/
abbrev Flags := BitVec 4

def flagOF : Flags := 1
def flagUF : Flags := 2
def flagNX : Flags := 4
def flagNV : Flags := 8

/-- OR of the flags whose condition holds. -/
def flagsOf (o u n v : Bool) : Flags :=
  (if o then flagOF else 0) ||| (if u then flagUF else 0) ||| (if n then flagNX else 0) ||| (if v then flagNV else 0)

/-- An exact value: a NaN, a signed infinity, or (−1)^neg × m × 2^e; m = 0 is a signed zero. -/
inductive FV where
  | nan
  | inf (neg : Bool)
  | fin (neg : Bool) (m : Nat) (e : Int)
  deriving DecidableEq, Repr

/-- +0. -/
def fvZero : FV := .fin false 0 0

def fvIsNan : FV → Bool
  | .nan => true
  | _ => false

def fvIsInf : FV → Bool
  | .inf _ => true
  | _ => false

def fvIsZero : FV → Bool
  | .fin _ m _ => m == 0
  | _ => false

def fvNeg : FV → FV
  | .nan => .nan
  | .inf n => .inf (!n)
  | .fin n m e => .fin (!n) m e

def fvAbs : FV → FV
  | .nan => .nan
  | .inf _ => .inf false
  | .fin _ m e => .fin false m e

/-- The value scaled by 2^k. -/
def fvScale (k : Int) : FV → FV
  | .fin n m e => .fin n m (e + k)
  | v => v

/-- An exact dyadic number m × 2^e, for sums and comparisons. -/
structure Dy where
  m : Int
  e : Int
  deriving DecidableEq, Repr

def dyZero : Dy := ⟨0, 0⟩

/-- 2^k for a natural or negative k is only used with k ≥ 0. -/
def pow2 (k : Int) : Int := (2 ^ k.toNat : Nat)

def dyAdd (a b : Dy) : Dy :=
  if a.m = 0 then b
  else if b.m = 0 then a
  else if a.e ≤ b.e then ⟨a.m + b.m * pow2 (b.e - a.e), a.e⟩
  else ⟨a.m * pow2 (a.e - b.e) + b.m, b.e⟩

def dyNeg (a : Dy) : Dy := ⟨-a.m, a.e⟩

def dySub (a b : Dy) : Dy := dyAdd a (dyNeg b)

def dyMul (a b : Dy) : Dy := ⟨a.m * b.m, a.e + b.e⟩

/-- a < b, exactly. -/
def dyLt (a b : Dy) : Bool := decide ((dySub a b).m < 0)

def dySum (l : List Dy) : Dy := l.foldl dyAdd dyZero

/-- The exact number of a finite value (zero for the others). -/
def fvDy : FV → Dy
  | .fin n m e => ⟨if n then -(m : Int) else m, e⟩
  | _ => dyZero

/-- A finite value from an exact number; an exact zero takes the sign given. -/
def dyFv (zneg : Bool) (d : Dy) : FV :=
  if d.m = 0 then .fin zneg 0 0 else .fin (decide (d.m < 0)) d.m.natAbs d.e

/-- Rounding modes (Table NUM-5; code 3 is reserved). -/
inductive Rounding where
  | rne
  | rtz
  | sr
  deriving DecidableEq, Repr

/-- Table NUM-5's rounding field; code 3 names no mode (R141). -/
def roundingOf : Nat → Option Rounding
  | 0 => some .rne
  | 1 => some .rtz
  | 2 => some .sr
  | _ => none

/-- Magnitude m × 2^e rounded to a multiple of 2^q (R104). `u` is the 16-bit draw of SR.
Answers the multiple and whether the value changed. -/
def roundAt (mode : Rounding) (u : Nat) (m : Nat) (e q : Int) : Nat × Bool :=
  if q ≤ e then (m * 2 ^ (e - q).toNat, false)
  else
    let k := (q - e).toNat
    let a := m >>> k
    let r := m % 2 ^ k
    let up : Bool := match mode with
      | .rne => 2 * r > 2 ^ k || (2 * r == 2 ^ k && a % 2 == 1)
      | .rtz => false
      | .sr => u < 2 ^ 16 * r / 2 ^ k
    (if up then a + 1 else a, r != 0)

/-- Magnitude rounded to `p` significant bits, no finer than 2^qmin: multiple, quantum exponent, changed. -/
def roundSig (mode : Rounding) (u p : Nat) (qmin : Int) (m : Nat) (e : Int) : Nat × Int × Bool :=
  let q : Int := max ((Nat.log2 m : Int) + e - ((p : Int) - 1)) qmin
  let r := roundAt mode u m e q
  (r.1, q, r.2)

/-- Rounding to `p` significant bits with no bounds on the exponent (R84). Answers the number and whether it changed. -/
def dyRound (p : Nat) (d : Dy) : Dy × Bool :=
  if d.m = 0 then (dyZero, false)
  else
    let m := d.m.natAbs
    let q : Int := (Nat.log2 m : Int) + d.e - ((p : Int) - 1)
    let r := roundAt .rne 0 m d.e q
    (⟨if d.m < 0 then -(r.1 : Int) else r.1, q⟩, r.2)

/-- A floating-point element format (Table NUM-2). -/
structure FloatFmt where
  ebits : Nat
  mbits : Nat
  bias : Nat
  /-- Exponent and mantissa fields of the largest finite value. -/
  maxE : Nat
  maxM : Nat
  hasInf : Bool
  hasNan : Bool
  /-- The canonical NaN written (R98), where the format has one. -/
  nanCode : Nat
  deriving DecidableEq, Repr

def fmtE4M3 : FloatFmt := ⟨4, 3, 7, 15, 6, false, true, 0x7F⟩
def fmtE5M2 : FloatFmt := ⟨5, 2, 15, 30, 3, true, true, 0x7F⟩
def fmtE3M2 : FloatFmt := ⟨3, 2, 3, 7, 3, false, false, 0⟩
def fmtE2M3 : FloatFmt := ⟨2, 3, 1, 3, 7, false, false, 0⟩
def fmtE2M1 : FloatFmt := ⟨2, 1, 1, 3, 1, false, false, 0⟩
def fmtBF16 : FloatFmt := ⟨8, 7, 127, 254, 127, true, true, 0x7FC0⟩
def fmtFP32 : FloatFmt := ⟨8, 23, 127, 254, 0x7FFFFF, true, true, 0x7FC00000⟩
/-- The extended internal format (R165): 11 exponent bits biased by 1,023 and 23 stored fraction bits. -/
def fmtExt : FloatFmt := ⟨11, 23, 1023, 2046, 0x7FFFFF, true, true, 0x3FFC00000⟩

/-- Exponent of the smallest subnormal. -/
def fmtQmin (f : FloatFmt) : Int := 1 - (f.bias : Int) - f.mbits

/-- The largest finite magnitude. -/
def fmtMax (f : FloatFmt) : Dy := ⟨(2 ^ f.mbits + f.maxM : Nat), (f.maxE : Int) - f.bias - f.mbits⟩

/-- The smallest normal magnitude. -/
def fmtMinNormal (f : FloatFmt) : Dy := ⟨1, 1 - (f.bias : Int)⟩

/-- emax of Table NUM-2. -/
def fmtEmax (f : FloatFmt) : Int := (f.maxE : Int) - f.bias

/-- The value an encoding stands for (R97). -/
def decodeFloat (f : FloatFmt) (c : Nat) : FV :=
  let neg := bit c (f.ebits + f.mbits)
  let e := c / 2 ^ f.mbits % 2 ^ f.ebits
  let m := c % 2 ^ f.mbits
  if f.hasInf && e == 2 ^ f.ebits - 1 then (if m == 0 then .inf neg else .nan)
  else if f.hasNan && !f.hasInf && e == 2 ^ f.ebits - 1 && m == 2 ^ f.mbits - 1 then .nan
  else if e == 0 then .fin neg m (fmtQmin f)
  else .fin neg (2 ^ f.mbits + m) ((e : Int) - f.bias - f.mbits)

/-- The sign bit in its place. -/
def signCode (f : FloatFmt) (neg : Bool) : Nat := if neg then 2 ^ (f.ebits + f.mbits) else 0

/-- The encoding of ±infinity. -/
def infCode (f : FloatFmt) (neg : Bool) : Nat := signCode f neg + (2 ^ f.ebits - 1) * 2 ^ f.mbits

/-- The encoding of the largest finite value. -/
def maxCode (f : FloatFmt) (neg : Bool) : Nat := signCode f neg + f.maxE * 2 ^ f.mbits + f.maxM

/-- The encoding of a magnitude m × 2^q that the format represents. -/
def encodeMag (f : FloatFmt) (neg : Bool) (m : Nat) (q : Int) : Nat :=
  if m = 0 then signCode f neg
  else
    let top : Int := (Nat.log2 m : Int) + q
    if top < 1 - (f.bias : Int) then signCode f neg + m * 2 ^ (q - fmtQmin f).toNat
    else
      let l := Nat.log2 m
      let mant := if l ≤ f.mbits then m * 2 ^ (f.mbits - l) else m >>> (l - f.mbits)
      signCode f neg + (top + f.bias).toNat * 2 ^ f.mbits + (mant - 2 ^ f.mbits)

/-- What one delivered element is: its encoding, the flags it sets, and whether it counts as saturated or flushed (R112, R113). -/
structure Deliver where
  code : Nat
  flags : Flags
  sat : Bool
  flushed : Bool
  deriving DecidableEq, Repr

/-- A conversion into a scalar floating-point format: narrowing (R108, Table NUM-6). `nonsat` is the overflow mode. -/
def narrow (f : FloatFmt) (mode : Rounding) (nonsat : Bool) (u : Nat) (v : FV) : Deliver :=
  match v with
  | .nan => ⟨f.nanCode, flagNV, false, false⟩
  | .inf neg =>
    if f.hasInf then ⟨infCode f neg, 0, false, false⟩
    else if nonsat then ⟨f.nanCode, flagNV, false, false⟩
    else ⟨maxCode f neg, flagNX, true, false⟩
  | .fin neg m e =>
    if m = 0 then ⟨signCode f neg, 0, false, false⟩
    else
      let r := roundSig mode u (f.mbits + 1) (fmtQmin f) m e
      let q : Dy := ⟨r.1, r.2.1⟩
      if dyLt (fmtMax f) q then
        if nonsat && mode != .rtz then
          if f.hasInf then ⟨infCode f neg, flagOF ||| flagNX, false, false⟩
          else ⟨f.nanCode, flagOF ||| flagNV, false, false⟩
        else ⟨maxCode f neg, flagOF ||| flagNX, true, false⟩
      else
        ⟨encodeMag f neg r.1 r.2.1, flagsOf false (r.2.2 && dyLt q (fmtMinNormal f)) r.2.2 false, false, r.1 == 0⟩

/-- A conversion into a wider format (R107): an overflow gives infinity whatever the overflow mode. -/
def widen (f : FloatFmt) (mode : Rounding) (u : Nat) (v : FV) : Deliver :=
  match v with
  | .nan => ⟨f.nanCode, flagNV, false, false⟩
  | .inf neg => ⟨infCode f neg, 0, false, false⟩
  | .fin neg m e =>
    if m = 0 then ⟨signCode f neg, 0, false, false⟩
    else
      let r := roundSig mode u (f.mbits + 1) (fmtQmin f) m e
      let q : Dy := ⟨r.1, r.2.1⟩
      if dyLt (fmtMax f) q then ⟨infCode f neg, flagOF ||| flagNX, false, false⟩
      else ⟨encodeMag f neg r.1 r.2.1, flagsOf false (r.2.2 && dyLt q (fmtMinNormal f)) r.2.2 false, false, r.1 == 0⟩

/-- An IEEE 754 operation's exact result delivered in `f`, rounded to nearest even (R86, R103): overflow gives infinity. -/
def deliverIeee (f : FloatFmt) (v : FV) : Nat × Flags :=
  let d := widen f .rne 0 v
  (d.code, d.flags)

/-- Conversion into a two's complement integer of `w` bits (R111, Table NUM-6). -/
def toInteger (w : Nat) (mode : Rounding) (v : FV) : Deliver :=
  let hi : Int := 2 ^ (w - 1) - 1
  let lo : Int := -(2 ^ (w - 1))
  let enc (x : Int) : Nat := (x % (2 ^ w : Int)).toNat
  match v with
  | .nan => ⟨0, flagNV, false, false⟩
  | .inf neg => ⟨enc (if neg then lo else hi), flagNX, true, false⟩
  | .fin neg m e =>
    let r := roundAt (if mode = .rtz then .rtz else .rne) 0 m e 0
    let x : Int := if neg then -(r.1 : Int) else r.1
    if hi < x then ⟨enc hi, flagOF ||| flagNX, true, false⟩
    else if x < lo then ⟨enc lo, flagOF ||| flagNX, true, false⟩
    else ⟨enc x, if r.2 then flagNX else 0, false, false⟩

/-- The value of a two's complement integer of `w` bits. -/
def ofInteger (w c : Nat) : FV :=
  if bit c (w - 1) then .fin true (2 ^ w - c) 0 else .fin false c 0

/-! ## Format codes -/

/-- How a format code stores its elements (Table NUM-1). -/
inductive FmtKind where
  | scalar (f : FloatFmt) (bytes : Nat)
  | integer (w : Nat)
  | block (f : FloatFmt) (elemBits : Nat) (qf4 : Bool)
  deriving DecidableEq, Repr

/-- Table NUM-1; codes 0xC to 0xF name no format (R96). -/
def fmtOf : Nat → Option FmtKind
  | 0x0 => some (.scalar fmtFP32 4)
  | 0x1 => some (.scalar fmtBF16 2)
  | 0x2 => some (.scalar fmtE4M3 1)
  | 0x3 => some (.scalar fmtE5M2 1)
  | 0x4 => some (.block fmtE4M3 8 false)
  | 0x5 => some (.block fmtE5M2 8 false)
  | 0x6 => some (.block fmtE3M2 6 false)
  | 0x7 => some (.block fmtE2M3 6 false)
  | 0x8 => some (.block fmtE2M1 4 false)
  | 0x9 => some (.block fmtE2M1 4 true)
  | 0xA => some (.integer 8)
  | 0xB => some (.integer 32)
  | _ => none

/-- Is the code a block format (0x4 to 0x9)? -/
def isBlockFmt (c : Nat) : Bool := 4 ≤ c && c ≤ 9

/-- Class of an MMA operand format (R78): 0 for 4-bit, 1 for 8-bit, 2 for BF16. -/
def classOf (c : Nat) : Nat :=
  if c = 1 then 2 else if c = 8 || c = 9 then 0 else 1

/-- Stored bytes of a row of `n` elements (Table NUM-3); QF4 blocks lie in pairs (R102). -/
def rowBytes (c n : Nat) : Nat :=
  match fmtOf c with
  | some (.scalar _ b) => n * b
  | some (.integer w) => n * (w / 8)
  | some (.block _ eb false) => (n + 31) / 32 * (1 + 4 * eb)
  | some (.block _ _ true) => ((n + 31) / 32 + 1) / 2 * 35
  | none => 0

/-- The number a list of bytes spells, least significant first (R11). -/
def leNat : List Byte → Nat
  | [] => 0
  | b :: t => b.toNat + 256 * leNat t

/-- The low `n` bytes of a number, least significant first (R11). -/
def leBytes : Nat → Nat → List Byte
  | 0, _ => []
  | n + 1, v => BitVec.ofNat 8 v :: leBytes n (v / 256)

/-- A list cut into pieces of `k`, for at most `n` pieces. -/
def chunk {α : Type} (k : Nat) : Nat → List α → List (List α)
  | 0, _ => []
  | n + 1, l => l.take k :: chunk k n (l.drop k)

/-- The elements of one block, scale applied (R99 to R102); `sub` are QF4's sub-block bits. -/
def decodeBlock (f : FloatFmt) (eb : Nat) (scale sub : Nat) (elems : Nat) : List FV :=
  (List.range 32).map fun i =>
    if scale = 0xFF then .nan
    else
      let k : Int := (scale : Int) - 127 - (if bit sub (i / 8) then 1 else 0)
      fvScale k (decodeFloat f (elems / 2 ^ (eb * i) % 2 ^ eb))

/-- Pieces of a list of bytes as blocks, two of QF4 to 35 bytes. -/
def decodeBlocks (f : FloatFmt) (eb : Nat) (qf4 : Bool) (blocks : Nat) (bs : List Byte) : List FV :=
  if qf4 then
    ((chunk 35 ((blocks + 1) / 2) bs).zipIdx.map fun (p, i) =>
      let s0 := leNat (p.take 1)
      let s1 := leNat ((p.drop 1).take 1)
      let sb := leNat ((p.drop 2).take 1)
      let b0 := decodeBlock f eb s0 (sb % 16) (leNat ((p.drop 3).take 16))
      let b1 := decodeBlock f eb s1 (sb / 16) (leNat ((p.drop 19).take 16))
      if 2 * i + 1 < blocks then b0 ++ b1 else b0 ++ List.replicate 32 fvZero).flatten
  else
    ((chunk (1 + 4 * eb) blocks bs).map fun p =>
      decodeBlock f eb (leNat (p.take 1)) 0 (leNat (p.drop 1))).flatten

/-- The values of the first `n` elements of a stored row. -/
def decodeRow (c n : Nat) (bs : List Byte) : List FV :=
  match fmtOf c with
  | some (.scalar f b) => (chunk b n bs).map fun p => decodeFloat f (leNat p)
  | some (.integer w) => (chunk (w / 8) n bs).map fun p => ofInteger w (leNat p)
  | some (.block f eb q) => (decodeBlocks f eb q ((n + 31) / 32) bs).take n
  | none => []

/-- The flags, counts and bytes a delivered row makes. -/
structure Delivered where
  bytes : List Byte
  flags : Flags
  sat : Nat
  flushed : Nat
  deriving DecidableEq, Repr

def deliveredNil : Delivered := ⟨[], 0, 0, 0⟩

def deliveredAppend (a b : Delivered) : Delivered :=
  ⟨a.bytes ++ b.bytes, a.flags ||| b.flags, a.sat + b.sat, a.flushed + b.flushed⟩

/-- Flags and counts of a list of elements. -/
def tally (l : List Deliver) (bytes : List Byte) : Delivered :=
  l.foldl (fun a d => ⟨a.bytes, a.flags ||| d.flags, a.sat + (if d.sat then 1 else 0), a.flushed + (if d.flushed then 1 else 0)⟩)
    ⟨bytes, 0, 0, 0⟩

/-- Largest magnitude of a list of finite values. -/
def maxMag (l : List FV) : Dy :=
  l.foldl (fun a v => let d := fvDy (fvAbs v); if dyLt a d then d else a) dyZero

/-- ⌊log₂⌋ of a positive number. -/
def dyLog2 (d : Dy) : Int := (Nat.log2 d.m.natAbs : Int) + d.e

/-- One block of 32 values quantized (R109, R110): scale, sub-block bits, elements. -/
def quantBlock (f : FloatFmt) (qf4 : Bool) (mode : Rounding) (us : List Nat) (vs : List FV) :
    Nat × Nat × List Deliver :=
  if vs.any (fun v => fvIsNan v || fvIsInf v) then
    (0xFF, 0, vs.map fun _ => ⟨0, flagNV, false, false⟩)
  else
    let a := maxMag vs
    if a.m = 0 then
      (0x7F, if qf4 then 15 else 0, vs.map fun v => narrow f mode false 0 v)
    else
      let e : Int := max (-127) (min 127 (dyLog2 a - fmtEmax f))
      let sub : Nat := if qf4 then
          (List.range 4).foldl (fun acc j =>
            let aj := maxMag ((vs.drop (8 * j)).take 8)
            if dyLt ⟨3, e⟩ aj then acc else acc + 2 ^ j) 0
        else 0
      (((e + 127).toNat), sub, ((vs.zip us).zipIdx.map fun (vu, i) =>
        narrow f mode false vu.2 (fvScale (-e + (if bit sub (i / 8) then 1 else 0)) vu.1)))

/-- The elements of a block packed little-endian, `eb` bits each (Table NUM-3). -/
def packElems (eb : Nat) (l : List Deliver) : List Byte :=
  leBytes (4 * eb) (l.zipIdx.foldl (fun a (d, i) => a + d.code * 2 ^ (eb * i)) 0)

/-- A row of values (a multiple of 32) delivered into a block format. -/
def quantRow (f : FloatFmt) (eb : Nat) (qf4 : Bool) (mode : Rounding) (us : List Nat) (vs : List FV) : Delivered :=
  let nb := vs.length / 32
  let bl := (chunk 32 nb vs).zip (chunk 32 nb us)
  let qs := bl.map fun (v, u) => quantBlock f qf4 mode u v
  if qf4 then
    let pairs := chunk 2 ((nb + 1) / 2) qs
    pairs.foldl (fun acc p =>
      match p with
      | [x, y] => deliveredAppend acc (tally (x.2.2 ++ y.2.2)
          ([BitVec.ofNat 8 x.1, BitVec.ofNat 8 y.1, BitVec.ofNat 8 (x.2.1 + 16 * y.2.1)] ++ packElems eb x.2.2 ++ packElems eb y.2.2))
      | [x] => deliveredAppend acc (tally x.2.2
          ([BitVec.ofNat 8 x.1, 0x7F, BitVec.ofNat 8 x.2.1] ++ packElems eb x.2.2 ++ List.replicate 16 0))
      | _ => acc) deliveredNil
  else
    qs.foldl (fun acc x => deliveredAppend acc (tally x.2.2 ([BitVec.ofNat 8 x.1] ++ packElems eb x.2.2))) deliveredNil

/-- Is the conversion from `src` to `dst` one into a wider floating-point format (R107)? -/
def isWidening (src dst : Nat) : Bool :=
  (dst = 0 && 1 ≤ src && src ≤ 9) || (dst = 1 && 2 ≤ src && src ≤ 9)

/-- A value delivered from format `src` on its way to `dst`: an integer goes to FP32 first (R111). -/
def viaFp32 (src : Nat) (v : FV) : FV × Flags :=
  if src = 0xA || src = 0xB then
    let d := narrow fmtFP32 .rne true 0 v
    (decodeFloat fmtFP32 d.code, d.flags)
  else (v, 0)

/-- A row converted from format `src` into format `dst` (R103 to R111). `us` holds one draw per element under SR. -/
def convertRow (src dst : Nat) (mode : Rounding) (nonsat : Bool) (us : List Nat) (vs : List FV) : Delivered :=
  let vf := vs.map (viaFp32 src)
  let pre := vf.foldl (fun a x => a ||| x.2) (0 : Flags)
  let vv := vf.map Prod.fst
  let out : Delivered := match fmtOf dst with
    | some (.scalar f b) =>
      let ds := (vv.zip us).map fun (v, u) =>
        if src = 0xA || src = 0xB then (if dst = 0 then narrow f .rne true 0 v else narrow f mode nonsat u v)
        else if isWidening src dst then widen f mode u v else narrow f mode nonsat u v
      tally ds ((ds.map fun d => leBytes b d.code).flatten)
    | some (.integer w) =>
      let ds := vv.map fun v => toInteger w mode v
      tally ds ((ds.map fun d => leBytes (w / 8) d.code).flatten)
    | some (.block f eb q) => quantRow f eb q mode us vv
    | none => deliveredNil
  ⟨out.bytes, out.flags ||| pre, out.sat, out.flushed⟩

/-- Does a conversion into `dst` take draws under SR? Integer destinations take none (R105). -/
def drawsInto (dst : Nat) : Bool := !(dst = 0xA || dst = 0xB)

/-! ## The generator (R105) -/

/-- One step of the 32-bit LFSR. -/
def lfsrStep (s : Nat) : Nat :=
  let fb := (s / 2 ^ 31 + s / 2 ^ 21 + s / 2 + s) % 2
  (s * 2 + fb) % 2 ^ 32

def lfsrSteps : Nat → Nat → Nat
  | 0, s => s
  | n + 1, s => lfsrSteps n (lfsrStep s)

/-- `n` draws: each advances the register 16 steps and yields s[15:0]. -/
def lfsrDraws : Nat → Nat → List Nat × Nat
  | 0, s => ([], s)
  | n + 1, s =>
    let s' := lfsrSteps 16 s
    let r := lfsrDraws n s'
    (s' % 2 ^ 16 :: r.1, r.2)

/-- The state a seed loads: a seed of 0 loads 1. -/
def lfsrSeed (seed : Nat) : Nat := if seed = 0 then 1 else seed

/-! ## IEEE 754 binary32 operations, rounded to nearest even -/

/-- The exact value of an FP32 word. -/
def fp (w : Nat) : FV := decodeFloat fmtFP32 w

/-- Exact sum of two values; NaN where the sum has none. -/
def fvAdd (a b : FV) : FV :=
  match a, b with
  | .nan, _ => .nan
  | _, .nan => .nan
  | .inf x, .inf y => if x == y then .inf x else .nan
  | .inf x, _ => .inf x
  | _, .inf y => .inf y
  | .fin na ma ea, .fin nb mb eb =>
    if ma = 0 && mb = 0 then .fin (na && nb) 0 0
    else dyFv false (dyAdd (fvDy (.fin na ma ea)) (fvDy (.fin nb mb eb)))

/-- Exact product. -/
def fvMul (a b : FV) : FV :=
  match a, b with
  | .nan, _ => .nan
  | _, .nan => .nan
  | .inf x, .inf y => .inf (x != y)
  | .inf x, .fin n m _ => if m = 0 then .nan else .inf (x != n)
  | .fin n m _, .inf y => if m = 0 then .nan else .inf (n != y)
  | .fin na ma ea, .fin nb mb eb => .fin (na != nb) (ma * mb) (ea + eb)

/-- A quotient to at least 64 significant bits and a sticky bit, which rounds as the exact quotient does. -/
def fvDiv (a b : FV) : FV :=
  match a, b with
  | .nan, _ => .nan
  | _, .nan => .nan
  | .inf _, .inf _ => .nan
  | .inf x, .fin n _ _ => .inf (x != n)
  | .fin n _ _, .inf y => .fin (n != y) 0 0
  | .fin na ma ea, .fin nb mb eb =>
    if mb = 0 then (if ma = 0 then .nan else .inf (na != nb))
    else if ma = 0 then .fin (na != nb) 0 0
    else
      let k := 66 + Nat.log2 mb
      let q := ma * 2 ^ k / mb
      let s := if ma * 2 ^ k % mb = 0 then 0 else 1
      .fin (na != nb) (2 * q + s) (ea - eb - (k : Int) - 1)

/-- An operation's result word: the exact value rounded to FP32. A NaN sets NV (R98, Table NUM-7). -/
def fpOut (v : FV) : Nat × Flags := deliverIeee fmtFP32 v

def fpAdd (a b : Nat) : Nat × Flags := fpOut (fvAdd (fp a) (fp b))
def fpSub (a b : Nat) : Nat × Flags := fpOut (fvAdd (fp a) (fvNeg (fp b)))
def fpMul (a b : Nat) : Nat × Flags := fpOut (fvMul (fp a) (fp b))
def fpDiv (a b : Nat) : Nat × Flags := fpOut (fvDiv (fp a) (fp b))
/-- a × b + c, rounded once. -/
def fpFma (a b c : Nat) : Nat × Flags := fpOut (fvAdd (fvMul (fp a) (fp b)) (fp c))

/-- a < b for values that are not NaN, with −0 below +0 (Table VEC-1). -/
def fvLess (a b : FV) : Bool :=
  match a, b with
  | .inf x, .inf y => x && !y
  | .inf x, _ => x
  | _, .inf y => !y
  | .fin na ma ea, .fin nb mb eb =>
    if ma = 0 && mb = 0 then na && !nb
    else dyLt (fvDy (.fin na ma ea)) (fvDy (.fin nb mb eb))
  | _, _ => false

/-- The larger of two FP32 words; a NaN gives the canonical NaN and NV. -/
def fpMax (a b : Nat) : Nat × Flags :=
  if fvIsNan (fp a) || fvIsNan (fp b) then (0x7FC00000, flagNV)
  else (if fvLess (fp a) (fp b) then b else a, 0)

/-- The smaller of two FP32 words. -/
def fpMin (a b : Nat) : Nat × Flags :=
  if fvIsNan (fp a) || fvIsNan (fp b) then (0x7FC00000, flagNV)
  else (if fvLess (fp b) (fp a) then b else a, 0)

end Sys2Proof.Machine
end

