-- ==== Sys2Proof/Machine/MatrixMath.lean ====
section
/-! DEFINITION. The arithmetic of the matrix engine, the side-lanes and the check unit (R78 to R88, 04_cores_matrix_engine.md;
R116 to R124, 06_precision_guard.md), as functions of the operands alone (R88). -/

namespace Sys2Proof.Machine

open Sys2Proof

/-- Tile depth of a class (Table ME-3). -/
def depthOf (cls : Nat) : Nat := if cls = 0 then 128 else if cls = 1 then 64 else 32

/-- The promotion interval of a P code (R85). -/
def promotionOf (code : Nat) : Nat := if code = 0 then 64 else if code = 1 then 32 else if code = 2 then 128 else 256

/-- Cycles a row holds the promotion adders (Table ME-6). -/
def rowCost (cls p : Nat) : Nat := if cls = 0 && p = 32 then 2 else 1

/-- Does the MMA hold partial tiles (R85, Table ME-6)? -/
def needsPartial (cls p : Nat) : Bool := depthOf cls < p

/-- Bytes of one weight tile at depth `kt` (R78, R142). -/
def weightTileBytes (fmt kt : Nat) : Nat := 64 * rowBytes fmt kt

/-- Cycles to load one weight tile: L of R78. -/
def weightLoad (fmt kt : Nat) : Nat := (weightTileBytes fmt kt + 127) / 128

def ceilDiv (a b : Nat) : Nat := (a + b - 1) / b

/-- Cycles of R81 and the three parts the counters take: (total, busy, weight stall, promotion stall). -/
def mmaCycles (wFmt cls p m k : Nat) : Nat × Nat × Nat × Nat :=
  let kt := depthOf cls
  let l := weightLoad wFmt kt
  let b := ceilDiv k kt
  let r := rowCost cls p
  (l + (b - 1) * max (r * m) l + r * m + 80, b * m, (b - 1) * (l - r * m), (r - 1) * m * b)

/-- One run's products: exact values, those of the BF16 window truncated at 2^(E−66) (R82, R83).
Answers the run sum and whether a product was truncated. -/
def runSum (window : Bool) (ps : List (FV × FV)) : Dy × Bool :=
  let prods := ps.map fun (a, w) => (fvDy (fvMul a w), fvDy a, fvDy w)
  if !window then (dySum (prods.map (·.1)), false)
  else
    let live := prods.filter fun x => x.1.m != 0
    match live with
    | [] => (dyZero, false)
    | x :: t =>
      let ex (y : Dy × Dy × Dy) : Int := dyLog2 y.2.1 + dyLog2 y.2.2
      let top := t.foldl (fun a y => max a (ex y)) (ex x)
      let q := top - 66
      let cut (y : Dy × Dy × Dy) : Dy × Bool :=
        let r := roundAt .rtz 0 y.1.m.natAbs y.1.e q
        if q ≤ y.1.e then (y.1, false) else (⟨if y.1.m < 0 then -(r.1 : Int) else r.1, q⟩, r.2)
      let cs := live.map cut
      (dySum (cs.map (·.1)), cs.any (·.2))

/-- A group's partial sum: each run rounded at 22 bits and added in K order, the result rounded at 22 bits (R84). -/
def groupSum (window : Bool) (runs : List (List (FV × FV))) : Dy × Bool :=
  match runs with
  | [] => (dyZero, false)
  | r0 :: rs =>
    let a0 := runSum window r0
    let b0 := dyRound 22 a0.1
    rs.foldl (fun acc r =>
      let a := runSum window r
      let b := dyRound 22 a.1
      let c := dyRound 22 (dyAdd acc.1 b.1)
      (c.1, acc.2 || a.2 || b.2 || c.2)) (b0.1, a0.2 || b0.2)

/-- Promotion of a partial sum into the FP32 accumulator (R86). -/
def promote (acc : Nat) (g : Dy) : Nat × Flags :=
  let c := fpOut (dyFv false g)
  let s := fpAdd acc c.1
  (s.1, c.2 ||| s.2)

/-- What a finite chain of groups leaves in the accumulator. `corr` is the side-lanes' correction, added into the
last group's partial sum before it is promoted (R117). -/
def promoteAll (window : Bool) (corr : Option Dy) : List (List (List (FV × FV))) → Nat → Flags → Nat × Flags
  | [], acc, fl => (acc, fl)
  | [g], acc, fl =>
    let p := groupSum window g
    let p' : Dy × Bool := match corr with
      | none => (p.1, false)
      | some c => dyRound 22 (dyAdd p.1 c)
    let r := promote acc p'.1
    (r.1, fl ||| r.2 ||| (if p.2 || p'.2 then flagNX else 0))
  | g :: t, acc, fl =>
    let p := groupSum window g
    let r := promote acc p.1
    promoteAll window corr t r.1 (fl ||| r.2 ||| (if p.2 then flagNX else 0))

/-- Is a product of a pair NaN (R87)? -/
def productNan (p : FV × FV) : Bool := fvIsNan (fvMul p.1 p.2)

/-- Is a product an infinity of the given sign? -/
def productInf (neg : Bool) (p : FV × FV) : Bool :=
  match fvMul p.1 p.2 with
  | .inf n => n == neg
  | _ => false

/-- One output element of an MMA (R82 to R87): prior accumulator word, promotion interval, window, row and column. -/
def mmaElement (p : Nat) (window : Bool) (corr : Option FV) (prior : Nat) (row col : List FV) : Nat × Flags :=
  let ps := row.zip col
  let cNan := match corr with | some .nan => true | _ => false
  let cInf (n : Bool) := match corr with | some (.inf x) => x == n | _ => false
  let pos := ps.any (productInf false) || cInf false
  let neg := ps.any (productInf true) || cInf true
  if ps.any productNan || cNan || (pos && neg) then (0x7FC00000, flagNV)
  else if pos || neg then
    match fp prior with
    | .nan => (0x7FC00000, flagNV)
    | .inf x => if x == neg then (infCode fmtFP32 neg, 0) else (0x7FC00000, flagNV)
    | _ => (infCode fmtFP32 neg, 0)
  else
    let runs := chunk 16 (ceilDiv ps.length 16) ps
    let groups := chunk (p / 16) (ceilDiv runs.length (p / 16)) runs
    promoteAll window (corr.map fvDy) groups prior 0

/-- The words of a list of bytes, four at a time. -/
def wordsOf (bs : List Byte) : List Nat := (chunk 4 (bs.length / 4) bs).map leNat

/-- The rows of an MMA: each row's 64 outputs from its prior words and corrections. -/
def mmaRows (p : Nat) (window : Bool) (cols : List (List FV)) :
    List (List FV × List Nat × List (Option FV)) → List Byte × Flags
  | [] => ([], 0)
  | (row, prior, corr) :: t =>
    let es := (cols.zip (prior.zip corr)).map fun (c, q, x) => mmaElement p window x q row c
    let r := mmaRows p window cols t
    ((es.map fun e => leBytes 4 e.1).flatten ++ r.1, es.foldl (fun a e => a ||| e.2) r.2)

/-! ## Side-lanes (R116 to R119) -/

/-- The rank of a sidecar's RANK field. -/
def sidecarRank (c : Nat) : Nat := if c = 0 then 16 else if c = 1 then 32 else 64

/-- A value widened to BF16 on the side-lanes' path (R117 step 1). -/
def toBf16 (v : FV) : FV := decodeFloat fmtBF16 (widen fmtBF16 .rne 0 v).code

/-- A value widened to FP32. -/
def toFp32 (v : FV) : FV := fp (widen fmtFP32 .rne 0 v).code

/-- A sum in order, each term one fused multiply-add rounded to nearest even (R117, R91). -/
def fmaDot (init : Nat) (ps : List (FV × FV)) : Nat :=
  ps.foldl (fun acc x => (fpOut (fvAdd (fvMul x.1 x.2) (fp acc))).1) init

/-- The projection of one row: p = x·U, as FP32 words; `u` holds the r columns of U over K (R117 step 2). -/
def projRow (row : List FV) (u : List (List FV)) : List Nat :=
  let x := row.map toBf16
  u.map fun uc => fmaDot 0 (x.zip uc)

/-- The correction of one row: c = p·V for each of the 64 columns; `v` holds the columns of V over r (R117 step 3). -/
def corrRow (pw : List Nat) (v : List (List FV)) : List FV :=
  v.map fun vc => fp (fmaDot 0 ((pw.map fp).zip vc))

/-- S of R119. -/
def sideCycles (formed : Bool) (m k r : Nat) : Nat :=
  ceilDiv ((if formed then m * k * r else 0) + m * r * 64) 256 + 16

/-! ## The check unit (R120 to R124) -/

/-- Is output tile `t` selected (R120)? `n = 0` disables verification. -/
def tileSelected (random : Bool) (n seed t : Nat) : Bool :=
  if n = 0 then false
  else if random then (Nat.xor (t % 2 ^ 32) seed * 0x9E3779B1) % 2 ^ 32 < 2 ^ 32 / n
  else (t + seed) % n == 0

/-- The reference of one element and the sum of magnitudes beside it (R121). The prior contents of an accumulator that the MMA adds
to count as one more term (log entry 43). `side` is the sidecar's U and this element's column of V: with both masters U·V is
already part of `col`. -/
def refElement (prior : Nat) (row col : List FV) (side : Option (List (List FV) × List FV)) : Nat × Nat :=
  let ps := row.zip col
  let r := fmaDot prior ps
  let s := fmaDot (fpOut (fvAbs (fp prior))).1 (ps.map fun (a, w) => (fvAbs a, fvAbs w))
  match side with
  | none => (r, s)
  | some (u, vc) =>
    let p := u.map fun uc => fp (fmaDot 0 (row.zip uc))
    let q := u.map fun uc => fp (fmaDot 0 ((row.zip uc).map fun (a, w) => (fvAbs a, fvAbs w)))
    (fmaDot r (p.zip vc), fmaDot s (q.zip (vc.map fvAbs)))

/-- The square of an exact number. -/
def dySq (d : Dy) : Dy := dyMul d d

/-- What the norms of a tile are made of (R122): (Σ(Y−R)², ΣR², ΣS², a miss by a value that is not finite, Y all zero). -/
structure Norms where
  diff : Dy
  ref : Dy
  mag : Dy
  bad : Bool
  yZero : Bool
  deriving DecidableEq, Repr

/-- The norms over the elements of a tile: engine words, reference words, magnitude words. -/
def normsOf : List (Nat × Nat × Nat) → Norms
  | [] => ⟨dyZero, dyZero, dyZero, false, true⟩
  | (y, r, m) :: t =>
    let n := normsOf t
    let yz := n.yZero && fvIsZero (fp y)
    match fp y, fp r with
    | .nan, .nan => ⟨n.diff, n.ref, n.mag, n.bad, false⟩
    | .inf a, .inf b =>
      if a == b then ⟨n.diff, n.ref, n.mag, n.bad, false⟩ else ⟨n.diff, n.ref, n.mag, true, false⟩
    | .fin ny my ey, .fin nr mr er =>
      let dy := fvDy (.fin ny my ey)
      let dr := fvDy (.fin nr mr er)
      ⟨dyAdd n.diff (dySq (dySub dy dr)), dyAdd n.ref (dySq dr), dyAdd n.mag (dySq (fvDy (fp m))), n.bad, yz⟩
    | _, _ => ⟨n.diff, n.ref, n.mag, true, false⟩

/-- Is the tile a miss against tolerance `tol`, a BF16 code (R122)? -/
def tileMisses (tol : Nat) (n : Norms) : Bool :=
  let t := fvDy (decodeFloat fmtBF16 tol)
  if t.m = 0 then false
  else if t.m < 0 then true
  else if n.bad then true
  else if n.ref.m = 0 then !n.yZero
  else dyLt (dyMul (dySq t) n.ref) n.diff

/-- γ of R123 in units of 2⁻²⁴. -/
def gammaUnits (k p : Nat) : Nat := ceilDiv k 16 * 4 + ceilDiv k p * 2 + (k + 64)

/-- Does the tile fail the arithmetic test (R123)? -/
def failsArithmetic (k p : Nat) (n : Norms) : Bool :=
  n.bad || dyLt (dyMul ⟨(4 * gammaUnits k p ^ 2 : Nat), -48⟩ n.mag) n.diff

end Sys2Proof.Machine
end

