-- ==== Sys2Proof/Machine/InstrCore.lean ====
section
/-! DEFINITION. The core a tile instruction's command names. -/

namespace Sys2Proof

/-- The core of a tile instruction; none for every other command. -/
def Instr.coreOf : Instr → Option Nat
  | .load core _ => some core
  | .store core _ => some core
  | .mma core _ => some core
  | .conv core _ => some core
  | .convExpanded core _ => some core
  | .maxPool core _ => some core
  | .averagePool core _ => some core
  | .copy core _ => some core
  | .add core _ => some core
  | .sub core _ => some core
  | .mul core _ => some core
  | .axpy core _ => some core
  | .max core _ => some core
  | .min core _ => some core
  | .scale core _ => some core
  | .mulRow core _ => some core
  | .addRow core _ => some core
  | .mulCol core _ => some core
  | .addCol core _ => some core
  | .rowsum core _ => some core
  | .rowmax core _ => some core
  | .rowstat core _ => some core
  | .norm core _ => some core
  | .softmax core _ => some core
  | .softmaxLse core _ => some core
  | .exp core _ => some core
  | .log core _ => some core
  | .recip core _ => some core
  | .rsqrt core _ => some core
  | .sigmoid core _ => some core
  | .tanh core _ => some core
  | .gelu core _ => some core
  | .silu core _ => some core
  | .sin core _ => some core
  | .cos core _ => some core
  | .sincosPos core _ => some core
  | .attnScanForward core _ => some core
  | .attnScanBackward core _ => some core
  | .haloPut core _ => some core
  | .haloWait core _ => some core
  | .allReduce core _ => some core
  | .reduceScatter core _ => some core
  | .allGather core _ => some core
  | .allToAll core _ => some core
  | .broadcast core _ => some core
  | .arrive core _ => some core
  | .wait core _ => some core
  | .arriveWait core _ => some core
  | .fence core _ => some core
  | .check core _ => some core
  | .endProgram core _ => some core
  | _ => none

end Sys2Proof
end

