-- ==== Sys2Proof/Machine/Codes.lean ====
section
/-! DEFINITION. The status codes of Table EX-8 (R72). -/

namespace Sys2Proof.Machine

namespace Code

abbrev OK : Nat := 0x0000
abbrev OK_ABORT_LATE : Nat := 0x0001
abbrev OK_ESCALATED : Nat := 0x0002
abbrev OK_EMPTY : Nat := 0x0003
abbrev QUEUE_FULL : Nat := 0x0101
abbrev ABORTED : Nat := 0x0102
abbrev CONTEXT_TORN_DOWN : Nat := 0x0103
abbrev RESOURCE_OVERFLOW : Nat := 0x0104
abbrev LULL_LATE : Nat := 0x0105
abbrev MODEL_MISMATCH : Nat := 0x0106
abbrev NO_IMAGE : Nat := 0x0107
abbrev JOB_TOO_WIDE : Nat := 0x0108
abbrev CONTEXT_LIMIT : Nat := 0x0109
abbrev CONTEXT_CLOSED : Nat := 0x010A
abbrev DEVICE_NOT_READY : Nat := 0x010B
abbrev BAD_JOB : Nat := 0x010C
abbrev ILLEGAL_INSTRUCTION : Nat := 0x010D
abbrev BAD_PROGRAM : Nat := 0x010E
abbrev SYNC_GROUP_BAD : Nat := 0x010F
abbrev RING_NOT_SET : Nat := 0x0110
abbrev BUF_STALE : Nat := 0x0201
abbrev BUF_NOT_OWNER : Nat := 0x0202
abbrev QUOTA_EXCEEDED : Nat := 0x0203
abbrev EVICT_DEFERRED : Nat := 0x0204
abbrev TIER_LATE : Nat := 0x0205
abbrev TIER_FAILED : Nat := 0x0206
abbrev WEIGHT_LOST : Nat := 0x0207
abbrev PAGE_POISONED : Nat := 0x0208
abbrev KV_REF_UNDERFLOW : Nat := 0x0209
abbrev KV_PAGE_LOST : Nat := 0x020A
abbrev KV_LIST_BAD : Nat := 0x020B
abbrev KV_PORT_FAULT : Nat := 0x020C
abbrev KV_COMMAND_BAD : Nat := 0x020D
abbrev KV_TABLE_FULL : Nat := 0x020E
abbrev KV_REF_SATURATED : Nat := 0x020F
abbrev KV_PAGE_STATE : Nat := 0x0210
abbrev ECC_UNCORRECTABLE : Nat := 0x0211
abbrev REGION_LOST : Nat := 0x0212
abbrev HBM_THERMAL : Nat := 0x0213
abbrev TIER_FULL : Nat := 0x0214
abbrev TIER_COMMAND_BAD : Nat := 0x0215
abbrev FLASH_ALLOWANCE : Nat := 0x0216
abbrev MAP_FAULT : Nat := 0x0217
abbrev LINK_DOWN : Nat := 0x0301
abbrev PEER_UNREACHABLE : Nat := 0x0302
abbrev REDUCTION_UNAVAILABLE : Nat := 0x0303
abbrev SAFFRON_CONTRACT : Nat := 0x0304
abbrev ISLAND_DOWN : Nat := 0x0305
abbrev LINK_VERSION : Nat := 0x0306
abbrev LANE_SWAP : Nat := 0x0307
abbrev LINK_DEGRADED : Nat := 0x0308
abbrev ROUTE_INVALID : Nat := 0x0309
abbrev COLL_MISMATCH : Nat := 0x030A
abbrev GUARD_MISMATCH_HW : Nat := 0x0401
abbrev ESCALATION_EXHAUSTED : Nat := 0x0402
abbrev SOFTMAX_RANGE : Nat := 0x0403
abbrev GUARD_TABLE_BAD : Nat := 0x0404
abbrev IMAGE_SIGNATURE : Nat := 0x0501
abbrev IMAGE_PROFILE_MISMATCH : Nat := 0x0502
abbrev IMAGE_NOT_AT_LULL : Nat := 0x0503
abbrev SPARE_EXHAUSTED : Nat := 0x0504
abbrev IMAGE_FORMAT : Nat := 0x0505
abbrev IMAGE_ROLLBACK : Nat := 0x0506
abbrev IMAGE_SECTION : Nat := 0x0507
abbrev IMAGE_BASE_MISMATCH : Nat := 0x0508
abbrev IMAGE_CORE_MAP : Nat := 0x0509
abbrev IMAGE_RANGE : Nat := 0x050A
abbrev IMAGE_BUSY : Nat := 0x050B
abbrev IMAGE_CANCELLED : Nat := 0x050C
abbrev CORE_RETIRED : Nat := 0x0601
abbrev STEP_REPLAY : Nat := 0x0602
abbrev DEVICE_DEGRADED : Nat := 0x0603
abbrev DEVICE_RETIRE : Nat := 0x0604
abbrev CORE_FAILED : Nat := 0x0605
abbrev SPARE_SWAP : Nat := 0x0606
abbrev AGING_WARN : Nat := 0x0607
abbrev UNDO_FULL : Nat := 0x0608
abbrev BANK_GROUP_BAD : Nat := 0x0609
abbrev BANK_STALLED : Nat := 0x060A
abbrev STRIPE_MISMATCH : Nat := 0x060B
abbrev REBUILD_DONE : Nat := 0x060C
abbrev REBUILD_FAILED : Nat := 0x060D
abbrev REPLAY_REFUSED : Nat := 0x060E
abbrev BANK_REFUSED : Nat := 0x060F
abbrev INPUT_RANGE : Nat := 0x0610
abbrev QUIESCE_TIMEOUT : Nat := 0x0611
abbrev CAL_STALE : Nat := 0x0612
abbrev THERMAL_TRIP : Nat := 0x0613
abbrev THERMAL_WARN : Nat := 0x0614
abbrev DOMAIN_OFF : Nat := 0x0701
abbrev CHANNEL_BUSY : Nat := 0x0702
abbrev BAD_NOTICE : Nat := 0x0703
abbrev HOST_STALL_SUSPENDED : Nat := 0x0704
abbrev HOST_LINK_EPOCH : Nat := 0x0705
abbrev HOST_LINK_NARROW : Nat := 0x0706
abbrev STREAM_DAMAGED : Nat := 0x0801
abbrev DIM_LIMIT : Nat := 0x0802
abbrev UNSUPPORTED_TOOL : Nat := 0x0803
abbrev RATE_EMERGENCY : Nat := 0x0804
abbrev VIDEO_ENGINE_FAILED : Nat := 0x0805
abbrev VIDEO_BUSY : Nat := 0x0806
abbrev VIDEO_COMMAND_BAD : Nat := 0x0807
abbrev VIDEO_ROWS_MISSING : Nat := 0x0808
abbrev NOT_AUTHORIZED : Nat := 0x0901
abbrev SECURE_ONLY : Nat := 0x0902
abbrev FW_FORMAT : Nat := 0x0903
abbrev FW_SIGNATURE : Nat := 0x0904
abbrev FW_ROLLBACK : Nat := 0x0905
abbrev BOOT_SLOT_FAILED : Nat := 0x0906
abbrev TOKEN_INVALID : Nat := 0x0907
abbrev TOKEN_EXPIRED : Nat := 0x0908
abbrev ENROL_REFUSED : Nat := 0x0909

end Code

/-- Does a code report success (R12)? -/
def isSuccess (c : Nat) : Bool := c / 256 == 0

end Sys2Proof.Machine
end

