-- ==== Sys2Proof/Config.lean ====
section
/-! DEFINITION. What one implementation fixes and this manual leaves open: opaque constants with no body. Nothing in Lean can
evaluate one, so a statement about the block holds for every value of each. -/

namespace Sys2Proof

/-- The FP32 word a special function delivers, before the bound of Table VEC-3 is applied: function code and input word
(R169: each function is one fixed algorithm). Log entry 3. -/
opaque Config.sfuWord : Nat → Nat → Nat

/-- The same for one output of SINCOS_POS: which output (0 cosine, 1 sine) and the 64-bit phase (R171). Log entry 3. -/
opaque Config.sincosWord : Nat → Nat → Nat

/-- The extended-format code of an exponential, by the code of its argument (R166, R168). Log entry 4. -/
opaque Config.extExp : Nat → Nat

/-- The extended-format code of a logarithm, by the code of its argument (R168). Log entry 4. -/
opaque Config.extLn : Nat → Nat

/-- A fresh byte for a value the manual leaves open: the counter `State.free` says which reading it is. Log entry 5. -/
opaque Config.freeByte : Nat → BitVec 8

/-- A fresh natural number for a value or a choice the manual leaves open, by the counter `State.free`. Log entry 5. -/
opaque Config.freeNat : Nat → Nat

/-- The frame on which a stack's page map places one 2 MiB stack page, by stack and HBM page (R209 step 3). Log entry 8. -/
opaque Config.frameOf : Nat → Nat → Nat

/-- The group rank at which the ring of a fallback all-reduce starts its first segment (R280 leaves it open). Log entry 57. -/
opaque Config.ringStart : Nat

/-- The identifier that SYNC frames of the bank barrier carry (R302 gives the barrier no identifier). Log entry 84. -/
opaque Config.bankIdent : Nat

/-- MiB of a flash block (Table TIR-8 gives no size). Log entry 70. -/
opaque Config.flashBlockMiB : Nat

/-- The device's unique 128-bit UID in its fuses (R378, GET_INFO). Log entry 71. -/
opaque Config.fuseUid : BitVec 128

/-- A byte of the 256 that GET_INFO writes, by UID, VERSION, GLB_FW_SECURITY, SIL_ROLLBACK, the slots booted and GLB_BOOT_STATUS:
R396 gives their contents and not their layout. Log entry 117. -/
opaque Config.infoByte : Nat → Nat → Nat → Nat → Nat → Nat → Nat → BitVec 8

/-- The certificate chain of slot 0, by the running bundle (R384, R393). Log entry 118. -/
opaque Config.certChain : List (BitVec 8) → List (BitVec 8)

/-- A measurement of a block by its index and what it measures (R393). Log entry 118. -/
opaque Config.measurement : Nat → List (BitVec 8) → List (BitVec 8)

/-- The 64-byte unit of device memory that lies at a raw unit of a pseudo-channel, by channel and raw unit (R219). Log entry 79. -/
opaque Config.rawUnit : Nat → Nat → Nat

/-- The 64-byte data of the traffic generator's patterns 0 to 2, by pattern, seed and unit (Table MEM-9). Log entry 79. -/
opaque Config.tgPattern : Nat → Nat → Nat → Nat

/-- What a decode engine makes of a unit. The manual names the standards the streams follow, not their algorithms (R320 to R322). -/
structure DecodeOut where
  /-- A feature Table VID-5 does not support. -/
  unsupported : Bool
  /-- A new sequence header: frame width and height, and sps_max_dec_pic_buffering_minus1 for HEVC. -/
  header : Option (Nat × Nat × Nat)
  /-- Damaged: byte offset within the unit, and bytes already written of the picture. -/
  damaged : Option (Nat × Nat)
  /-- The stream's state and the pool bytes written, by offset. -/
  state : Nat → BitVec 8
  pool : List (Nat × List (BitVec 8))
  /-- The picture due: decode index, width, height and bytes. -/
  picture : Option (Nat × Nat × Nat × (Nat → BitVec 8))
  deriving Inhabited

/-- A unit decoded: the stream's descriptor, STATE, pool, and the unit's bytes (none: a flush). The same inputs give the same outcome
on every engine (R318). Log entry 96. -/
opaque Config.decodeUnit : List (BitVec 8) → List (BitVec 8) → List (BitVec 8) → List (BitVec 8) → DecodeOut

/-- The headers of a picture: descriptor, STATE, picture index, KEY. Log entry 96. -/
opaque Config.encodeHeaders : List (BitVec 8) → List (BitVec 8) → Nat → Bool → List (BitVec 8)

/-- A slice or tile group: its bytes, and whether it holds emergency blocks (R325). -/
structure SliceOut where
  bytes : List (BitVec 8)
  emergency : Bool
  deriving Inhabited

/-- A slice coded: descriptor, STATE, pool, the picture's bands so far, picture index, KEY, slice index. Log entry 96. -/
opaque Config.encodeSlice : List (BitVec 8) → List (BitVec 8) → List (BitVec 8) → List (List (BitVec 8)) → Nat → Bool → Nat → SliceOut

/-- STATE and the pool bytes written after a picture. -/
structure PictureOut where
  state : Nat → BitVec 8
  pool : List (Nat × List (BitVec 8))
  deriving Inhabited

/-- A picture's end, by descriptor, STATE, pool, bands, picture index, KEY. Log entry 96. -/
opaque Config.encodeEnd : List (BitVec 8) → List (BitVec 8) → List (BitVec 8) → List (List (BitVec 8)) → Nat → Bool → PictureOut

/-- The first sequence header of a sample: coded width and height, and whether Table VID-5 supports it. -/
structure SampleHead where
  width : Nat
  height : Nat
  supported : Bool
  deriving Inhabited

/-- The header read of a sample, by codec and bytes (R328). Log entry 96. -/
opaque Config.sampleHead : Nat → List (BitVec 8) → SampleHead

/-- A sample put through R329: whether it is damaged or ends early, the bytes of its tokens, and the stream's STATE after it. -/
structure SampleOut where
  damaged : Bool
  tokens : Nat → BitVec 8
  state : Nat → BitVec 8
  deriving Inhabited

/-- A sample's outcome, by stream descriptor, sample descriptor and bytes. Log entry 96. -/
opaque Config.ingestSample : List (BitVec 8) → List (BitVec 8) → List (BitVec 8) → SampleOut

end Sys2Proof
end

