-- ==== Sys2Proof/Machine/Fields.lean ====
section
/-! DEFINITION. Names for register fields, registers and _LO/_HI pairs, with their places in BAR0 (the register tables of each
chapter, as Machine/RegMap.lean holds them). `F.` a field, `R.` a register, `P.` a pair by its _LO offset. -/

namespace Sys2Proof.Machine

/-- A field: offset of its register in BAR0, top bit, low bit. -/
structure Fld where
  off : Nat
  hi : Nat
  lo : Nat
  deriving DecidableEq, Repr

namespace F

def GLB_STEPPING_STEPPING : Fld := ⟨0x4, 7, 0⟩
def GLB_PROFILE_ACTIVE_CORES : Fld := ⟨0x10, 10, 0⟩
def GLB_PROFILE_DEGRADED : Fld := ⟨0x10, 11, 11⟩
def GLB_PROFILE_RETIRE : Fld := ⟨0x10, 12, 12⟩
def GLB_RESOURCES_ACTIVE_PORTS : Fld := ⟨0x14, 5, 0⟩
def GLB_RESOURCES_ACTIVE_DECODE : Fld := ⟨0x14, 9, 6⟩
def GLB_RESOURCES_ACTIVE_ENCODE : Fld := ⟨0x14, 12, 10⟩
def GLB_HBM_PAGES_ALLOC_PAGES : Fld := ⟨0x18, 19, 0⟩
def GLB_HOST_LINK_GEN : Fld := ⟨0x40, 2, 0⟩
def GLB_HOST_LINK_WIDTH : Fld := ⟨0x40, 7, 3⟩
def GLB_HOST_LINK_FLIT : Fld := ⟨0x40, 8, 8⟩
def GLB_HOST_LINK_BUS_MASTER : Fld := ⟨0x40, 9, 9⟩
def GLB_HOST_LINK_MSIX_ENABLED : Fld := ⟨0x40, 10, 10⟩
def GLB_HOST_LINK_VCS : Fld := ⟨0x40, 12, 11⟩
def GLB_HOST_EPOCH_VALUE : Fld := ⟨0x44, 31, 0⟩
def GLB_DMA_STALL_TIMEOUT_MS : Fld := ⟨0x48, 13, 0⟩
def GLB_DMA_SUSP_SUSPENDED (n : Nat) : Fld := ⟨0x50 + 0x10 * n, 0, 0⟩
def GLB_DMA_SUSP_CONTEXT (n : Nat) : Fld := ⟨0x50 + 0x10 * n, 8, 1⟩
def GLB_DMA_SUSP_CONTEXT_VALID (n : Nat) : Fld := ⟨0x50 + 0x10 * n, 9, 9⟩
def GLB_DMA_SUSP_BYTES_VALUE (n : Nat) : Fld := ⟨0x54 + 0x10 * n, 31, 0⟩
def GLB_DMA_RECORDS_LOST_COUNT : Fld := ⟨0x80, 31, 0⟩
def GLB_ACCESS_DENIED_COUNT : Fld := ⟨0x84, 31, 0⟩
def GLB_ACCESS_LAST_CODE : Fld := ⟨0x88, 15, 0⟩
def GLB_ACCESS_LAST_ADDR_OFFSET : Fld := ⟨0x8C, 25, 0⟩
def GLB_BAR4_REFUSED_COUNT : Fld := ⟨0x98, 31, 0⟩
def GLB_BOOT_STATUS_FW_SLOT : Fld := ⟨0x100, 0, 0⟩
def GLB_BOOT_STATUS_FELL_BACK : Fld := ⟨0x100, 1, 1⟩
def GLB_BOOT_STATUS_IMAGE_SLOT : Fld := ⟨0x100, 2, 2⟩
def GLB_BOOT_STATUS_AUTO_START : Fld := ⟨0x100, 3, 3⟩
def GLB_BOOT_STATUS_STAGE : Fld := ⟨0x100, 11, 8⟩
def GLB_BOOT_STATUS_LAST_CODE : Fld := ⟨0x100, 31, 16⟩
def GLB_FW_VERSION_VALUE : Fld := ⟨0x104, 31, 0⟩
def GLB_FW_SECURITY_VALUE : Fld := ⟨0x108, 31, 0⟩
def GLB_BOOT_TIME_MS : Fld := ⟨0x10C, 23, 0⟩
def GLB_OWNER_SLOTS_ENROLLED : Fld := ⟨0x120, 4, 1⟩
def GLB_OWNER_SLOTS_REVOKED : Fld := ⟨0x120, 11, 8⟩
def GLB_FW_STAGED_STATE : Fld := ⟨0x128, 1, 0⟩
def GLB_FW_STAGED_LAST_CODE : Fld := ⟨0x128, 31, 16⟩
def SIL_CONTROL_SOURCE : Fld := ⟨0x100000, 3, 2⟩
def SIL_CONTROL_WAIT : Fld := ⟨0x100000, 4, 4⟩
def SIL_STATUS_STATE : Fld := ⟨0x100004, 2, 0⟩
def SIL_STATUS_IMAGE_VALID : Fld := ⟨0x100004, 3, 3⟩
def SIL_STATUS_LOCKED : Fld := ⟨0x100004, 4, 4⟩
def SIL_STATUS_PROFILE_EXCEEDED : Fld := ⟨0x100004, 5, 5⟩
def SIL_STATUS_DONE : Fld := ⟨0x100004, 6, 6⟩
def SIL_STATUS_LAST_CODE : Fld := ⟨0x100004, 31, 16⟩
def SIL_FAIL_DETAIL_CHECK : Fld := ⟨0x100008, 3, 0⟩
def SIL_FAIL_DETAIL_SECTION : Fld := ⟨0x100008, 9, 4⟩
def SIL_FAIL_DETAIL_ENTRY : Fld := ⟨0x100008, 31, 10⟩
def SIL_LENGTH_LENGTH : Fld := ⟨0x100018, 24, 0⟩
def SIL_PATCH_COUNT_VALUE : Fld := ⟨0x100030, 31, 0⟩
def SIL_ROLLBACK_VALUE : Fld := ⟨0x100034, 31, 0⟩
def MBN_REQ_LEN_VALUE (n : Nat) : Fld := ⟨0x200008 + 0x1000 * n, 24, 0⟩
def MBN_REQ_OP_OPCODE (n : Nat) : Fld := ⟨0x20000C + 0x1000 * n, 15, 0⟩
def MBN_TGT_LEN_VALUE (n : Nat) : Fld := ⟨0x200028 + 0x1000 * n, 24, 0⟩
def MBN_TGT_OP_OPCODE (n : Nat) : Fld := ⟨0x20002C + 0x1000 * n, 15, 0⟩
def MBN_TGT_OP_SEQ (n : Nat) : Fld := ⟨0x20002C + 0x1000 * n, 31, 16⟩
def MBN_ACK_CODE (n : Nat) : Fld := ⟨0x280004 + 0x10 * n, 15, 0⟩
def MBN_ACK_SEQ (n : Nat) : Fld := ⟨0x280004 + 0x10 * n, 31, 16⟩
def MBN_ACK_STATE_STATE (n : Nat) : Fld := ⟨0x280008 + 0x10 * n, 1, 0⟩
def MBN_ACK_STATE_DOMAIN_OFF (n : Nat) : Fld := ⟨0x280008 + 0x10 * n, 2, 2⟩
def MBN_ACK_STATE_BUSY (n : Nat) : Fld := ⟨0x280008 + 0x10 * n, 3, 3⟩
def MBN_ACK_STATE_TGT_POSTED (n : Nat) : Fld := ⟨0x280008 + 0x10 * n, 4, 4⟩
def MBN_ACK_STATE_EPOCH (n : Nat) : Fld := ⟨0x280008 + 0x10 * n, 31, 16⟩
def MBS_REQ_LEN_VALUE (n : Nat) : Fld := ⟨0x300008 + 0x1000 * n, 24, 0⟩
def MBS_REQ_OP_OPCODE (n : Nat) : Fld := ⟨0x30000C + 0x1000 * n, 15, 0⟩
def MBS_TGT_LEN_VALUE (n : Nat) : Fld := ⟨0x300028 + 0x1000 * n, 24, 0⟩
def MBS_TGT_OP_OPCODE (n : Nat) : Fld := ⟨0x30002C + 0x1000 * n, 15, 0⟩
def MBS_TGT_OP_SEQ (n : Nat) : Fld := ⟨0x30002C + 0x1000 * n, 31, 16⟩
def MBS_ACK_CODE (n : Nat) : Fld := ⟨0x380004 + 0x10 * n, 15, 0⟩
def MBS_ACK_SEQ (n : Nat) : Fld := ⟨0x380004 + 0x10 * n, 31, 16⟩
def MBS_ACK_STATE_STATE (n : Nat) : Fld := ⟨0x380008 + 0x10 * n, 1, 0⟩
def MBS_ACK_STATE_DOMAIN_OFF (n : Nat) : Fld := ⟨0x380008 + 0x10 * n, 2, 2⟩
def MBS_ACK_STATE_BUSY (n : Nat) : Fld := ⟨0x380008 + 0x10 * n, 3, 3⟩
def MBS_ACK_STATE_TGT_POSTED (n : Nat) : Fld := ⟨0x380008 + 0x10 * n, 4, 4⟩
def MBS_ACK_STATE_EPOCH (n : Nat) : Fld := ⟨0x380008 + 0x10 * n, 31, 16⟩
def IRQ_SRC_TARGETS (n : Nat) : Fld := ⟨0x400000 + 0x4 * n, 6, 0⟩
def IRQ_SRC_VECTOR (n : Nat) : Fld := ⟨0x400000 + 0x4 * n, 12, 7⟩
def IRQ_SRC_MASK (n : Nat) : Fld := ⟨0x400000 + 0x4 * n, 13, 13⟩
def IRQ_SRC_PENDING (n : Nat) : Fld := ⟨0x400000 + 0x4 * n, 20, 14⟩
def IRQ_SRC_ACTIVE (n : Nat) : Fld := ⟨0x400000 + 0x4 * n, 27, 21⟩
def IRQ_TGT_ACTIVE_SOURCE (n : Nat) : Fld := ⟨0x400400 + 0x4 * n, 7, 0⟩
def IRQ_TGT_ACTIVE_VALID (n : Nat) : Fld := ⟨0x400400 + 0x4 * n, 8, 8⟩
def IRQ_HOST_VEC_SOURCE (n : Nat) : Fld := ⟨0x400500 + 0x4 * n, 7, 0⟩
def IRQ_HOST_VEC_OUTSTANDING (n : Nat) : Fld := ⟨0x400500 + 0x4 * n, 8, 8⟩
def IRQ_MASK_LATE_COUNT : Fld := ⟨0x400604, 31, 0⟩
def JOB_DEVICE_STATE_STATE : Fld := ⟨0x800000, 2, 0⟩
def JOB_DEVICE_STATE_FULL_LULL : Fld := ⟨0x800000, 3, 3⟩
def JOB_DEVICE_STATE_HOLD_PENDING : Fld := ⟨0x800000, 4, 4⟩
def JOB_DEVICE_STATE_FREE_CORES : Fld := ⟨0x800000, 15, 5⟩
def JOB_DEVICE_STATE_FAULT_CODE : Fld := ⟨0x800000, 31, 16⟩
def JOB_LULL_WATCHDOG_TIMEOUT_US : Fld := ⟨0x800004, 23, 0⟩
def JOB_LATE_UNIT_CONTEXT : Fld := ⟨0x800008, 7, 0⟩
def JOB_LATE_UNIT_VALUE : Fld := ⟨0x800008, 31, 16⟩
def JOB_CTX_CREATE_RESULT_CONTEXT : Fld := ⟨0x800014, 7, 0⟩
def JOB_CTX_CREATE_RESULT_VALUE : Fld := ⟨0x800014, 31, 16⟩
def JOB_GUARD_DEFAULTS_DEFAULT_N : Fld := ⟨0x800040, 10, 0⟩
def JOB_GUARD_DEFAULTS_DEFAULT_TOL : Fld := ⟨0x800040, 31, 16⟩
def JOB_GUARD_HW_COUNT_COUNT : Fld := ⟨0x800048, 31, 0⟩
def JOB_GUARD_DEFAULT_K_K : Fld := ⟨0x80004C, 7, 0⟩
def JOB_CTX_STATE_STATE (n : Nat) : Fld := ⟨0x810000 + 0x100 * n, 2, 0⟩
def JOB_CTX_STATE_TEMPLATE (n : Nat) : Fld := ⟨0x810000 + 0x100 * n, 8, 3⟩
def JOB_CTX_STATE_CLASS (n : Nat) : Fld := ⟨0x810000 + 0x100 * n, 9, 9⟩
def JOB_CTX_STATE_LAST_FAULT (n : Nat) : Fld := ⟨0x810000 + 0x100 * n, 31, 16⟩
def JOB_CTX_RING_TAIL_VALUE (n : Nat) : Fld := ⟨0x810010 + 0x100 * n, 31, 0⟩
def JOB_CTX_RING_HEAD_VALUE (n : Nat) : Fld := ⟨0x810014 + 0x100 * n, 31, 0⟩
def JOB_CTX_LULL_RING_SIZE_LULL_RING_SIZE (n : Nat) : Fld := ⟨0x810020 + 0x100 * n, 4, 0⟩
def JOB_CTX_SUBMIT_RESULT_STATUS (n : Nat) : Fld := ⟨0x810030 + 0x100 * n, 15, 0⟩
def JOB_CTX_SUBMIT_JOB_VALUE (n : Nat) : Fld := ⟨0x810034 + 0x100 * n, 31, 0⟩
def JOB_CTX_ABORT_RESULT_RESULT (n : Nat) : Fld := ⟨0x81003C + 0x100 * n, 1, 0⟩
def JOB_CTX_SUBMITTED_COUNT (n : Nat) : Fld := ⟨0x810040 + 0x100 * n, 31, 0⟩
def JOB_CTX_COMPLETED_COUNT (n : Nat) : Fld := ⟨0x810044 + 0x100 * n, 31, 0⟩
def JOB_CTX_REFUSED_COUNT (n : Nat) : Fld := ⟨0x810048 + 0x100 * n, 31, 0⟩
def JOB_CTX_ABORTED_COUNT (n : Nat) : Fld := ⟨0x81004C + 0x100 * n, 31, 0⟩
def JOB_CTX_FAULTED_COUNT (n : Nat) : Fld := ⟨0x810050 + 0x100 * n, 31, 0⟩
def JOB_CTX_KV_RESULT_STATUS (n : Nat) : Fld := ⟨0x810080 + 0x100 * n, 15, 0⟩
def JOB_CTX_KV_FAULT_CELL (n : Nat) : Fld := ⟨0x810088 + 0x100 * n, 9, 0⟩
def JOB_CTX_KV_FAULT_OP (n : Nat) : Fld := ⟨0x810088 + 0x100 * n, 12, 10⟩
def JOB_CTX_KV_FAULT_CODE (n : Nat) : Fld := ⟨0x810088 + 0x100 * n, 31, 16⟩
def JOB_CTX_TIER_RESULT_STATUS (n : Nat) : Fld := ⟨0x8100B8 + 0x100 * n, 15, 0⟩
def JOB_CTX_TIER_LAST_CODE (n : Nat) : Fld := ⟨0x8100C4 + 0x100 * n, 15, 0⟩
def JOB_CTX_TIER_LAST_CELL (n : Nat) : Fld := ⟨0x8100C4 + 0x100 * n, 25, 16⟩
def JOB_CTX_COLL_FALLBACK_COUNT (n : Nat) : Fld := ⟨0x8100E8 + 0x100 * n, 31, 0⟩
def JOB_CTX_SYNC_OBJECTS_COUNT (n : Nat) : Fld := ⟨0x8100EC + 0x100 * n, 12, 0⟩
def JOB_CORE_STATUS_STATE (n : Nat) : Fld := ⟨0x900000 + 0x100 * n, 2, 0⟩
def JOB_CORE_STATUS_LOGICAL (n : Nat) : Fld := ⟨0x900000 + 0x100 * n, 14, 4⟩
def JOB_CORE_STATUS_CONTEXT (n : Nat) : Fld := ⟨0x900000 + 0x100 * n, 23, 16⟩
def JOB_CORE_FLAGS_MATRIX (n : Nat) : Fld := ⟨0x900004 + 0x100 * n, 3, 0⟩
def JOB_CORE_FLAGS_VECTOR (n : Nat) : Fld := ⟨0x900004 + 0x100 * n, 7, 4⟩
def JOB_CORE_FLAGS_SFU (n : Nat) : Fld := ⟨0x900004 + 0x100 * n, 11, 8⟩
def JOB_CORE_LFSR_STATE (n : Nat) : Fld := ⟨0x900028 + 0x100 * n, 31, 0⟩
def JOB_CORE_PROGRAM_NEXT (n : Nat) : Fld := ⟨0x90002C + 0x100 * n, 15, 0⟩
def JOB_CORE_PROGRAM_RANK (n : Nat) : Fld := ⟨0x90002C + 0x100 * n, 31, 16⟩
def JOB_CORE_GUARD_CHECKS_COUNT (n : Nat) : Fld := ⟨0x900030 + 0x100 * n, 31, 0⟩
def JOB_CORE_GUARD_MISSES_COUNT (n : Nat) : Fld := ⟨0x900034 + 0x100 * n, 31, 0⟩
def JOB_CORE_GUARD_DROPPED_COUNT (n : Nat) : Fld := ⟨0x900038 + 0x100 * n, 31, 0⟩
def JOB_CORE_CONV_PADDED_COUNT (n : Nat) : Fld := ⟨0x900050 + 0x100 * n, 31, 0⟩
def JOB_CORE_CONV_EMPTY_COUNT (n : Nat) : Fld := ⟨0x900054 + 0x100 * n, 31, 0⟩
def JOB_CORE_SOFTMAX_RANGE_COUNT (n : Nat) : Fld := ⟨0x900058 + 0x100 * n, 31, 0⟩
def REL_LOG_SEQ_COUNT : Fld := ⟨0x1000000, 31, 0⟩
def REL_LOG_RING_SIZE_SIZE : Fld := ⟨0x100000C, 4, 0⟩
def REL_AGING_THRESHOLD_VALUE : Fld := ⟨0x1000010, 7, 0⟩
def REL_UNDO_CONFIG_PARTITION : Fld := ⟨0x1000014, 3, 0⟩
def REL_UNDO_CONFIG_ENABLE : Fld := ⟨0x1000014, 4, 4⟩
def REL_UNDO_CONFIG_PAGES : Fld := ⟨0x1000014, 27, 8⟩
def REL_UNDO_USED_PAGES : Fld := ⟨0x1000018, 19, 0⟩
def REL_STRIPE_STATUS_STATE : Fld := ⟨0x100001C, 1, 0⟩
def REL_REBUILD_STATUS_STATE : Fld := ⟨0x1000024, 1, 0⟩
def REL_REBUILD_STATUS_LAST_CODE : Fld := ⟨0x1000024, 31, 16⟩
def REL_REPLAY_RESULT_CODE : Fld := ⟨0x1000038, 15, 0⟩
def REL_REPLAY_DROPPED_COUNT : Fld := ⟨0x1000040, 31, 0⟩
def REL_BANK_REFUSED_COUNT : Fld := ⟨0x1000044, 31, 0⟩
def REL_LEDGER_TOTAL_COUNT (n : Nat) : Fld := ⟨0x1000100 + 0x20 * n, 31, 0⟩
def REL_LEDGER_IN_SERVICE_COUNT (n : Nat) : Fld := ⟨0x1000104 + 0x20 * n, 31, 0⟩
def REL_LEDGER_SPARE_COUNT (n : Nat) : Fld := ⟨0x1000108 + 0x20 * n, 31, 0⟩
def REL_LEDGER_USED_COUNT (n : Nat) : Fld := ⟨0x100010C + 0x20 * n, 31, 0⟩
def REL_LEDGER_RETIRED_COUNT (n : Nat) : Fld := ⟨0x1000110 + 0x20 * n, 31, 0⟩
def REL_LEDGER_PREDICTED_COUNT (n : Nat) : Fld := ⟨0x1000114 + 0x20 * n, 31, 0⟩
def REL_CTX_BANK_STATE_STATE (n : Nat) : Fld := ⟨0x1040008 + 0x20 * n, 1, 0⟩
def PWR_INPUT_MV : Fld := ⟨0x1400000, 15, 0⟩
def PWR_INPUT_CURRENT : Fld := ⟨0x1400000, 27, 16⟩
def PWR_INPUT_POWER_WATTS : Fld := ⟨0x1400004, 15, 0⟩
def PWR_INPUT_PEAK_WATTS : Fld := ⟨0x1400008, 15, 0⟩
def PWR_BUS_MV : Fld := ⟨0x140000C, 11, 0⟩
def PWR_BUS_CONVERTERS : Fld := ⟨0x140000C, 23, 16⟩
def PWR_IDLE_RET_US_US : Fld := ⟨0x140001C, 19, 0⟩
def PWR_PORT_LP_MASK_MASK : Fld := ⟨0x1400020, 31, 0⟩
def PWR_QUIESCE_TIMEOUTS_COUNT : Fld := ⟨0x1400028, 31, 0⟩
def PWR_INPUT_EVENTS_COUNT : Fld := ⟨0x140002C, 31, 0⟩
def PWR_TRIP_CAUSE_KIND : Fld := ⟨0x1400034, 3, 0⟩
def PWR_TRIP_CAUSE_INDEX : Fld := ⟨0x1400034, 15, 4⟩
def PWR_TRIP_CAUSE_CELSIUS : Fld := ⟨0x1400034, 23, 16⟩
def PWR_THERMAL_WARNINGS_COUNT : Fld := ⟨0x1400038, 31, 0⟩
def PWR_ISL_STATE_STATE (n : Nat) : Fld := ⟨0x1410000 + 0x20 * n, 2, 0⟩
def PWR_ISL_STATE_GUARDBAND (n : Nat) : Fld := ⟨0x1410000 + 0x20 * n, 3, 3⟩
def PWR_ISL_STATE_RECAL_PENDING (n : Nat) : Fld := ⟨0x1410000 + 0x20 * n, 4, 4⟩
def PWR_ISL_STATE_BACKUP_CLOCK (n : Nat) : Fld := ⟨0x1410000 + 0x20 * n, 5, 5⟩
def PWR_ISL_STATE_SPARE_PHASE (n : Nat) : Fld := ⟨0x1410000 + 0x20 * n, 6, 6⟩
def PWR_ISL_STATE_TEMP (n : Nat) : Fld := ⟨0x1410000 + 0x20 * n, 15, 8⟩
def PWR_ISL_STATE_LOAD_INDEX (n : Nat) : Fld := ⟨0x1410000 + 0x20 * n, 23, 16⟩
def PWR_ISL_STATE_MARGIN (n : Nat) : Fld := ⟨0x1410000 + 0x20 * n, 31, 24⟩
def PWR_ISL_FREQ_TARGET (n : Nat) : Fld := ⟨0x1410004 + 0x20 * n, 11, 0⟩
def PWR_ISL_FREQ_AVERAGE (n : Nat) : Fld := ⟨0x1410004 + 0x20 * n, 23, 12⟩
def PWR_ISL_CAL_F_MHZ (n : Nat) : Fld := ⟨0x1410008 + 0x20 * n, 11, 0⟩
def PWR_ISL_CAL_V_MV (n : Nat) : Fld := ⟨0x1410008 + 0x20 * n, 21, 12⟩
def PWR_ISL_CAL_COND_TEMP_C (n : Nat) : Fld := ⟨0x141000C + 0x20 * n, 7, 0⟩
def PWR_ISL_CAL_COND_LOAD_INDEX (n : Nat) : Fld := ⟨0x141000C + 0x20 * n, 15, 8⟩
def PWR_ISL_CAL_COND_CALIBRATIONS (n : Nat) : Fld := ⟨0x141000C + 0x20 * n, 31, 16⟩
def PWR_ISL_EVENTS_DROOPS (n : Nat) : Fld := ⟨0x141001C + 0x20 * n, 15, 0⟩
def PWR_ISL_EVENTS_SWAPS (n : Nat) : Fld := ⟨0x141001C + 0x20 * n, 23, 16⟩
def PWR_ISL_EVENTS_TIMEOUTS (n : Nat) : Fld := ⟨0x141001C + 0x20 * n, 31, 24⟩
def LNK_HB_PERIOD_MS_MS : Fld := ⟨0x1800000, 7, 0⟩
def LNK_HB_MISS_LIMIT_LIMIT : Fld := ⟨0x1800004, 3, 0⟩
def LNK_ADAPT_THRESHOLD_FLITS : Fld := ⟨0x180000C, 15, 0⟩
def LNK_DEVICE_ID_ID : Fld := ⟨0x1800010, 19, 0⟩
def LNK_ROUTE_DROPS_COUNT : Fld := ⟨0x1800014, 31, 0⟩
def LNK_PEER_UNREACHABLE_COUNT : Fld := ⟨0x1800018, 31, 0⟩
def LNK_ROUTE_SELECT_INDEX : Fld := ⟨0x1800020, 12, 0⟩
def LNK_ROUTE_SELECT_PORT : Fld := ⟨0x1800020, 17, 13⟩
def LNK_ROUTE_DATA_ENTRY : Fld := ⟨0x1800024, 15, 0⟩
def LNK_RED_STATUS_WINDOWS_FREE (n : Nat) : Fld := ⟨0x1800100 + 0x10 * n, 4, 0⟩
def LNK_RED_STATUS_IN_SERVICE (n : Nat) : Fld := ⟨0x1800100 + 0x10 * n, 5, 5⟩
def LNK_RED_CREDIT_WAITS_COUNT (n : Nat) : Fld := ⟨0x180010C + 0x10 * n, 31, 0⟩
def LNK_SYNC_FREE_COUNT : Fld := ⟨0x1800140, 12, 0⟩
def LNK_PORT_STATUS_STATE (n : Nat) : Fld := ⟨0x1810000 + 0x100 * n, 2, 0⟩
def LNK_PORT_STATUS_LANES (n : Nat) : Fld := ⟨0x1810000 + 0x100 * n, 7, 3⟩
def LNK_PORT_STATUS_RATE (n : Nat) : Fld := ⟨0x1810000 + 0x100 * n, 9, 8⟩
def LNK_PORT_STATUS_FEC (n : Nat) : Fld := ⟨0x1810000 + 0x100 * n, 10, 10⟩
def LNK_PORT_STATUS_REDUCTION (n : Nat) : Fld := ⟨0x1810000 + 0x100 * n, 11, 11⟩
def LNK_PORT_STATUS_SAFFRON (n : Nat) : Fld := ⟨0x1810000 + 0x100 * n, 12, 12⟩
def LNK_PORT_STATUS_MAX_FRAME (n : Nat) : Fld := ⟨0x1810000 + 0x100 * n, 14, 13⟩
def LNK_PORT_STATUS_SPARES_LEFT (n : Nat) : Fld := ⟨0x1810000 + 0x100 * n, 16, 15⟩
def LNK_PORT_PARTNER_PARTNER (n : Nat) : Fld := ⟨0x1810004 + 0x100 * n, 19, 0⟩
def LNK_PORT_PARTNER_VERSION_MINOR (n : Nat) : Fld := ⟨0x1810004 + 0x100 * n, 23, 20⟩
def LNK_PORT_LANES_MASK (n : Nat) : Fld := ⟨0x1810008 + 0x100 * n, 17, 0⟩
def LNK_PORT_LANES_FAILED_MASK (n : Nat) : Fld := ⟨0x181000C + 0x100 * n, 17, 0⟩
def DUP_RX_COUNT (n : Nat) : Fld := ⟨0x1810020 + 0x100 * n, 31, 0⟩
def LNK_PORT_RETX_COUNT (n : Nat) : Fld := ⟨0x1810024 + 0x100 * n, 31, 0⟩
def LNK_PORT_CRC_ERR_COUNT (n : Nat) : Fld := ⟨0x1810028 + 0x100 * n, 31, 0⟩
def LNK_PORT_WINDOW_DROPS_COUNT (n : Nat) : Fld := ⟨0x181002C + 0x100 * n, 31, 0⟩
def LNK_PORT_DOWN_COUNT_DOWNS (n : Nat) : Fld := ⟨0x1810030 + 0x100 * n, 15, 0⟩
def LNK_PORT_DOWN_COUNT_SWAPS (n : Nat) : Fld := ⟨0x1810030 + 0x100 * n, 31, 16⟩
def LNK_PORT_SAFFRON_SHAPED_COUNT (n : Nat) : Fld := ⟨0x1810034 + 0x100 * n, 31, 0⟩
def LNK_PORT_SAFFRON_DEMOTED_COUNT (n : Nat) : Fld := ⟨0x1810038 + 0x100 * n, 31, 0⟩
def LNK_PORT_LASER_POWER_A (n : Nat) : Fld := ⟨0x181003C + 0x100 * n, 7, 0⟩
def LNK_PORT_LASER_POWER_B (n : Nat) : Fld := ⟨0x181003C + 0x100 * n, 15, 8⟩
def LNK_PORT_LASER_LOW_A (n : Nat) : Fld := ⟨0x181003C + 0x100 * n, 16, 16⟩
def LNK_PORT_LASER_LOW_B (n : Nat) : Fld := ⟨0x181003C + 0x100 * n, 17, 17⟩
def LNK_PORT_CONTROL_DISABLE (n : Nat) : Fld := ⟨0x1810050 + 0x100 * n, 0, 0⟩
def MEM_THERMAL_CONFIG_T_THROTTLE : Fld := ⟨0x2000000, 6, 0⟩
def MEM_ECC_CE_HBM_COUNT : Fld := ⟨0x2000010, 31, 0⟩
def MEM_ECC_UE_HBM_COUNT : Fld := ⟨0x2000014, 31, 0⟩
def MEM_ECC_CE_SRAM_COUNT : Fld := ⟨0x2000018, 31, 0⟩
def MEM_ECC_UE_SRAM_COUNT : Fld := ⟨0x200001C, 31, 0⟩
def MEM_POISON_STALLS_COUNT : Fld := ⟨0x2000028, 31, 0⟩
def MEM_PRIV_DENIED_COUNT : Fld := ⟨0x200002C, 31, 0⟩
def MEM_SCRUB_PASSES_COUNT : Fld := ⟨0x2000030, 31, 0⟩
def MEM_STACK_STATUS_TRAINED (n : Nat) : Fld := ⟨0x2000100 + 0x10 * n, 0, 0⟩
def MEM_STACK_STATUS_MODE (n : Nat) : Fld := ⟨0x2000100 + 0x10 * n, 2, 1⟩
def MEM_STACK_STATUS_THROTTLE (n : Nat) : Fld := ⟨0x2000100 + 0x10 * n, 4, 3⟩
def MEM_STACK_STATUS_TEMP (n : Nat) : Fld := ⟨0x2000100 + 0x10 * n, 23, 16⟩
def MEM_STACK_STATUS_RETIRED_GROUPS (n : Nat) : Fld := ⟨0x2000100 + 0x10 * n, 31, 24⟩
def MEM_STACK_PAGES_PAGES (n : Nat) : Fld := ⟨0x2000104 + 0x10 * n, 15, 0⟩
def MEM_STACK_PAGES_RESERVE (n : Nat) : Fld := ⟨0x2000104 + 0x10 * n, 25, 16⟩
def MEM_STACK_THROTTLED_MS (n : Nat) : Fld := ⟨0x2000108 + 0x10 * n, 31, 0⟩
def MEM_LLM_SCRATCH_MASK (n : Nat) : Fld := ⟨0x2000400 + 0x10 * n, 31, 0⟩
def MEM_LLM_HITS_COUNT (n : Nat) : Fld := ⟨0x2000404 + 0x10 * n, 31, 0⟩
def MEM_LLM_MISSES_COUNT (n : Nat) : Fld := ⟨0x2000408 + 0x10 * n, 31, 0⟩
def MEM_LLM_WRITEBACKS_COUNT (n : Nat) : Fld := ⟨0x200040C + 0x10 * n, 31, 0⟩
def MEM_PCH_STATUS_STATE (n : Nat) : Fld := ⟨0x2010000 + 0x4 * n, 1, 0⟩
def MEM_PCH_STATUS_REPAIRS (n : Nat) : Fld := ⟨0x2010000 + 0x4 * n, 7, 2⟩
def MEM_PCH_STATUS_CE (n : Nat) : Fld := ⟨0x2010000 + 0x4 * n, 15, 8⟩
def MEM_PCH_STATUS_UE_ROWS (n : Nat) : Fld := ⟨0x2010000 + 0x4 * n, 23, 16⟩
def MEM_TIER_CONFIG_PARTITION : Fld := ⟨0x2600000, 3, 0⟩
def MEM_TIER_CONFIG_ENABLE : Fld := ⟨0x2600000, 4, 4⟩
def MEM_TIER_CONFIG_LOG2_OBJ : Fld := ⟨0x2600000, 9, 5⟩
def MEM_TIER_LATE_COUNT : Fld := ⟨0x2600008, 31, 0⟩
def MEM_TIER_FAILED_COUNT : Fld := ⟨0x260000C, 31, 0⟩
def MEM_TIER_STALE_COUNT : Fld := ⟨0x2600018, 31, 0⟩
def MEM_TIER_NOT_OWNER_COUNT : Fld := ⟨0x260001C, 31, 0⟩
def MEM_TIER_WEIGHTS_VA_VA : Fld := ⟨0x2600024, 26, 0⟩
def MEM_TIER_EVICTIONS_COUNT : Fld := ⟨0x2600028, 31, 0⟩
def MEM_GOLDEN_STATUS_STATE : Fld := ⟨0x2600034, 1, 0⟩
def MEM_GOLDEN_STATUS_MODEL_MATCH : Fld := ⟨0x2600034, 2, 2⟩
def MEM_GOLDEN_STATUS_DIRTY_PAGES : Fld := ⟨0x2600034, 31, 14⟩
def MEM_GOLDEN_RELOADS_COUNT : Fld := ⟨0x2600038, 31, 0⟩
def MEM_GOLDEN_LAST_LAST_CODE : Fld := ⟨0x260003C, 15, 0⟩
def MEM_FLASH_ALLOWANCE_GIB : Fld := ⟨0x2600040, 14, 0⟩
def MEM_FLASH_WRITTEN_24H_MIB : Fld := ⟨0x2600044, 31, 0⟩
def MEM_FLASH_CAPACITY_GIB : Fld := ⟨0x2600048, 15, 0⟩
def MEM_FLASH_WEAR_AVERAGE : Fld := ⟨0x260004C, 15, 0⟩
def MEM_FLASH_WEAR_MAXIMUM : Fld := ⟨0x260004C, 31, 16⟩
def MEM_FLASH_RETIRED_BLOCKS : Fld := ⟨0x2600050, 19, 0⟩
def MEM_FLASH_PCT_USED_PCT : Fld := ⟨0x2600054, 7, 0⟩
def MEM_FLASH_CH_STATUS_STATE (n : Nat) : Fld := ⟨0x2600100 + 0x4 * n, 1, 0⟩
def MEM_FLASH_CH_STATUS_MODE (n : Nat) : Fld := ⟨0x2600100 + 0x4 * n, 6, 2⟩
def MEM_FLASH_CH_STATUS_PACKAGES (n : Nat) : Fld := ⟨0x2600100 + 0x4 * n, 15, 8⟩
def MEM_KV_CONFIG_PARTITION : Fld := ⟨0x2700000, 3, 0⟩
def MEM_KV_CONFIG_ENABLE : Fld := ⟨0x2700000, 4, 4⟩
def MEM_KV_CONFIG_LOG2_DESC : Fld := ⟨0x2700000, 9, 5⟩
def MEM_KV_LOST_COUNT : Fld := ⟨0x2700010, 31, 0⟩
def MEM_KVU_COMMANDS_COUNT (n : Nat) : Fld := ⟨0x2700100 + 0x40 * n, 31, 0⟩
def MEM_KVU_PIN_WAITS_COUNT (n : Nat) : Fld := ⟨0x2700104 + 0x40 * n, 31, 0⟩
def MEM_RET_SKIPPED_COUNT (n : Nat) : Fld := ⟨0x2700118 + 0x40 * n, 31, 0⟩
def VID_EMERGENCY_COUNT : Fld := ⟨0x2800004, 31, 0⟩
def VID_DAMAGED_COUNT : Fld := ⟨0x2800008, 31, 0⟩
def VID_ENGINE_BUDGET (n : Nat) : Fld := ⟨0x2800100 + 0x4 * n, 11, 0⟩
def VID_ENGINE_STATE (n : Nat) : Fld := ⟨0x2800100 + 0x4 * n, 13, 12⟩
def VID_ENGINE_STREAMS (n : Nat) : Fld := ⟨0x2800100 + 0x4 * n, 19, 14⟩
def VID_CTX_RESULT_STATUS (n : Nat) : Fld := ⟨0x2810028 + 0x40 * n, 15, 0⟩
def VID_CTX_LAST_CODE (n : Nat) : Fld := ⟨0x2810034 + 0x40 * n, 15, 0⟩
def VID_CTX_LAST_CELL (n : Nat) : Fld := ⟨0x2810034 + 0x40 * n, 25, 16⟩
def VID_STR_STATUS_STATE (n : Nat) : Fld := ⟨0x2820000 + 0x40 * n, 1, 0⟩
def VID_STR_STATUS_KIND (n : Nat) : Fld := ⟨0x2820000 + 0x40 * n, 3, 2⟩
def VID_STR_STATUS_ENGINE (n : Nat) : Fld := ⟨0x2820000 + 0x40 * n, 7, 4⟩
def VID_STR_STATUS_CONTEXT (n : Nat) : Fld := ⟨0x2820000 + 0x40 * n, 15, 8⟩
def VID_STR_STATUS_STOP_CODE (n : Nat) : Fld := ⟨0x2820000 + 0x40 * n, 31, 16⟩
def VID_STR_UNITS_COUNT (n : Nat) : Fld := ⟨0x2820004 + 0x40 * n, 31, 0⟩
def VID_STR_OUT_WR_BYTES (n : Nat) : Fld := ⟨0x2820008 + 0x40 * n, 31, 0⟩
def VID_STR_OUT_RD_BYTES (n : Nat) : Fld := ⟨0x282000C + 0x40 * n, 31, 0⟩
def VID_STR_EMERGENCY_COUNT (n : Nat) : Fld := ⟨0x2820010 + 0x40 * n, 31, 0⟩
def VID_STR_DAMAGE_OFFSET_VALUE (n : Nat) : Fld := ⟨0x2820014 + 0x40 * n, 31, 0⟩
def VID_STR_DAMAGE_FRAME_VALUE (n : Nat) : Fld := ⟨0x2820018 + 0x40 * n, 31, 0⟩
def DBG_TG_CONTROL_MODE (n : Nat) : Fld := ⟨0x3100000 + 0x40 * n, 2, 1⟩
def DBG_TG_CONTROL_PATTERN (n : Nat) : Fld := ⟨0x3100000 + 0x40 * n, 4, 3⟩
def DBG_TG_BASE_UNIT (n : Nat) : Fld := ⟨0x3100004 + 0x40 * n, 23, 0⟩
def DBG_TG_LENGTH_UNITS (n : Nat) : Fld := ⟨0x3100008 + 0x40 * n, 23, 0⟩
def DBG_TG_STATUS_STATE (n : Nat) : Fld := ⟨0x3100014 + 0x40 * n, 1, 0⟩
def DBG_TG_MISMATCHES_COUNT (n : Nat) : Fld := ⟨0x3100018 + 0x40 * n, 31, 0⟩
def DBG_TG_UE_COUNT (n : Nat) : Fld := ⟨0x310001C + 0x40 * n, 31, 0⟩
def DBG_TG_FIRST_ERROR_UNIT (n : Nat) : Fld := ⟨0x3100020 + 0x40 * n, 23, 0⟩
def DBG_TG_FIRST_ERROR_VALID (n : Nat) : Fld := ⟨0x3100020 + 0x40 * n, 31, 31⟩
def DBG_SQ_CONTROL_ENABLE (n : Nat) : Fld := ⟨0x3200000 + 0x20 * n, 0, 0⟩
def DBG_SQ_CONTROL_CLASS_MASK (n : Nat) : Fld := ⟨0x3200000 + 0x20 * n, 4, 1⟩
def DBG_SQ_CONTROL_HOLD_DOWN (n : Nat) : Fld := ⟨0x3200000 + 0x20 * n, 5, 5⟩
def DBG_SQ_DROP_THRESHOLD (n : Nat) : Fld := ⟨0x3200004 + 0x20 * n, 31, 0⟩
def DBG_SQ_CORRUPT_THRESHOLD (n : Nat) : Fld := ⟨0x3200008 + 0x20 * n, 31, 0⟩
def DBG_SQ_REORDER_THRESHOLD (n : Nat) : Fld := ⟨0x320000C + 0x20 * n, 31, 0⟩
def DBG_SQ_SEED_SEED (n : Nat) : Fld := ⟨0x3200010 + 0x20 * n, 31, 0⟩
def DBG_SQ_INJECTED_COUNT (n : Nat) : Fld := ⟨0x3200014 + 0x20 * n, 31, 0⟩
def DBG_SYNC_DUMP_STATUS_STATE : Fld := ⟨0x330000C, 1, 0⟩
def DBG_SYNC_DUMP_STATUS_LAST_CODE : Fld := ⟨0x330000C, 31, 16⟩

end F

namespace R

def GLB_PART_ID : Nat := 0x0
def GLB_PROFILE : Nat := 0x10
def GLB_RESOURCES : Nat := 0x14
def GLB_HBM_PAGES : Nat := 0x18
def GLB_ACCESS_DENIED : Nat := 0x84
def GLB_ACCESS_LAST : Nat := 0x88
def GLB_ACCESS_LAST_ADDR : Nat := 0x8C
def GLB_BOOT_STATUS : Nat := 0x100
def GLB_UID (n : Nat) : Nat := 0x110 + 0x4 * n
def GLB_DEBUG_STATE : Nat := 0x124
def GLB_FW_STAGED : Nat := 0x128
def SIL_CONTROL : Nat := 0x100000
def SIL_STATUS : Nat := 0x100004
def SIL_FAIL_DETAIL : Nat := 0x100008
def SIL_PATCH_COUNT : Nat := 0x100030
def SIL_ACTIVE_DIGEST (n : Nat) : Nat := 0x100040 + 0x4 * n
def JOB_LATE_UNIT : Nat := 0x800008
def JOB_CTX_CREATE_RESULT : Nat := 0x800014
def JOB_GUARD_HW_EVENT : Nat := 0x800044
def JOB_CTX_STATE (n : Nat) : Nat := 0x810000 + 0x100 * n
def JOB_CTX_RING_HEAD (n : Nat) : Nat := 0x810014 + 0x100 * n
def JOB_CTX_SUBMIT_LO (n : Nat) : Nat := 0x810028 + 0x100 * n
def JOB_CTX_SUBMIT_HI (n : Nat) : Nat := 0x81002C + 0x100 * n
def JOB_CTX_SUBMIT_RESULT (n : Nat) : Nat := 0x810030 + 0x100 * n
def JOB_CTX_ABORT (n : Nat) : Nat := 0x810038 + 0x100 * n
def JOB_CTX_ABORT_RESULT (n : Nat) : Nat := 0x81003C + 0x100 * n
def JOB_CTX_QUEUE_DEPTH (n : Nat) : Nat := 0x810054 + 0x100 * n
def JOB_CTX_FAULT_DETAIL (n : Nat) : Nat := 0x810058 + 0x100 * n
def JOB_CTX_KV_REFS (n : Nat) : Nat := 0x810068 + 0x100 * n
def JOB_CTX_KV_CMD_0 (n : Nat) : Nat := 0x810070 + 0x100 * n
def JOB_CTX_KV_CMD_3 (n : Nat) : Nat := 0x81007C + 0x100 * n
def JOB_CTX_KV_RESULT_PAGE (n : Nat) : Nat := 0x810084 + 0x100 * n
def JOB_CTX_KV_FAULT_PAGE (n : Nat) : Nat := 0x81008C + 0x100 * n
def JOB_CTX_TIER_CMD_0 (n : Nat) : Nat := 0x810098 + 0x100 * n
def JOB_CTX_TIER_CMD_7 (n : Nat) : Nat := 0x8100B4 + 0x100 * n
def JOB_CTX_TIER_CHARGE_0 (n : Nat) : Nat := 0x8100C8 + 0x100 * n
def JOB_CTX_TIER_CHARGE_1 (n : Nat) : Nat := 0x8100CC + 0x100 * n
def JOB_CTX_TIER_CHARGE_2 (n : Nat) : Nat := 0x8100D0 + 0x100 * n
def JOB_CTX_TIER_CHARGE_3 (n : Nat) : Nat := 0x8100D4 + 0x100 * n
def JOB_CORE_FLAGS (n : Nat) : Nat := 0x900004 + 0x100 * n
def REL_STRIPE_STATUS : Nat := 0x100001C
def REL_LOG_ENTRY (n : Nat) : Nat := 0x1010000 + 0x4 * n
def PWR_BUS : Nat := 0x140000C
def PWR_RECAL_PENDING : Nat := 0x1400014
def PWR_GUARDBANDED : Nat := 0x1400018
def PWR_TEMP_MAX : Nat := 0x1400030
def PWR_TRIP_CAUSE : Nat := 0x1400034
def LNK_ROUTE_SELECT : Nat := 0x1800020
def LNK_PORT_CONTROL (n : Nat) : Nat := 0x1810050 + 0x100 * n
def MEM_TIER_ORPHAN : Nat := 0x2600020
def MEM_KV_IN_USE : Nat := 0x2700004
def MEM_KV_RELEASING : Nat := 0x2700008
def MEM_KV_ORPHANS : Nat := 0x270000C
def VID_STATUS : Nat := 0x2800000
def VID_CTX_CMD_0 (n : Nat) : Nat := 0x2810008 + 0x40 * n
def VID_CTX_CMD_7 (n : Nat) : Nat := 0x2810024 + 0x40 * n
def VID_STR_STATUS (n : Nat) : Nat := 0x2820000 + 0x40 * n
def VID_STR_OUT_RD (n : Nat) : Nat := 0x282000C + 0x40 * n
def VID_STR_DAMAGE_OFFSET (n : Nat) : Nat := 0x2820014 + 0x40 * n
def VID_STR_DAMAGE_FRAME (n : Nat) : Nat := 0x2820018 + 0x40 * n
def DBG_TG_CONTROL (n : Nat) : Nat := 0x3100000 + 0x40 * n
def DBG_TG_FIRST_ERROR (n : Nat) : Nat := 0x3100020 + 0x40 * n
def DBG_SQ_CONTROL (n : Nat) : Nat := 0x3200000 + 0x20 * n
def DBG_SQ_SEED (n : Nat) : Nat := 0x3200010 + 0x20 * n
def DBG_SYNC_DUMP_CONTROL : Nat := 0x3300008
def DBG_SYNC_DUMP_STATUS : Nat := 0x330000C

end R

namespace P

def GLB_DMA_SUSP_ADDR (n : Nat) : Nat := 0x58 + 0x10 * n
def GLB_BAR4_BASE : Nat := 0x90
def SIL_SRC_ADDR : Nat := 0x100010
def SIL_ACTIVE_SERIAL : Nat := 0x100020
def SIL_MODEL_ID : Nat := 0x100028
def MBN_REQ_PTR (n : Nat) : Nat := 0x200000 + 0x1000 * n
def MBN_TGT_PTR (n : Nat) : Nat := 0x200020 + 0x1000 * n
def MBS_REQ_PTR (n : Nat) : Nat := 0x300000 + 0x1000 * n
def MBS_TGT_PTR (n : Nat) : Nat := 0x300020 + 0x1000 * n
def JOB_CTX_RING (n : Nat) : Nat := 0x810008 + 0x100 * n
def JOB_CTX_LULL_RING (n : Nat) : Nat := 0x810018 + 0x100 * n
def JOB_CTX_PAGE_PORT (n : Nat) : Nat := 0x810060 + 0x100 * n
def JOB_CTX_TIER_PORT (n : Nat) : Nat := 0x810090 + 0x100 * n
def JOB_CTX_TIER_RESULT_HANDLE (n : Nat) : Nat := 0x8100BC + 0x100 * n
def JOB_CTX_MAP_FAULT_VA (n : Nat) : Nat := 0x8100D8 + 0x100 * n
def JOB_CTX_TIER_RESULT_ADDR (n : Nat) : Nat := 0x8100E0 + 0x100 * n
def JOB_CORE_MMA_BUSY (n : Nat) : Nat := 0x900010 + 0x100 * n
def JOB_CORE_WSTALL (n : Nat) : Nat := 0x900018 + 0x100 * n
def JOB_CORE_PSTALL (n : Nat) : Nat := 0x900020 + 0x100 * n
def JOB_CORE_SIDESTALL (n : Nat) : Nat := 0x900040 + 0x100 * n
def JOB_CORE_CONV_VECTORS (n : Nat) : Nat := 0x900048 + 0x100 * n
def JOB_CORE_VEC_BUSY (n : Nat) : Nat := 0x900060 + 0x100 * n
def REL_LOG_RING : Nat := 0x1000004
def REL_REBUILD_BYTES : Nat := 0x1000028
def REL_CTX_BANK_GROUP (n : Nat) : Nat := 0x1040000 + 0x20 * n
def REL_CTX_BANK_STEP (n : Nat) : Nat := 0x1040010 + 0x20 * n
def PWR_ISL_CAL_TIME (n : Nat) : Nat := 0x1410010 + 0x20 * n
def LNK_RED_PIECES (n : Nat) : Nat := 0x1800104 + 0x10 * n
def LNK_PORT_CAP_SENT (n : Nat) : Nat := 0x1810010 + 0x100 * n
def LNK_PORT_CAP_RECEIVED (n : Nat) : Nat := 0x1810018 + 0x100 * n
def LNK_PORT_TX_BYTES (n : Nat) : Nat := 0x1810040 + 0x100 * n
def LNK_PORT_RX_BYTES (n : Nat) : Nat := 0x1810048 + 0x100 * n
def MEM_POISON_ADDR : Nat := 0x2000020
def MEM_PART_WAIT (n : Nat) : Nat := 0x2000200 + 0x10 * n
def MEM_PART_BYTES (n : Nat) : Nat := 0x2000208 + 0x10 * n
def MEM_TIER_FAIL_HANDLE : Nat := 0x2600010
def MEM_KVU_COPY_BYTES (n : Nat) : Nat := 0x2700108 + 0x40 * n
def MEM_RET_SCANNED (n : Nat) : Nat := 0x2700110 + 0x40 * n
def VID_CTX_PORT (n : Nat) : Nat := 0x2810000 + 0x40 * n
def VID_CTX_RESULT_VALUE (n : Nat) : Nat := 0x281002C + 0x40 * n
def DBG_TG_SEED (n : Nat) : Nat := 0x310000C + 0x40 * n
def DBG_SYNC_DUMP_ADDR : Nat := 0x3300000

end P

end Sys2Proof.Machine
end

