-- ==== Sys2Proof/Machine/Store.lean ====
section
/-! DEFINITION. Sparse stores: lists of (key, value) with strictly rising keys and no entry equal to what an unlisted key reads
as, so that equal stores are equal lists. Memory, registers and per-object state are kept so. -/

namespace Sys2Proof.Machine

/-- A sparse store of values by key. -/
abbrev Store (α : Type) := List (Nat × α)

/-- The value at a key; `d` says what an unlisted key reads as. -/
def storeGet {α : Type} (d : Nat → α) : Store α → Nat → α
  | [], k => d k
  | (j, v) :: t, k => if j = k then v else storeGet d t k

/-- The store with a key's entry removed. -/
def storeErase {α : Type} (st : Store α) (k : Nat) : Store α := st.filter fun e => e.1 != k

/-- An entry put at its place in the order, replacing the key's entry. -/
def storeInsert {α : Type} : Store α → Nat → α → Store α
  | [], k, v => [(k, v)]
  | (j, w) :: t, k, v =>
    if k < j then (k, v) :: (j, w) :: t
    else if k = j then (k, v) :: t
    else (j, w) :: storeInsert t k v

/-- A write: a value equal to what the unlisted key reads as removes the entry. -/
def storeSet {α : Type} [DecidableEq α] (d : Nat → α) (st : Store α) (k : Nat) (v : α) : Store α :=
  if v = d k then storeErase st k else storeInsert st k v

/-- Keys strictly rising, all above `lo`. -/
def storeRising {α : Type} : Nat → Store α → Bool
  | _, [] => true
  | lo, (j, _) :: t => lo ≤ j && storeRising (j + 1) t

/-- The canonical form: keys strictly rising and no entry equal to its default. -/
def storeWf {α : Type} [DecidableEq α] (d : Nat → α) (st : Store α) : Bool :=
  storeRising 0 st && st.all fun (k, v) => v != d k

/-- The entries of a list of values at consecutive keys from `k`, those equal to their default left out. -/
def storeRun {α : Type} [DecidableEq α] (d : Nat → α) : Nat → List α → Store α
  | _, [] => []
  | k, v :: t => if v = d k then storeRun d (k + 1) t else (k, v) :: storeRun d (k + 1) t

/-- A write of consecutive values from key `k`. -/
def storeSetRun {α : Type} [DecidableEq α] (d : Nat → α) (st : Store α) (k : Nat) (vs : List α) : Store α :=
  st.filter (fun e => e.1 < k) ++ storeRun d k vs ++ st.filter (fun e => k + vs.length ≤ e.1)

/-- Keys `k` up to `k + n − 1` returned to their default. -/
def storeClear {α : Type} (st : Store α) (k n : Nat) : Store α :=
  st.filter (fun e => e.1 < k) ++ st.filter (fun e => k + n ≤ e.1)

/-- The values of `n` consecutive keys. -/
def storeGetRun {α : Type} (d : Nat → α) (st : Store α) (k n : Nat) : List α :=
  (List.range n).map fun i => storeGet d st (k + i)

/-- Keys `dest` up to `dest + n − 1` take the entries that `src` lists at `k` up to `k + n − 1`; those it does not list return to
their default. -/
def storePaste {α : Type} [DecidableEq α] (d : Nat → α) (st : Store α) (dest : Nat) (src : Store α) (k n : Nat) : Store α :=
  src.foldl (fun m e => if k ≤ e.1 && e.1 < k + n then storeSet d m (e.1 - k + dest) e.2 else m) (storeClear st dest n)

end Sys2Proof.Machine
end

