-- ==== Sys2Proof/Machine/Parts.lean ====
section
/-! DEFINITION. The parts of the state beside cores and jobs: barrier objects and collectives (14), ports and the router (13),
recovery (15), video (16), power (17), mailboxes (18) and keys and firmware (19), as plain data. -/

namespace Sys2Proof.Machine

open Sys2Proof

/-! ## Barrier objects and collectives (R265 to R285) -/

/-- A piece of a rank's DST not yet complete (R282): its address, its bytes, those still to be written, and on the reduction and
ring paths its elements of the vector. -/
structure DstPiece where
  addr : Nat
  bytes : Nat
  left : Nat
  elem : Nat
  count : Nat
  deriving DecidableEq, Repr

/-- A local rank's part in the collective that runs on an object: its step rank, its core, its SRC (bytes, and as FP32 words once
encoded for transport), where its DST lies, and the pieces of DST not complete. -/
structure CollPart where
  rank : Nat
  core : Nat
  src : List Byte
  vals : List Nat
  dst : Nat
  todo : List DstPiece
  deriving DecidableEq, Repr

/-- A piece of a reducing collective at its home unit (R275, R276). -/
structure CollPiece where
  index : Nat
  /-- The accumulators: FP32 words combined so far. -/
  acc : List (Option Nat)
  /-- Inputs combined and how many elements of each: local ranks as 2·rank, child members as 2·position + 1. -/
  got : List (Nat × Nat)
  /-- The result's FP32 words known at this member. -/
  res : List (Option Nat)
  /-- The result has been sent on: to the parent, or at the root down. -/
  sentOn : Bool
  deriving DecidableEq, Repr

/-- The collective that runs on an object (R273: one at a time on each member). -/
structure CollRun where
  op : Nat
  serial : Nat
  /-- The instruction's bytes, the same on every rank but for SRC and DST. -/
  enc : BitVec 256
  parts : List CollPart
  fallback : Bool
  /-- Device and context of every member, by position. -/
  members : List (Nat × Nat)
  pieces : List CollPiece
  /-- Lowest k not yet sent on, as the parent last told, for dies 0 to 3 (R277). -/
  parentBase : List Nat
  /-- The READY phase has completed, and this member's data has been sent. -/
  ready : Bool
  /-- The ring: messages received so far, and those being received, by tag (R280). -/
  ringIn : Nat
  msgs : List (Nat × List (Nat × List Byte))
  deriving DecidableEq, Repr

/-- A bound barrier object (R268). -/
structure SyncObj where
  index : Nat
  ctx : Nat
  job : Nat
  ident : Nat
  desc : Nat
  members : Nat
  fanout : Nat
  root : Nat
  self : Nat
  devSet : Nat
  reduce : Bool
  memberList : Nat
  /-- Step ranks of the group, ascending (CORE_MASK). -/
  ranks : List Nat
  /-- Device and context of the parent (position, device, context) and of the children. -/
  parent : Option (Nat × Nat × Nat)
  children : List (Nat × Nat × Nat)
  phase : Nat
  arrived : List Nat
  childArrived : List Nat
  arriveSent : Bool
  /-- The AND of CAN_REDUCE over the subtree so far, the group's decision once settled, and the first condition that held. -/
  canReduce : Bool
  decided : Option Bool
  condition : Nat
  windows : Bool
  readyPhase : Nat
  readyRanks : List Nat
  readyChildren : List Nat
  readySent : Bool
  serial : Nat
  run : Option CollRun
  fallbackTold : Bool
  deriving DecidableEq, Repr

/-! ## Ports and the router (R245 to R262) -/

/-- A frame in the module, with the port it first arrived on or the die that injected it (R257). -/
structure Carried where
  frame : Frame
  inPort : Option Nat
  die : Nat
  /-- Its wait at the source for saffron tokens has been counted (R255). -/
  shaped : Bool
  deriving DecidableEq, Repr

structure Port where
  /-- Next SEQ to give, and the replay buffer, oldest first (R251). -/
  txNext : Nat
  replay : List Carried
  /-- NEXT of the receiver, the reorder window, the NAK outstanding (R252). -/
  rxNext : Nat
  window : List Frame
  nak : Option Nat
  ackDue : Bool
  nakDue : Bool
  timeouts : Nat
  /-- Training attempts in a row that failed after the partner's word came (R247). -/
  attempts : Nat
  gotWord : Bool
  wordBad : Bool
  /-- The port was reset and has not trained since: its word carries RESET. -/
  wasReset : Bool
  /-- Frames waiting for the wire, oldest first. -/
  queue : List Carried
  /-- Tokens in 1/256 of a flit (R255) and deficits in flits. -/
  saffronTokens : Nat
  mgmtTokens : Nat
  bulkDeficit : Nat
  backDeficit : Nat
  turn : Nat
  contractAt : Option Nat
  /-- A lane that fails and the spare being trained for it (R258). -/
  swap : Option (Nat × Nat)
  /-- The swap command is due in a control flit. -/
  swapDue : Bool
  /-- Frames are held after a loss of lock. -/
  holdFrames : Bool
  hbDue : Bool
  /-- Squall's generator and the frames it holds back (R262). -/
  squall : Nat
  deferred : List Frame
  /-- Low power: 1 entry begun, 2 past the commit point (R348). -/
  lp : Nat
  /-- Physical lane of each logical lane. -/
  laneMap : List Nat
  /-- Lanes in use when the port was last UP. -/
  lanes : Nat
  deriving DecidableEq, Repr

def Port.fresh : Port :=
  ⟨0, [], 0, [], none, false, false, 0, 0, false, false, true, [], 512 * 256, 64 * 256, 0, 0, 2, none, none, false, false, false,
    1, [], 0, List.range 16, 0⟩

structure Fabric where
  ports : Store Port
  /-- Frames delivered to this module and not yet served, oldest first. -/
  inbox : List Frame
  /-- Frames injected here that wait for a port (R257 step 6), counted once. -/
  waiting : List Carried
  tag : Nat
  objs : List SyncObj
  /-- Windows taken on each die (R277). -/
  winTaken : List Nat
  deriving DecidableEq, Repr

def Fabric.fresh : Fabric := ⟨[], [], [], 0, [], [0, 0, 0, 0]⟩

/-! ## Recovery (R293 to R309) -/

/-- A unit's delta staged for a peer (R302): sender's position, step, row, pieces received. -/
structure Delta where
  pos : Nat
  step : Nat
  row : Nat
  pieces : List (Nat × List Byte)
  deriving DecidableEq, Repr

/-- Rebuild data received for a row (R306): which peers have answered with which pieces, and the XOR of what came. -/
structure RowIn where
  row : Nat
  got : List (Nat × Nat)
  acc : List Byte
  deriving DecidableEq, Repr

/-- A context's pending bank phase (R302). -/
structure BankPhase where
  ctx : Nat
  uid : Nat
  step : Nat
  /-- Units sent to each holder and units each has answered STAGED for. -/
  sent : List (Nat × Nat)
  staged : List (Nat × Nat)
  /-- The tree of the bank group: device and context of the parent and of the children, and the children that have arrived. -/
  parent : Option (Nat × Nat)
  children : List (Nat × Nat)
  childArrived : List (Nat × Nat)
  arriveSent : Bool
  /-- BANK_STALLED has been logged for the step (R303). -/
  stalled : Bool
  /-- Units journaled with no step that this phase banks, as they were sent. -/
  loose : List (Nat × Store Byte)
  deriving DecidableEq, Repr

structure Recovery where
  /-- System controller B has taken over (R293). -/
  onB : Bool
  refreshedAt : Nat
  /-- Physical cores to retire at the next full Lull, and LLM banks (die, bank). -/
  retire : List Nat
  retireBanks : List (Nat × Nat)
  /-- Cores and banks whose spare patch failed a check: tried again at the full Lull after the next step (R47). -/
  retry : List Nat
  retryBanks : List (Nat × Nat)
  /-- A failed core and the spare on which its program was replayed (R296). -/
  chosen : List (Nat × Nat)
  /-- Physical cores retired for good. -/
  coresGone : List Nat
  banksGone : List (Nat × Nat)
  /-- The profile no longer fits: withdraw at the full Lull (R48). -/
  withdraw : Bool
  /-- Staged deltas held for other members, and JOIN and completion reports seen while forming. -/
  deltas : List Delta
  joined : List Nat
  /-- Peers that have staged all of this member's units, units of each peer taken, and members that have reported complete. -/
  formStaged : List Nat
  formIn : List (Nat × Nat)
  formed : List Nat
  phases : List BankPhase
  rowsIn : List RowIn
  /-- Rows of a rebuild complete, and the peers whose REBUILD_END has come. -/
  rowsDone : Nat
  ended : List Nat
  /-- Units of poisoned rows whose peers have been asked (R304). -/
  repairs : List Nat
  /-- Contexts with a RESUME that waits (R308), the one for which a frame was dropped last at the end. -/
  resuming : List Nat
  /-- Islands whose last margin lay below the threshold, and those counted in PREDICTED (R294). -/
  aging : List Nat
  predicted : List Nat
  /-- Units journaled with no step, with their bytes before (R299). -/
  loose : List (Nat × Store Byte)
  /-- The registers of the ledger and of the flash and stack capacities, as the device area of the flash store keeps them (R292). -/
  ledger : Store Word
  deriving DecidableEq, Repr

def Recovery.fresh : Recovery :=
  ⟨false, 0, [], [], [], [], [], [], [], false, [], [], [], [], [], [], [], 0, [], [], [], [], [], [], []⟩

/-! ## Video (R312 to R331) -/

/-- A unit of work of a stream, waiting or in progress. -/
structure VUnit where
  /-- 0 decode, 1 encode picture, 2 ingest sample. -/
  kind : Nat
  via : Via
  addr : Nat
  addr2 : Nat
  length : Nat
  /-- The job and step that issued it, and whether the step is a replay; none for a host command, with a step of ones. -/
  uid : Option Nat
  step : Nat
  replayed : Bool
  arrived : Nat
  /-- Encode: picture index, KEY, rows advanced, the samples of each band coded, slices emitted, headers sent, emergency seen. -/
  picture : Nat
  key : Bool
  rows : Nat
  bands : List (List Byte)
  slices : Nat
  headers : Bool
  emergency : Bool
  /-- Ingest: the sample's descriptor, and whether its source is a tier-3 handle. -/
  sample : List Byte
  fromTier : Bool
  deriving DecidableEq, Repr

/-- What a step may change of a stream, as it was before the step's first unit. -/
structure VidSaved where
  uid : Nat
  fresh : Bool
  stop : Nat
  pictures : Nat
  openRow : Option Nat
  lastRow : Nat
  rowTokens : Nat
  rowSegs : Nat
  busyRows : List Nat
  deriving DecidableEq, Repr

/-- An open stream: its descriptor (Table VID-4) and how far it is. -/
structure Stream where
  slot : Nat
  ctx : Nat
  engine : Nat
  desc : List Byte
  /-- No unit has completed and the stream was not opened with RESUME: STATE holds nothing yet. -/
  fresh : Bool
  units : List VUnit
  /-- CLOSE waits for the units; the command to answer. -/
  closing : Option Via
  /-- The code that stopped it; 0 while it is not STOPPED. -/
  stop : Nat
  /-- Encode pictures submitted. -/
  pictures : Nat
  /-- Ingest: the open row, the last one started, its tokens and segments, and the rows that are not free. -/
  openRow : Option Nat
  lastRow : Nat
  rowTokens : Nat
  rowSegs : Nat
  busyRows : List Nat
  /-- Jobs whose steps have issued INGESTs; those whose programs have retired since, so that the open row is to be closed (R331). -/
  fed : List Nat
  closeFor : List Nat
  /-- Opened by a step of this job, not yet at its Lull. -/
  byStep : Option Nat
  saved : Option VidSaved
  deriving DecidableEq, Repr

structure Video where
  streams : List Stream
  /-- The units engines work on: engine, stream, when the unit arrived. -/
  bands : List (Nat × Nat × Nat)
  clock : Nat
  failed : List Nat
  deriving DecidableEq, Repr

def Video.fresh : Video := ⟨[], [], 0, []⟩

/-! ## Power and temperature (R333 to R352, R409 to R411) -/

structure Power where
  /-- There is a supply: the device is not OFF (Table EX-4). -/
  supply : Bool
  /-- A sensor has tripped, and the second half has not started since (R411). -/
  tripped : Bool
  /-- When the input left 44 to 58 V, and whether INPUT_RANGE has been logged for the excursion. -/
  outSince : Option Nat
  outTold : Bool
  /-- Highest LOAD_INDEX of each island since its last calibration (R340). -/
  peak : Store Nat
  /-- Islands being quiesced for a reset. -/
  quiescing : List Nat
  /-- Wake latches set. -/
  latches : List Nat
  /-- Spare phases and backup clocks in use, islands failed. -/
  phasesUsed : List Nat
  clocksUsed : List Nat
  dead : List Nat
  /-- Sensors at or above their warning threshold, (kind, index), and the last reading of each, (kind, index, °C). -/
  warned : List (Nat × Nat)
  temps : List (Nat × Nat × Nat)
  /-- The power change or warm reset for which the device quiesces: 0 none, 1 standby, 2 warm reset. -/
  purpose : Nat
  /-- The second half of cold boot is to run (R381). -/
  starting : Bool
  /-- Requests answered RETRY, by the crossing's island. -/
  retries : List (Nat × Instr)
  /-- The 7-bit SMBus address (R407). -/
  smbus : Nat
  deriving DecidableEq, Repr

def Power.fresh : Power := ⟨false, false, none, false, [], [], [], [], [], [], [], [], 0, false, [], 0x67⟩

/-! ## Mailboxes (R361 to R368) -/

/-- A notice in flight on a channel (POSTED or TAKEN). -/
structure Notice where
  chan : Nat
  ptr : Nat
  len : Nat
  op : Nat
  seq : Nat
  epoch : Nat
  /-- Who posted it: 0 the host, 1 the system controller, 2 a management session. -/
  who : Nat
  deriving DecidableEq, Repr

/-- What a target's firmware was told of its own notices: (channel, code). -/
structure Mail where
  notices : List Notice
  /-- The secure controller's 1 MiB message store. -/
  store : Store Byte
  targetAcks : List (Nat × Nat)
  /-- Host-side staging of channels whose doorbell has not been rung since the last write. -/
  staged : List Nat
  deriving DecidableEq, Repr

def Mail.fresh : Mail := ⟨[], [], [], []⟩

/-! ## Keys, tokens, firmware and management (R378 to R396) -/

/-- A debug token in force (R389): requester 0 host, 1 system controller, 2 management session. -/
structure Token where
  who : Nat
  facilities : Nat
  slot : Nat
  expires : Nat
  deriving DecidableEq, Repr

structure Nonce where
  who : Nat
  value : Nat
  expires : Nat
  deriving DecidableEq, Repr

/-- The sealed model key (R387). -/
structure ModelKey where
  xts : List Byte
  transfer : List Byte
  model : Nat
  deriving DecidableEq, Repr

structure Security where
  tokens : List Token
  nonces : List Nonce
  /-- SECURITY_POLICY bytes of the last KIND 0 image committed; empty: the factory policy (R388). -/
  standing : List Byte
  owners : List (Nat × List Byte)
  counter : Nat
  modelKey : Option ModelKey
  keyLoaded : Bool
  /-- Firmware slots A and B, and a bundle in transfer to the inactive one. -/
  bundleA : List Byte
  bundleB : List Byte
  active : Nat
  /-- A bundle is verified and waits. -/
  verified : Bool
  /-- Structure-image slots A and B and the one marked for boot. -/
  imageA : List Byte
  imageB : List Byte
  bootImage : Nat
  autoStart : Bool
  /-- Secured SPDM sessions open (R393). -/
  sessions : Nat
  /-- Key slots of the cipher engines that hold context keys. -/
  slots : List Nat
  /-- The device patch key exists (generated at the first cold boot). -/
  patchKey : Bool
  recovery : Bool
  /-- ActivateFirmware has been taken and activation waits for a full Lull (R395). -/
  activate : Bool
  /-- The slot that holds the bundle verified. -/
  staged : Nat
  deriving DecidableEq, Repr

def Security.fresh : Security :=
  ⟨[], [], [], [], 0, none, false, [], [], 0, false, [], [], 0, false, 0, [], false, false, false, 0⟩

end Sys2Proof.Machine
end

