-- ==== Sys2Proof/Machine/RegMap.lean ====
section
/-! DEFINITION. The registers of BAR0 as the spec's register tables give them (R6 to R10, R415 and each chapter's own tables):
name, address, fields with access code, reset value and range, and the condition under which a write is taken. -/

namespace Sys2Proof.Machine

open Sys2Proof

/-- Table SC-4's access codes. -/
inductive Access where
  | ro | rw | w1c | w1s | rc | wo | rwl
  deriving DecidableEq, Repr

/-- What a field does with a value outside the range the spec states for it (R415). -/
inductive Range where
  /-- Every value is stored. -/
  | any
  /-- Outside lo to hi the write is ignored. -/
  | keep (lo hi : Nat)
  /-- Outside lo to hi the field reads back the third value. -/
  | back (lo hi v : Nat)
  /-- The 64-bit value of the pair must be a multiple. -/
  | align (n : Nat)
  /-- DEFAULT_N (Table PG-7): 0 or 8 to 1,024; other values read back as 64. -/
  | guardN
  deriving DecidableEq, Repr

/-- When a write to the register is taken. -/
inductive Gate where
  /-- At any time. -/
  | none
  /-- A BAR4 base: rounded down to the size of the aperture (R358). -/
  | bar4
  /-- A requester page of the mailboxes (R362). -/
  | notice
  | secureNotice
  /-- Answered to secure requesters only (R359). -/
  | secure
  /-- An interrupt source: secure-only where Table HST-7 says so (R374). -/
  | irqSrc
  /-- The context is OPEN and has had no submission (R73). -/
  | ring
  /-- The context is OPEN. -/
  | ctxOpen
  /-- READY with no context OPEN (R176). -/
  | config
  /-- Locked by a KIND 0 commit (R45). -/
  | rwl
  /-- An authorized debug requester (R360). -/
  | debug
  /-- The banking group registers of a context (R302). -/
  | bankGroup
  deriving DecidableEq, Repr

/-- Is the register half of a _LO/_HI pair (R10)? -/
inductive Half where
  | single | lo | hi
  deriving DecidableEq, Repr

structure Field where
  hi : Nat
  lo : Nat
  acc : Access
  reset : Nat
  range : Range
  deriving DecidableEq, Repr

structure RegDef where
  name : String
  base : Nat
  stride : Nat
  count : Nat
  fields : List Field
  half : Half
  gate : Gate
  /-- A write to it is a command of its own row. -/
  ownWrite : Bool
  deriving DecidableEq, Repr

/-- Registers of the GLB block. -/
def regsGLB0 : List RegDef := [
  ⟨"GLB_PART_ID", 0x0, 0, 1, [⟨15, 0, .ro, 4132, .any⟩, ⟨23, 16, .ro, 3, .any⟩], .single, .none, false⟩,
  ⟨"GLB_STEPPING", 0x4, 0, 1, [⟨7, 0, .ro, 16, .any⟩], .single, .none, false⟩,
  ⟨"GLB_PROFILE", 0x10, 0, 1, [⟨10, 0, .ro, 0, .any⟩, ⟨11, 11, .ro, 0, .any⟩, ⟨12, 12, .ro, 0, .any⟩], .single, .none, false⟩,
  ⟨"GLB_RESOURCES", 0x14, 0, 1, [⟨5, 0, .ro, 0, .any⟩, ⟨9, 6, .ro, 0, .any⟩, ⟨12, 10, .ro, 0, .any⟩], .single, .none, false⟩,
  ⟨"GLB_HBM_PAGES", 0x18, 0, 1, [⟨19, 0, .ro, 0, .any⟩], .single, .none, false⟩,
  ⟨"GLB_HOST_LINK", 0x40, 0, 1, [⟨2, 0, .ro, 0, .any⟩, ⟨7, 3, .ro, 0, .any⟩, ⟨8, 8, .ro, 0, .any⟩, ⟨9, 9, .ro, 0, .any⟩, ⟨10, 10, .ro, 0, .any⟩, ⟨12, 11, .ro, 0, .any⟩], .single, .none, false⟩,
  ⟨"GLB_HOST_EPOCH", 0x44, 0, 1, [⟨31, 0, .ro, 0, .any⟩], .single, .none, false⟩,
  ⟨"GLB_DMA_STALL_TIMEOUT", 0x48, 0, 1, [⟨13, 0, .rw, 50, .back 1 10000 50⟩], .single, .none, false⟩,
  ⟨"GLB_DMA_CONTROL", 0x4C, 0, 1, [⟨2, 0, .wo, 0, .any⟩], .single, .none, true⟩,
  ⟨"GLB_DMA_SUSP", 0x50, 16, 3, [⟨0, 0, .ro, 0, .any⟩, ⟨8, 1, .ro, 0, .any⟩, ⟨9, 9, .ro, 0, .any⟩], .single, .none, false⟩,
  ⟨"GLB_DMA_SUSP_BYTES", 0x54, 16, 3, [⟨31, 0, .ro, 0, .any⟩], .single, .none, false⟩,
  ⟨"GLB_DMA_SUSP_ADDR_LO", 0x58, 16, 3, [⟨31, 0, .ro, 0, .any⟩], .lo, .none, false⟩,
  ⟨"GLB_DMA_SUSP_ADDR_HI", 0x5C, 16, 3, [⟨31, 0, .ro, 0, .any⟩], .hi, .none, false⟩,
  ⟨"GLB_DMA_RECORDS_LOST", 0x80, 0, 1, [⟨31, 0, .rc, 0, .any⟩], .single, .none, false⟩,
  ⟨"GLB_ACCESS_DENIED", 0x84, 0, 1, [⟨31, 0, .rc, 0, .any⟩], .single, .none, false⟩,
  ⟨"GLB_ACCESS_LAST", 0x88, 0, 1, [⟨15, 0, .ro, 0, .any⟩], .single, .none, false⟩,
  ⟨"GLB_ACCESS_LAST_ADDR", 0x8C, 0, 1, [⟨25, 0, .ro, 0, .any⟩], .single, .none, false⟩,
  ⟨"GLB_BAR4_BASE_LO", 0x90, 0, 1, [⟨31, 0, .rw, 0, .any⟩], .lo, .bar4, false⟩,
  ⟨"GLB_BAR4_BASE_HI", 0x94, 0, 1, [⟨7, 0, .rw, 0, .any⟩], .hi, .bar4, false⟩,
  ⟨"GLB_BAR4_REFUSED", 0x98, 0, 1, [⟨31, 0, .rc, 0, .any⟩], .single, .none, false⟩,
  ⟨"GLB_BOOT_STATUS", 0x100, 0, 1, [⟨0, 0, .ro, 0, .any⟩, ⟨1, 1, .ro, 0, .any⟩, ⟨2, 2, .ro, 0, .any⟩, ⟨3, 3, .ro, 0, .any⟩, ⟨11, 8, .ro, 0, .any⟩, ⟨31, 16, .ro, 0, .any⟩], .single, .none, false⟩,
  ⟨"GLB_FW_VERSION", 0x104, 0, 1, [⟨31, 0, .ro, 0, .any⟩], .single, .none, false⟩,
  ⟨"GLB_FW_SECURITY", 0x108, 0, 1, [⟨31, 0, .ro, 0, .any⟩], .single, .none, false⟩,
  ⟨"GLB_BOOT_TIME", 0x10C, 0, 1, [⟨23, 0, .ro, 0, .any⟩], .single, .none, false⟩]

/-- Registers of the GLB block (continued). -/
def regsGLB1 : List RegDef := [
  ⟨"GLB_UID", 0x110, 4, 4, [⟨31, 0, .ro, 0, .any⟩], .single, .none, false⟩,
  ⟨"GLB_OWNER_SLOTS", 0x120, 0, 1, [⟨0, 0, .ro, 1, .any⟩, ⟨4, 1, .ro, 0, .any⟩, ⟨11, 8, .ro, 0, .any⟩], .single, .none, false⟩,
  ⟨"GLB_DEBUG_STATE", 0x124, 0, 1, [⟨2, 0, .ro, 0, .any⟩, ⟨5, 3, .ro, 0, .any⟩, ⟨31, 16, .ro, 0, .any⟩], .single, .none, false⟩,
  ⟨"GLB_FW_STAGED", 0x128, 0, 1, [⟨1, 0, .ro, 0, .any⟩, ⟨31, 16, .ro, 0, .any⟩], .single, .none, false⟩]

/-- Registers of the SIL block. -/
def regsSIL0 : List RegDef := [
  ⟨"SIL_CONTROL", 0x100000, 0, 1, [⟨0, 0, .wo, 0, .any⟩, ⟨1, 1, .wo, 0, .any⟩, ⟨3, 2, .rw, 0, .any⟩, ⟨4, 4, .rw, 0, .any⟩], .single, .none, true⟩,
  ⟨"SIL_STATUS", 0x100004, 0, 1, [⟨2, 0, .ro, 0, .any⟩, ⟨3, 3, .ro, 0, .any⟩, ⟨4, 4, .ro, 0, .any⟩, ⟨5, 5, .ro, 0, .any⟩, ⟨6, 6, .w1c, 0, .any⟩, ⟨31, 16, .ro, 0, .any⟩], .single, .none, false⟩,
  ⟨"SIL_FAIL_DETAIL", 0x100008, 0, 1, [⟨3, 0, .ro, 0, .any⟩, ⟨9, 4, .ro, 0, .any⟩, ⟨31, 10, .ro, 0, .any⟩], .single, .none, false⟩,
  ⟨"SIL_SRC_ADDR_LO", 0x100010, 0, 1, [⟨31, 0, .rw, 0, .any⟩], .lo, .none, false⟩,
  ⟨"SIL_SRC_ADDR_HI", 0x100014, 0, 1, [⟨31, 0, .rw, 0, .any⟩], .hi, .none, false⟩,
  ⟨"SIL_LENGTH", 0x100018, 0, 1, [⟨24, 0, .rw, 0, .any⟩], .single, .none, false⟩,
  ⟨"SIL_ACTIVE_SERIAL_LO", 0x100020, 0, 1, [⟨31, 0, .ro, 0, .any⟩], .lo, .none, false⟩,
  ⟨"SIL_ACTIVE_SERIAL_HI", 0x100024, 0, 1, [⟨31, 0, .ro, 0, .any⟩], .hi, .none, false⟩,
  ⟨"SIL_MODEL_ID_LO", 0x100028, 0, 1, [⟨31, 0, .ro, 0, .any⟩], .lo, .none, false⟩,
  ⟨"SIL_MODEL_ID_HI", 0x10002C, 0, 1, [⟨31, 0, .ro, 0, .any⟩], .hi, .none, false⟩,
  ⟨"SIL_PATCH_COUNT", 0x100030, 0, 1, [⟨31, 0, .ro, 0, .any⟩], .single, .none, false⟩,
  ⟨"SIL_ROLLBACK", 0x100034, 0, 1, [⟨31, 0, .ro, 0, .any⟩], .single, .none, false⟩,
  ⟨"SIL_ACTIVE_DIGEST", 0x100040, 4, 12, [⟨31, 0, .ro, 0, .any⟩], .single, .none, false⟩]

/-- Registers of the MBN block. -/
def regsMBN0 : List RegDef := [
  ⟨"MBN_REQ_PTR_LO", 0x200000, 4096, 32, [⟨31, 0, .rw, 0, .any⟩], .lo, .notice, false⟩,
  ⟨"MBN_REQ_PTR_HI", 0x200004, 4096, 32, [⟨31, 0, .rw, 0, .any⟩], .hi, .notice, false⟩,
  ⟨"MBN_REQ_LEN", 0x200008, 4096, 32, [⟨24, 0, .rw, 0, .any⟩], .single, .notice, false⟩,
  ⟨"MBN_REQ_OP", 0x20000C, 4096, 32, [⟨15, 0, .rw, 0, .any⟩], .single, .notice, false⟩,
  ⟨"MBN_TGT_PTR_LO", 0x200020, 4096, 32, [⟨31, 0, .ro, 0, .any⟩], .lo, .notice, false⟩,
  ⟨"MBN_TGT_PTR_HI", 0x200024, 4096, 32, [⟨31, 0, .ro, 0, .any⟩], .hi, .notice, false⟩,
  ⟨"MBN_TGT_LEN", 0x200028, 4096, 32, [⟨24, 0, .ro, 0, .any⟩], .single, .notice, false⟩,
  ⟨"MBN_TGT_OP", 0x20002C, 4096, 32, [⟨15, 0, .ro, 0, .any⟩, ⟨31, 16, .ro, 0, .any⟩], .single, .notice, false⟩,
  ⟨"MBN_TGT_ACK", 0x200030, 4096, 32, [⟨15, 0, .wo, 0, .any⟩], .single, .notice, true⟩,
  ⟨"MBN_DOORBELL", 0x280000, 16, 32, [⟨15, 0, .wo, 0, .any⟩], .single, .none, true⟩,
  ⟨"MBN_ACK", 0x280004, 16, 32, [⟨15, 0, .ro, 0, .any⟩, ⟨31, 16, .ro, 0, .any⟩], .single, .none, false⟩,
  ⟨"MBN_ACK_STATE", 0x280008, 16, 32, [⟨1, 0, .ro, 0, .any⟩, ⟨2, 2, .ro, 0, .any⟩, ⟨3, 3, .w1c, 0, .any⟩, ⟨4, 4, .ro, 0, .any⟩, ⟨31, 16, .ro, 0, .any⟩], .single, .none, false⟩]

/-- Registers of the MBS block. -/
def regsMBS0 : List RegDef := [
  ⟨"MBS_REQ_PTR_LO", 0x300000, 4096, 32, [⟨31, 0, .rw, 0, .any⟩], .lo, .secureNotice, false⟩,
  ⟨"MBS_REQ_PTR_HI", 0x300004, 4096, 32, [⟨31, 0, .rw, 0, .any⟩], .hi, .secureNotice, false⟩,
  ⟨"MBS_REQ_LEN", 0x300008, 4096, 32, [⟨24, 0, .rw, 0, .any⟩], .single, .secureNotice, false⟩,
  ⟨"MBS_REQ_OP", 0x30000C, 4096, 32, [⟨15, 0, .rw, 0, .any⟩], .single, .secureNotice, false⟩,
  ⟨"MBS_TGT_PTR_LO", 0x300020, 4096, 32, [⟨31, 0, .ro, 0, .any⟩], .lo, .secureNotice, false⟩,
  ⟨"MBS_TGT_PTR_HI", 0x300024, 4096, 32, [⟨31, 0, .ro, 0, .any⟩], .hi, .secureNotice, false⟩,
  ⟨"MBS_TGT_LEN", 0x300028, 4096, 32, [⟨24, 0, .ro, 0, .any⟩], .single, .secureNotice, false⟩,
  ⟨"MBS_TGT_OP", 0x30002C, 4096, 32, [⟨15, 0, .ro, 0, .any⟩, ⟨31, 16, .ro, 0, .any⟩], .single, .secureNotice, false⟩,
  ⟨"MBS_TGT_ACK", 0x300030, 4096, 32, [⟨15, 0, .wo, 0, .any⟩], .single, .secureNotice, true⟩,
  ⟨"MBS_DOORBELL", 0x380000, 16, 32, [⟨15, 0, .wo, 0, .any⟩], .single, .secure, true⟩,
  ⟨"MBS_ACK", 0x380004, 16, 32, [⟨15, 0, .ro, 0, .any⟩, ⟨31, 16, .ro, 0, .any⟩], .single, .secure, false⟩,
  ⟨"MBS_ACK_STATE", 0x380008, 16, 32, [⟨1, 0, .ro, 0, .any⟩, ⟨2, 2, .ro, 0, .any⟩, ⟨3, 3, .w1c, 0, .any⟩, ⟨4, 4, .ro, 0, .any⟩, ⟨31, 16, .ro, 0, .any⟩], .single, .secure, false⟩]

/-- Registers of the IRQ block. -/
def regsIRQ0 : List RegDef := [
  ⟨"IRQ_SRC", 0x400000, 4, 256, [⟨6, 0, .rw, 0, .any⟩, ⟨12, 7, .rw, 0, .any⟩, ⟨13, 13, .rw, 0, .any⟩, ⟨20, 14, .ro, 0, .any⟩, ⟨27, 21, .ro, 0, .any⟩], .single, .irqSrc, false⟩,
  ⟨"IRQ_TGT_ACTIVE", 0x400400, 4, 6, [⟨7, 0, .ro, 0, .any⟩, ⟨8, 8, .ro, 0, .any⟩], .single, .none, false⟩,
  ⟨"IRQ_TGT_EOI", 0x400420, 4, 6, [⟨7, 0, .wo, 0, .any⟩], .single, .none, true⟩,
  ⟨"IRQ_HOST_VEC", 0x400500, 4, 64, [⟨7, 0, .ro, 0, .any⟩, ⟨8, 8, .ro, 0, .any⟩], .single, .none, false⟩,
  ⟨"IRQ_HOST_EOI", 0x400600, 0, 1, [⟨5, 0, .wo, 0, .any⟩], .single, .none, true⟩,
  ⟨"IRQ_MASK_LATE", 0x400604, 0, 1, [⟨31, 0, .rc, 0, .any⟩], .single, .none, false⟩]

/-- Registers of the JOB block. -/
def regsJOB0 : List RegDef := [
  ⟨"JOB_DEVICE_STATE", 0x800000, 0, 1, [⟨2, 0, .ro, 1, .any⟩, ⟨3, 3, .ro, 0, .any⟩, ⟨4, 4, .ro, 0, .any⟩, ⟨15, 5, .ro, 0, .any⟩, ⟨31, 16, .ro, 0, .any⟩], .single, .none, false⟩,
  ⟨"JOB_LULL_WATCHDOG", 0x800004, 0, 1, [⟨23, 0, .rw, 10000, .any⟩], .single, .none, false⟩,
  ⟨"JOB_LATE_UNIT", 0x800008, 0, 1, [⟨7, 0, .ro, 0, .any⟩, ⟨31, 16, .ro, 61440, .any⟩], .single, .none, false⟩,
  ⟨"JOB_CTX_CREATE", 0x800010, 0, 1, [⟨5, 0, .wo, 0, .any⟩], .single, .none, true⟩,
  ⟨"JOB_CTX_CREATE_RESULT", 0x800014, 0, 1, [⟨7, 0, .ro, 0, .any⟩, ⟨31, 16, .ro, 0, .any⟩], .single, .none, false⟩,
  ⟨"JOB_GUARD_DEFAULTS", 0x800040, 0, 1, [⟨10, 0, .rw, 64, .guardN⟩, ⟨31, 16, .rw, 15616, .any⟩], .single, .none, false⟩,
  ⟨"JOB_GUARD_HW_EVENT", 0x800044, 0, 1, [⟨10, 0, .ro, 2047, .any⟩, ⟨11, 11, .ro, 0, .any⟩, ⟨19, 12, .ro, 0, .any⟩, ⟨29, 20, .ro, 0, .any⟩], .single, .none, false⟩,
  ⟨"JOB_GUARD_HW_COUNT", 0x800048, 0, 1, [⟨31, 0, .rc, 0, .any⟩], .single, .none, false⟩,
  ⟨"JOB_GUARD_DEFAULT_K", 0x80004C, 0, 1, [⟨7, 0, .rw, 16, .any⟩], .single, .none, false⟩,
  ⟨"JOB_CTX_STATE", 0x810000, 256, 256, [⟨2, 0, .ro, 0, .any⟩, ⟨8, 3, .ro, 0, .any⟩, ⟨9, 9, .ro, 0, .any⟩, ⟨31, 16, .ro, 0, .any⟩], .single, .none, false⟩,
  ⟨"JOB_CTX_CONTROL", 0x810004, 256, 256, [⟨0, 0, .wo, 0, .any⟩, ⟨1, 1, .wo, 0, .any⟩], .single, .none, true⟩,
  ⟨"JOB_CTX_RING_LO", 0x810008, 256, 256, [⟨31, 0, .rw, 0, .any⟩], .lo, .ring, false⟩,
  ⟨"JOB_CTX_RING_HI", 0x81000C, 256, 256, [⟨31, 0, .rw, 0, .align 4096⟩], .hi, .ring, false⟩,
  ⟨"JOB_CTX_RING_TAIL", 0x810010, 256, 256, [⟨31, 0, .ro, 0, .any⟩], .single, .none, false⟩,
  ⟨"JOB_CTX_RING_HEAD", 0x810014, 256, 256, [⟨31, 0, .rw, 0, .any⟩], .single, .none, true⟩,
  ⟨"JOB_CTX_LULL_RING_LO", 0x810018, 256, 256, [⟨31, 0, .rw, 0, .any⟩], .lo, .ring, false⟩,
  ⟨"JOB_CTX_LULL_RING_HI", 0x81001C, 256, 256, [⟨31, 0, .rw, 0, .align 4096⟩], .hi, .ring, false⟩,
  ⟨"JOB_CTX_LULL_RING_SIZE", 0x810020, 256, 256, [⟨4, 0, .rw, 6, .keep 6 16⟩], .single, .ring, false⟩,
  ⟨"JOB_CTX_SUBMIT_LO", 0x810028, 256, 256, [⟨31, 0, .wo, 0, .any⟩], .lo, .none, false⟩,
  ⟨"JOB_CTX_SUBMIT_HI", 0x81002C, 256, 256, [⟨31, 0, .wo, 0, .any⟩], .hi, .none, true⟩,
  ⟨"JOB_CTX_SUBMIT_RESULT", 0x810030, 256, 256, [⟨15, 0, .ro, 0, .any⟩], .single, .none, false⟩,
  ⟨"JOB_CTX_SUBMIT_JOB", 0x810034, 256, 256, [⟨31, 0, .ro, 0, .any⟩], .single, .none, false⟩,
  ⟨"JOB_CTX_ABORT", 0x810038, 256, 256, [⟨31, 0, .wo, 0, .any⟩], .single, .none, true⟩,
  ⟨"JOB_CTX_ABORT_RESULT", 0x81003C, 256, 256, [⟨1, 0, .ro, 0, .any⟩], .single, .none, false⟩]

/-- Registers of the JOB block (continued). -/
def regsJOB1 : List RegDef := [
  ⟨"JOB_CTX_SUBMITTED", 0x810040, 256, 256, [⟨31, 0, .ro, 0, .any⟩], .single, .none, false⟩,
  ⟨"JOB_CTX_COMPLETED", 0x810044, 256, 256, [⟨31, 0, .ro, 0, .any⟩], .single, .none, false⟩,
  ⟨"JOB_CTX_REFUSED", 0x810048, 256, 256, [⟨31, 0, .ro, 0, .any⟩], .single, .none, false⟩,
  ⟨"JOB_CTX_ABORTED", 0x81004C, 256, 256, [⟨31, 0, .ro, 0, .any⟩], .single, .none, false⟩,
  ⟨"JOB_CTX_FAULTED", 0x810050, 256, 256, [⟨31, 0, .ro, 0, .any⟩], .single, .none, false⟩,
  ⟨"JOB_CTX_QUEUE_DEPTH", 0x810054, 256, 256, [⟨10, 0, .ro, 0, .any⟩], .single, .none, false⟩,
  ⟨"JOB_CTX_FAULT_DETAIL", 0x810058, 256, 256, [⟨15, 0, .ro, 0, .any⟩, ⟨19, 16, .ro, 0, .any⟩, ⟨30, 20, .ro, 0, .any⟩, ⟨31, 31, .ro, 0, .any⟩], .single, .none, false⟩,
  ⟨"JOB_CTX_PAGE_PORT_LO", 0x810060, 256, 256, [⟨31, 0, .rw, 0, .any⟩], .lo, .ring, false⟩,
  ⟨"JOB_CTX_PAGE_PORT_HI", 0x810064, 256, 256, [⟨31, 0, .rw, 0, .align 2097152⟩], .hi, .ring, false⟩,
  ⟨"JOB_CTX_KV_REFS", 0x810068, 256, 256, [⟨20, 0, .ro, 0, .any⟩], .single, .none, false⟩,
  ⟨"JOB_CTX_KV_CMD_0", 0x810070, 256, 256, [⟨31, 0, .wo, 0, .any⟩], .single, .none, false⟩,
  ⟨"JOB_CTX_KV_CMD_1", 0x810074, 256, 256, [⟨31, 0, .wo, 0, .any⟩], .single, .none, false⟩,
  ⟨"JOB_CTX_KV_CMD_2", 0x810078, 256, 256, [⟨31, 0, .wo, 0, .any⟩], .single, .none, false⟩,
  ⟨"JOB_CTX_KV_CMD_3", 0x81007C, 256, 256, [⟨31, 0, .wo, 0, .any⟩], .single, .none, false⟩,
  ⟨"JOB_CTX_KV_RESULT", 0x810080, 256, 256, [⟨15, 0, .ro, 0, .any⟩], .single, .none, false⟩,
  ⟨"JOB_CTX_KV_RESULT_PAGE", 0x810084, 256, 256, [⟨31, 0, .ro, 0, .any⟩], .single, .none, false⟩,
  ⟨"JOB_CTX_KV_FAULT", 0x810088, 256, 256, [⟨9, 0, .ro, 0, .any⟩, ⟨12, 10, .ro, 0, .any⟩, ⟨31, 16, .ro, 0, .any⟩], .single, .none, false⟩,
  ⟨"JOB_CTX_KV_FAULT_PAGE", 0x81008C, 256, 256, [⟨31, 0, .ro, 0, .any⟩], .single, .none, false⟩,
  ⟨"JOB_CTX_TIER_PORT_LO", 0x810090, 256, 256, [⟨31, 0, .rw, 0, .any⟩], .lo, .ring, false⟩,
  ⟨"JOB_CTX_TIER_PORT_HI", 0x810094, 256, 256, [⟨31, 0, .rw, 0, .align 2097152⟩], .hi, .ring, false⟩,
  ⟨"JOB_CTX_TIER_CMD_0", 0x810098, 256, 256, [⟨31, 0, .wo, 0, .any⟩], .single, .ctxOpen, false⟩,
  ⟨"JOB_CTX_TIER_CMD_1", 0x81009C, 256, 256, [⟨31, 0, .wo, 0, .any⟩], .single, .ctxOpen, false⟩,
  ⟨"JOB_CTX_TIER_CMD_2", 0x8100A0, 256, 256, [⟨31, 0, .wo, 0, .any⟩], .single, .ctxOpen, false⟩,
  ⟨"JOB_CTX_TIER_CMD_3", 0x8100A4, 256, 256, [⟨31, 0, .wo, 0, .any⟩], .single, .ctxOpen, false⟩]

/-- Registers of the JOB block (continued). -/
def regsJOB2 : List RegDef := [
  ⟨"JOB_CTX_TIER_CMD_4", 0x8100A8, 256, 256, [⟨31, 0, .wo, 0, .any⟩], .single, .ctxOpen, false⟩,
  ⟨"JOB_CTX_TIER_CMD_5", 0x8100AC, 256, 256, [⟨31, 0, .wo, 0, .any⟩], .single, .ctxOpen, false⟩,
  ⟨"JOB_CTX_TIER_CMD_6", 0x8100B0, 256, 256, [⟨31, 0, .wo, 0, .any⟩], .single, .ctxOpen, false⟩,
  ⟨"JOB_CTX_TIER_CMD_7", 0x8100B4, 256, 256, [⟨31, 0, .wo, 0, .any⟩], .single, .ctxOpen, false⟩,
  ⟨"JOB_CTX_TIER_RESULT", 0x8100B8, 256, 256, [⟨15, 0, .ro, 0, .any⟩], .single, .none, false⟩,
  ⟨"JOB_CTX_TIER_RESULT_HANDLE_LO", 0x8100BC, 256, 256, [⟨31, 0, .ro, 0, .any⟩], .lo, .none, false⟩,
  ⟨"JOB_CTX_TIER_RESULT_HANDLE_HI", 0x8100C0, 256, 256, [⟨31, 0, .ro, 0, .any⟩], .hi, .none, false⟩,
  ⟨"JOB_CTX_TIER_LAST", 0x8100C4, 256, 256, [⟨15, 0, .ro, 0, .any⟩, ⟨25, 16, .ro, 0, .any⟩], .single, .none, false⟩,
  ⟨"JOB_CTX_TIER_CHARGE_0", 0x8100C8, 256, 256, [⟨31, 0, .ro, 0, .any⟩], .single, .none, false⟩,
  ⟨"JOB_CTX_TIER_CHARGE_1", 0x8100CC, 256, 256, [⟨31, 0, .ro, 0, .any⟩], .single, .none, false⟩,
  ⟨"JOB_CTX_TIER_CHARGE_2", 0x8100D0, 256, 256, [⟨31, 0, .ro, 0, .any⟩], .single, .none, false⟩,
  ⟨"JOB_CTX_TIER_CHARGE_3", 0x8100D4, 256, 256, [⟨31, 0, .ro, 0, .any⟩], .single, .none, false⟩,
  ⟨"JOB_CTX_MAP_FAULT_VA_LO", 0x8100D8, 256, 256, [⟨31, 0, .ro, 0, .any⟩], .lo, .none, false⟩,
  ⟨"JOB_CTX_MAP_FAULT_VA_HI", 0x8100DC, 256, 256, [⟨15, 0, .ro, 0, .any⟩], .hi, .none, false⟩,
  ⟨"JOB_CTX_TIER_RESULT_ADDR_LO", 0x8100E0, 256, 256, [⟨31, 0, .ro, 0, .any⟩], .lo, .none, false⟩,
  ⟨"JOB_CTX_TIER_RESULT_ADDR_HI", 0x8100E4, 256, 256, [⟨7, 0, .ro, 0, .any⟩], .hi, .none, false⟩,
  ⟨"JOB_CTX_COLL_FALLBACK", 0x8100E8, 256, 256, [⟨31, 0, .ro, 0, .any⟩], .single, .none, false⟩,
  ⟨"JOB_CTX_SYNC_OBJECTS", 0x8100EC, 256, 256, [⟨12, 0, .ro, 0, .any⟩], .single, .none, false⟩,
  ⟨"JOB_CORE_STATUS", 0x900000, 256, 1088, [⟨2, 0, .ro, 0, .any⟩, ⟨14, 4, .ro, 2047, .any⟩, ⟨23, 16, .ro, 0, .any⟩], .single, .none, false⟩,
  ⟨"JOB_CORE_FLAGS", 0x900004, 256, 1088, [⟨3, 0, .ro, 0, .any⟩, ⟨7, 4, .ro, 0, .any⟩, ⟨11, 8, .ro, 0, .any⟩], .single, .none, false⟩,
  ⟨"JOB_CORE_MMA_BUSY_LO", 0x900010, 256, 1088, [⟨31, 0, .ro, 0, .any⟩], .lo, .none, false⟩,
  ⟨"JOB_CORE_MMA_BUSY_HI", 0x900014, 256, 1088, [⟨31, 0, .ro, 0, .any⟩], .hi, .none, false⟩,
  ⟨"JOB_CORE_WSTALL_LO", 0x900018, 256, 1088, [⟨31, 0, .ro, 0, .any⟩], .lo, .none, false⟩,
  ⟨"JOB_CORE_WSTALL_HI", 0x90001C, 256, 1088, [⟨31, 0, .ro, 0, .any⟩], .hi, .none, false⟩]

/-- Registers of the JOB block (continued). -/
def regsJOB3 : List RegDef := [
  ⟨"JOB_CORE_PSTALL_LO", 0x900020, 256, 1088, [⟨31, 0, .ro, 0, .any⟩], .lo, .none, false⟩,
  ⟨"JOB_CORE_PSTALL_HI", 0x900024, 256, 1088, [⟨31, 0, .ro, 0, .any⟩], .hi, .none, false⟩,
  ⟨"JOB_CORE_LFSR", 0x900028, 256, 1088, [⟨31, 0, .ro, 0, .any⟩], .single, .none, false⟩,
  ⟨"JOB_CORE_PROGRAM", 0x90002C, 256, 1088, [⟨15, 0, .ro, 0, .any⟩, ⟨31, 16, .ro, 0, .any⟩], .single, .none, false⟩,
  ⟨"JOB_CORE_GUARD_CHECKS", 0x900030, 256, 1088, [⟨31, 0, .ro, 0, .any⟩], .single, .none, false⟩,
  ⟨"JOB_CORE_GUARD_MISSES", 0x900034, 256, 1088, [⟨31, 0, .ro, 0, .any⟩], .single, .none, false⟩,
  ⟨"JOB_CORE_GUARD_DROPPED", 0x900038, 256, 1088, [⟨31, 0, .ro, 0, .any⟩], .single, .none, false⟩,
  ⟨"JOB_CORE_SIDESTALL_LO", 0x900040, 256, 1088, [⟨31, 0, .ro, 0, .any⟩], .lo, .none, false⟩,
  ⟨"JOB_CORE_SIDESTALL_HI", 0x900044, 256, 1088, [⟨31, 0, .ro, 0, .any⟩], .hi, .none, false⟩,
  ⟨"JOB_CORE_CONV_VECTORS_LO", 0x900048, 256, 1088, [⟨31, 0, .ro, 0, .any⟩], .lo, .none, false⟩,
  ⟨"JOB_CORE_CONV_VECTORS_HI", 0x90004C, 256, 1088, [⟨31, 0, .ro, 0, .any⟩], .hi, .none, false⟩,
  ⟨"JOB_CORE_CONV_PADDED", 0x900050, 256, 1088, [⟨31, 0, .ro, 0, .any⟩], .single, .none, false⟩,
  ⟨"JOB_CORE_CONV_EMPTY", 0x900054, 256, 1088, [⟨31, 0, .ro, 0, .any⟩], .single, .none, false⟩,
  ⟨"JOB_CORE_SOFTMAX_RANGE", 0x900058, 256, 1088, [⟨31, 0, .ro, 0, .any⟩], .single, .none, false⟩,
  ⟨"JOB_CORE_VEC_BUSY_LO", 0x900060, 256, 1088, [⟨31, 0, .ro, 0, .any⟩], .lo, .none, false⟩,
  ⟨"JOB_CORE_VEC_BUSY_HI", 0x900064, 256, 1088, [⟨31, 0, .ro, 0, .any⟩], .hi, .none, false⟩]

/-- Registers of the REL block. -/
def regsREL0 : List RegDef := [
  ⟨"REL_LOG_SEQ", 0x1000000, 0, 1, [⟨31, 0, .ro, 0, .any⟩], .single, .none, false⟩,
  ⟨"REL_LOG_RING_LO", 0x1000004, 0, 1, [⟨31, 0, .rw, 0, .any⟩], .lo, .none, false⟩,
  ⟨"REL_LOG_RING_HI", 0x1000008, 0, 1, [⟨31, 0, .rw, 0, .align 4096⟩], .hi, .none, false⟩,
  ⟨"REL_LOG_RING_SIZE", 0x100000C, 0, 1, [⟨4, 0, .rw, 6, .keep 6 16⟩], .single, .none, false⟩,
  ⟨"REL_AGING_THRESHOLD", 0x1000010, 0, 1, [⟨7, 0, .rwl, 12, .any⟩], .single, .rwl, false⟩,
  ⟨"REL_UNDO_CONFIG", 0x1000014, 0, 1, [⟨3, 0, .rw, 0, .any⟩, ⟨4, 4, .rw, 0, .any⟩, ⟨27, 8, .rw, 0, .any⟩], .single, .config, false⟩,
  ⟨"REL_UNDO_USED", 0x1000018, 0, 1, [⟨19, 0, .ro, 0, .any⟩], .single, .none, false⟩,
  ⟨"REL_STRIPE_STATUS", 0x100001C, 0, 1, [⟨1, 0, .ro, 0, .any⟩, ⟨10, 2, .ro, 0, .any⟩], .single, .none, false⟩,
  ⟨"REL_STRIPE_CONTROL", 0x1000020, 0, 1, [⟨0, 0, .wo, 0, .any⟩], .single, .none, true⟩,
  ⟨"REL_REBUILD_STATUS", 0x1000024, 0, 1, [⟨1, 0, .ro, 0, .any⟩, ⟨31, 16, .ro, 0, .any⟩], .single, .none, false⟩,
  ⟨"REL_REBUILD_BYTES_LO", 0x1000028, 0, 1, [⟨31, 0, .ro, 0, .any⟩], .lo, .none, false⟩,
  ⟨"REL_REBUILD_BYTES_HI", 0x100002C, 0, 1, [⟨31, 0, .ro, 0, .any⟩], .hi, .none, false⟩,
  ⟨"REL_REBUILD_RATE", 0x1000030, 0, 1, [⟨15, 0, .rw, 200, .back 50 400 200⟩], .single, .none, false⟩,
  ⟨"REL_REPLAY_CONTROL", 0x1000034, 0, 1, [⟨7, 0, .wo, 0, .any⟩, ⟨9, 8, .wo, 0, .any⟩], .single, .none, true⟩,
  ⟨"REL_REPLAY_RESULT", 0x1000038, 0, 1, [⟨15, 0, .ro, 0, .any⟩], .single, .none, false⟩,
  ⟨"REL_REPLAY_QUIET_US", 0x100003C, 0, 1, [⟨15, 0, .rw, 1000, .any⟩], .single, .none, false⟩,
  ⟨"REL_REPLAY_DROPPED", 0x1000040, 0, 1, [⟨31, 0, .ro, 0, .any⟩], .single, .none, false⟩,
  ⟨"REL_BANK_REFUSED", 0x1000044, 0, 1, [⟨31, 0, .rc, 0, .any⟩], .single, .none, false⟩,
  ⟨"REL_LEDGER_TOTAL", 0x1000100, 32, 13, [⟨31, 0, .ro, 0, .any⟩], .single, .none, false⟩,
  ⟨"REL_LEDGER_IN_SERVICE", 0x1000104, 32, 13, [⟨31, 0, .ro, 0, .any⟩], .single, .none, false⟩,
  ⟨"REL_LEDGER_SPARE", 0x1000108, 32, 13, [⟨31, 0, .ro, 0, .any⟩], .single, .none, false⟩,
  ⟨"REL_LEDGER_USED", 0x100010C, 32, 13, [⟨31, 0, .ro, 0, .any⟩], .single, .none, false⟩,
  ⟨"REL_LEDGER_RETIRED", 0x1000110, 32, 13, [⟨31, 0, .ro, 0, .any⟩], .single, .none, false⟩,
  ⟨"REL_LEDGER_PREDICTED", 0x1000114, 32, 13, [⟨31, 0, .ro, 0, .any⟩], .single, .none, false⟩]

/-- Registers of the REL block (continued). -/
def regsREL1 : List RegDef := [
  ⟨"REL_LOG_ENTRY", 0x1010000, 4, 8192, [⟨31, 0, .ro, 0, .any⟩], .single, .none, false⟩,
  ⟨"REL_CTX_BANK_GROUP_LO", 0x1040000, 32, 256, [⟨31, 0, .rw, 0, .any⟩], .lo, .bankGroup, false⟩,
  ⟨"REL_CTX_BANK_GROUP_HI", 0x1040004, 32, 256, [⟨31, 0, .rw, 0, .align 64⟩], .hi, .bankGroup, false⟩,
  ⟨"REL_CTX_BANK_STATE", 0x1040008, 32, 256, [⟨1, 0, .ro, 0, .any⟩], .single, .none, false⟩,
  ⟨"REL_CTX_BANK_DECIDE", 0x104000C, 32, 256, [⟨1, 0, .wo, 0, .any⟩], .single, .none, true⟩,
  ⟨"REL_CTX_BANK_STEP_LO", 0x1040010, 32, 256, [⟨31, 0, .ro, 0, .any⟩], .lo, .none, false⟩,
  ⟨"REL_CTX_BANK_STEP_HI", 0x1040014, 32, 256, [⟨15, 0, .ro, 0, .any⟩], .hi, .none, false⟩]

/-- Registers of the PWR block. -/
def regsPWR0 : List RegDef := [
  ⟨"PWR_INPUT", 0x1400000, 0, 1, [⟨15, 0, .ro, 0, .any⟩, ⟨27, 16, .ro, 0, .any⟩], .single, .none, false⟩,
  ⟨"PWR_INPUT_POWER", 0x1400004, 0, 1, [⟨15, 0, .ro, 0, .any⟩], .single, .none, false⟩,
  ⟨"PWR_INPUT_PEAK", 0x1400008, 0, 1, [⟨15, 0, .rc, 0, .any⟩], .single, .none, false⟩,
  ⟨"PWR_BUS", 0x140000C, 0, 1, [⟨11, 0, .ro, 0, .any⟩, ⟨23, 16, .ro, 0, .any⟩], .single, .none, false⟩,
  ⟨"PWR_CONTROL", 0x1400010, 0, 1, [⟨0, 0, .wo, 0, .any⟩, ⟨1, 1, .wo, 0, .any⟩], .single, .none, true⟩,
  ⟨"PWR_RECAL_PENDING", 0x1400014, 0, 1, [⟨10, 0, .ro, 0, .any⟩], .single, .none, false⟩,
  ⟨"PWR_GUARDBANDED", 0x1400018, 0, 1, [⟨10, 0, .ro, 0, .any⟩], .single, .none, false⟩,
  ⟨"PWR_IDLE_RET_US", 0x140001C, 0, 1, [⟨19, 0, .rw, 1000, .any⟩], .single, .none, false⟩,
  ⟨"PWR_PORT_LP_MASK", 0x1400020, 0, 1, [⟨31, 0, .rwl, 0, .any⟩], .single, .rwl, false⟩,
  ⟨"PWR_PORT_IDLE_US", 0x1400024, 0, 1, [⟨15, 0, .rw, 50, .back 1 65535 50⟩], .single, .none, false⟩,
  ⟨"PWR_QUIESCE_TIMEOUTS", 0x1400028, 0, 1, [⟨31, 0, .rc, 0, .any⟩], .single, .none, false⟩,
  ⟨"PWR_INPUT_EVENTS", 0x140002C, 0, 1, [⟨31, 0, .rc, 0, .any⟩], .single, .none, false⟩,
  ⟨"PWR_TEMP_MAX", 0x1400030, 0, 1, [⟨7, 0, .ro, 0, .any⟩, ⟨15, 8, .ro, 0, .any⟩, ⟨23, 16, .ro, 0, .any⟩, ⟨31, 24, .ro, 0, .any⟩], .single, .none, false⟩,
  ⟨"PWR_TRIP_CAUSE", 0x1400034, 0, 1, [⟨3, 0, .ro, 0, .any⟩, ⟨15, 4, .ro, 0, .any⟩, ⟨23, 16, .ro, 0, .any⟩], .single, .none, false⟩,
  ⟨"PWR_THERMAL_WARNINGS", 0x1400038, 0, 1, [⟨31, 0, .rc, 0, .any⟩], .single, .none, false⟩,
  ⟨"PWR_ISL_STATE", 0x1410000, 32, 1220, [⟨2, 0, .ro, 0, .any⟩, ⟨3, 3, .ro, 0, .any⟩, ⟨4, 4, .ro, 0, .any⟩, ⟨5, 5, .ro, 0, .any⟩, ⟨6, 6, .ro, 0, .any⟩, ⟨15, 8, .ro, 0, .any⟩, ⟨23, 16, .ro, 0, .any⟩, ⟨31, 24, .ro, 0, .any⟩], .single, .none, false⟩,
  ⟨"PWR_ISL_FREQ", 0x1410004, 32, 1220, [⟨11, 0, .ro, 0, .any⟩, ⟨23, 12, .ro, 0, .any⟩], .single, .none, false⟩,
  ⟨"PWR_ISL_CAL", 0x1410008, 32, 1220, [⟨11, 0, .ro, 0, .any⟩, ⟨21, 12, .ro, 0, .any⟩], .single, .none, false⟩,
  ⟨"PWR_ISL_CAL_COND", 0x141000C, 32, 1220, [⟨7, 0, .ro, 0, .any⟩, ⟨15, 8, .ro, 0, .any⟩, ⟨31, 16, .ro, 0, .any⟩], .single, .none, false⟩,
  ⟨"PWR_ISL_CAL_TIME_LO", 0x1410010, 32, 1220, [⟨31, 0, .ro, 0, .any⟩], .lo, .none, false⟩,
  ⟨"PWR_ISL_CAL_TIME_HI", 0x1410014, 32, 1220, [⟨31, 0, .ro, 0, .any⟩], .hi, .none, false⟩,
  ⟨"PWR_ISL_CONTROL", 0x1410018, 32, 1220, [⟨0, 0, .wo, 0, .any⟩, ⟨1, 1, .wo, 0, .any⟩], .single, .none, true⟩,
  ⟨"PWR_ISL_EVENTS", 0x141001C, 32, 1220, [⟨15, 0, .ro, 0, .any⟩, ⟨23, 16, .ro, 0, .any⟩, ⟨31, 24, .ro, 0, .any⟩], .single, .none, false⟩]

/-- Registers of the LNK block. -/
def regsLNK0 : List RegDef := [
  ⟨"LNK_HB_PERIOD_MS", 0x1800000, 0, 1, [⟨7, 0, .rwl, 20, .back 1 100 20⟩], .single, .rwl, false⟩,
  ⟨"LNK_HB_MISS_LIMIT", 0x1800004, 0, 1, [⟨3, 0, .rwl, 10, .keep 2 15⟩], .single, .rwl, false⟩,
  ⟨"LNK_REPLAY_TIMEOUT", 0x1800008, 0, 1, [⟨15, 0, .rw, 4000, .keep 500 65535⟩], .single, .none, false⟩,
  ⟨"LNK_ADAPT_THRESHOLD", 0x180000C, 0, 1, [⟨15, 0, .rw, 1024, .any⟩], .single, .none, false⟩,
  ⟨"LNK_DEVICE_ID", 0x1800010, 0, 1, [⟨19, 0, .ro, 1048575, .any⟩], .single, .none, false⟩,
  ⟨"LNK_ROUTE_DROPS", 0x1800014, 0, 1, [⟨31, 0, .rc, 0, .any⟩], .single, .none, false⟩,
  ⟨"LNK_PEER_UNREACHABLE", 0x1800018, 0, 1, [⟨31, 0, .rc, 0, .any⟩], .single, .none, false⟩,
  ⟨"LNK_ROUTE_SELECT", 0x1800020, 0, 1, [⟨12, 0, .rw, 0, .keep 0 4351⟩, ⟨17, 13, .rw, 0, .any⟩], .single, .none, false⟩,
  ⟨"LNK_ROUTE_DATA", 0x1800024, 0, 1, [⟨15, 0, .ro, 0, .any⟩], .single, .none, false⟩,
  ⟨"LNK_RED_STATUS", 0x1800100, 16, 4, [⟨4, 0, .ro, 0, .any⟩, ⟨5, 5, .ro, 0, .any⟩], .single, .none, false⟩,
  ⟨"LNK_RED_PIECES_LO", 0x1800104, 16, 4, [⟨31, 0, .ro, 0, .any⟩], .lo, .none, false⟩,
  ⟨"LNK_RED_PIECES_HI", 0x1800108, 16, 4, [⟨31, 0, .ro, 0, .any⟩], .hi, .none, false⟩,
  ⟨"LNK_RED_CREDIT_WAITS", 0x180010C, 16, 4, [⟨31, 0, .ro, 0, .any⟩], .single, .none, false⟩,
  ⟨"LNK_SYNC_FREE", 0x1800140, 0, 1, [⟨12, 0, .ro, 0, .any⟩], .single, .none, false⟩,
  ⟨"LNK_PORT_STATUS", 0x1810000, 256, 32, [⟨2, 0, .ro, 0, .any⟩, ⟨7, 3, .ro, 0, .any⟩, ⟨9, 8, .ro, 0, .any⟩, ⟨10, 10, .ro, 0, .any⟩, ⟨11, 11, .ro, 0, .any⟩, ⟨12, 12, .ro, 0, .any⟩, ⟨14, 13, .ro, 0, .any⟩, ⟨16, 15, .ro, 0, .any⟩], .single, .none, false⟩,
  ⟨"LNK_PORT_PARTNER", 0x1810004, 256, 32, [⟨19, 0, .ro, 0, .any⟩, ⟨23, 20, .ro, 0, .any⟩], .single, .none, false⟩,
  ⟨"LNK_PORT_LANES", 0x1810008, 256, 32, [⟨17, 0, .ro, 0, .any⟩], .single, .none, false⟩,
  ⟨"LNK_PORT_LANES_FAILED", 0x181000C, 256, 32, [⟨17, 0, .ro, 0, .any⟩], .single, .none, false⟩,
  ⟨"LNK_PORT_CAP_SENT_LO", 0x1810010, 256, 32, [⟨31, 0, .ro, 0, .any⟩], .lo, .none, false⟩,
  ⟨"LNK_PORT_CAP_SENT_HI", 0x1810014, 256, 32, [⟨31, 0, .ro, 0, .any⟩], .hi, .none, false⟩,
  ⟨"LNK_PORT_CAP_RECEIVED_LO", 0x1810018, 256, 32, [⟨31, 0, .ro, 0, .any⟩], .lo, .none, false⟩,
  ⟨"LNK_PORT_CAP_RECEIVED_HI", 0x181001C, 256, 32, [⟨31, 0, .ro, 0, .any⟩], .hi, .none, false⟩,
  ⟨"DUP_RX", 0x1810020, 256, 32, [⟨31, 0, .ro, 0, .any⟩], .single, .none, false⟩,
  ⟨"LNK_PORT_RETX", 0x1810024, 256, 32, [⟨31, 0, .ro, 0, .any⟩], .single, .none, false⟩]

/-- Registers of the LNK block (continued). -/
def regsLNK1 : List RegDef := [
  ⟨"LNK_PORT_CRC_ERR", 0x1810028, 256, 32, [⟨31, 0, .ro, 0, .any⟩], .single, .none, false⟩,
  ⟨"LNK_PORT_WINDOW_DROPS", 0x181002C, 256, 32, [⟨31, 0, .ro, 0, .any⟩], .single, .none, false⟩,
  ⟨"LNK_PORT_DOWN_COUNT", 0x1810030, 256, 32, [⟨15, 0, .ro, 0, .any⟩, ⟨31, 16, .ro, 0, .any⟩], .single, .none, false⟩,
  ⟨"LNK_PORT_SAFFRON_SHAPED", 0x1810034, 256, 32, [⟨31, 0, .ro, 0, .any⟩], .single, .none, false⟩,
  ⟨"LNK_PORT_SAFFRON_DEMOTED", 0x1810038, 256, 32, [⟨31, 0, .ro, 0, .any⟩], .single, .none, false⟩,
  ⟨"LNK_PORT_LASER", 0x181003C, 256, 32, [⟨7, 0, .ro, 0, .any⟩, ⟨15, 8, .ro, 0, .any⟩, ⟨16, 16, .ro, 0, .any⟩, ⟨17, 17, .ro, 0, .any⟩], .single, .none, false⟩,
  ⟨"LNK_PORT_TX_BYTES_LO", 0x1810040, 256, 32, [⟨31, 0, .ro, 0, .any⟩], .lo, .none, false⟩,
  ⟨"LNK_PORT_TX_BYTES_HI", 0x1810044, 256, 32, [⟨31, 0, .ro, 0, .any⟩], .hi, .none, false⟩,
  ⟨"LNK_PORT_RX_BYTES_LO", 0x1810048, 256, 32, [⟨31, 0, .ro, 0, .any⟩], .lo, .none, false⟩,
  ⟨"LNK_PORT_RX_BYTES_HI", 0x181004C, 256, 32, [⟨31, 0, .ro, 0, .any⟩], .hi, .none, false⟩,
  ⟨"LNK_PORT_CONTROL", 0x1810050, 256, 32, [⟨0, 0, .rw, 0, .any⟩, ⟨1, 1, .wo, 0, .any⟩], .single, .none, true⟩]

/-- Registers of the MEM block. -/
def regsMEM0 : List RegDef := [
  ⟨"MEM_THERMAL_CONFIG", 0x2000000, 0, 1, [⟨6, 0, .rwl, 95, .back 85 100 95⟩], .single, .rwl, false⟩,
  ⟨"MEM_ECC_CE_HBM", 0x2000010, 0, 1, [⟨31, 0, .rc, 0, .any⟩], .single, .none, false⟩,
  ⟨"MEM_ECC_UE_HBM", 0x2000014, 0, 1, [⟨31, 0, .rc, 0, .any⟩], .single, .none, false⟩,
  ⟨"MEM_ECC_CE_SRAM", 0x2000018, 0, 1, [⟨31, 0, .rc, 0, .any⟩], .single, .none, false⟩,
  ⟨"MEM_ECC_UE_SRAM", 0x200001C, 0, 1, [⟨31, 0, .rc, 0, .any⟩], .single, .none, false⟩,
  ⟨"MEM_POISON_ADDR_LO", 0x2000020, 0, 1, [⟨31, 0, .ro, 0, .any⟩], .lo, .none, false⟩,
  ⟨"MEM_POISON_ADDR_HI", 0x2000024, 0, 1, [⟨7, 0, .ro, 0, .any⟩], .hi, .none, false⟩,
  ⟨"MEM_POISON_STALLS", 0x2000028, 0, 1, [⟨31, 0, .rc, 0, .any⟩], .single, .none, false⟩,
  ⟨"MEM_PRIV_DENIED", 0x200002C, 0, 1, [⟨31, 0, .rc, 0, .any⟩], .single, .none, false⟩,
  ⟨"MEM_SCRUB_PASSES", 0x2000030, 0, 1, [⟨31, 0, .ro, 0, .any⟩], .single, .none, false⟩,
  ⟨"MEM_STACK_STATUS", 0x2000100, 16, 8, [⟨0, 0, .ro, 0, .any⟩, ⟨2, 1, .ro, 0, .any⟩, ⟨4, 3, .ro, 0, .any⟩, ⟨23, 16, .ro, 0, .any⟩, ⟨31, 24, .ro, 0, .any⟩], .single, .none, false⟩,
  ⟨"MEM_STACK_PAGES", 0x2000104, 16, 8, [⟨15, 0, .ro, 0, .any⟩, ⟨25, 16, .ro, 0, .any⟩], .single, .none, false⟩,
  ⟨"MEM_STACK_THROTTLED", 0x2000108, 16, 8, [⟨31, 0, .ro, 0, .any⟩], .single, .none, false⟩,
  ⟨"MEM_PART_WAIT_LO", 0x2000200, 16, 16, [⟨31, 0, .ro, 0, .any⟩], .lo, .none, false⟩,
  ⟨"MEM_PART_WAIT_HI", 0x2000204, 16, 16, [⟨31, 0, .ro, 0, .any⟩], .hi, .none, false⟩,
  ⟨"MEM_PART_BYTES_LO", 0x2000208, 16, 16, [⟨31, 0, .ro, 0, .any⟩], .lo, .none, false⟩,
  ⟨"MEM_PART_BYTES_HI", 0x200020C, 16, 16, [⟨31, 0, .ro, 0, .any⟩], .hi, .none, false⟩,
  ⟨"MEM_LLM_SCRATCH", 0x2000400, 16, 4, [⟨31, 0, .ro, 0, .any⟩], .single, .none, false⟩,
  ⟨"MEM_LLM_HITS", 0x2000404, 16, 4, [⟨31, 0, .ro, 0, .any⟩], .single, .none, false⟩,
  ⟨"MEM_LLM_MISSES", 0x2000408, 16, 4, [⟨31, 0, .ro, 0, .any⟩], .single, .none, false⟩,
  ⟨"MEM_LLM_WRITEBACKS", 0x200040C, 16, 4, [⟨31, 0, .ro, 0, .any⟩], .single, .none, false⟩,
  ⟨"MEM_PCH_STATUS", 0x2010000, 4, 512, [⟨1, 0, .ro, 0, .any⟩, ⟨7, 2, .ro, 0, .any⟩, ⟨15, 8, .ro, 0, .any⟩, ⟨23, 16, .ro, 0, .any⟩], .single, .none, false⟩,
  ⟨"MEM_TIER_CONFIG", 0x2600000, 0, 1, [⟨3, 0, .rw, 0, .any⟩, ⟨4, 4, .rw, 0, .any⟩, ⟨9, 5, .rw, 0, .keep 10 22⟩], .single, .config, false⟩,
  ⟨"MEM_TIER_SLACK_US", 0x2600004, 0, 1, [⟨23, 0, .rw, 1000, .any⟩], .single, .none, false⟩]

/-- Registers of the MEM block (continued). -/
def regsMEM1 : List RegDef := [
  ⟨"MEM_TIER_LATE", 0x2600008, 0, 1, [⟨31, 0, .rc, 0, .any⟩], .single, .none, false⟩,
  ⟨"MEM_TIER_FAILED", 0x260000C, 0, 1, [⟨31, 0, .rc, 0, .any⟩], .single, .none, false⟩,
  ⟨"MEM_TIER_FAIL_HANDLE_LO", 0x2600010, 0, 1, [⟨31, 0, .ro, 0, .any⟩], .lo, .none, false⟩,
  ⟨"MEM_TIER_FAIL_HANDLE_HI", 0x2600014, 0, 1, [⟨31, 0, .ro, 0, .any⟩], .hi, .none, false⟩,
  ⟨"MEM_TIER_STALE", 0x2600018, 0, 1, [⟨31, 0, .rc, 0, .any⟩], .single, .none, false⟩,
  ⟨"MEM_TIER_NOT_OWNER", 0x260001C, 0, 1, [⟨31, 0, .rc, 0, .any⟩], .single, .none, false⟩,
  ⟨"MEM_TIER_ORPHAN", 0x2600020, 0, 1, [⟨31, 0, .ro, 0, .any⟩], .single, .none, false⟩,
  ⟨"MEM_TIER_WEIGHTS_VA", 0x2600024, 0, 1, [⟨26, 0, .rw, 0, .any⟩], .single, .config, false⟩,
  ⟨"MEM_TIER_EVICTIONS", 0x2600028, 0, 1, [⟨31, 0, .ro, 0, .any⟩], .single, .none, false⟩,
  ⟨"MEM_GOLDEN_CONTROL", 0x2600030, 0, 1, [⟨0, 0, .wo, 0, .any⟩, ⟨1, 1, .wo, 0, .any⟩], .single, .none, true⟩,
  ⟨"MEM_GOLDEN_STATUS", 0x2600034, 0, 1, [⟨1, 0, .ro, 0, .any⟩, ⟨2, 2, .ro, 0, .any⟩, ⟨31, 14, .ro, 0, .any⟩], .single, .none, false⟩,
  ⟨"MEM_GOLDEN_RELOADS", 0x2600038, 0, 1, [⟨31, 0, .ro, 0, .any⟩], .single, .none, false⟩,
  ⟨"MEM_GOLDEN_LAST", 0x260003C, 0, 1, [⟨15, 0, .ro, 0, .any⟩], .single, .none, false⟩,
  ⟨"MEM_FLASH_ALLOWANCE", 0x2600040, 0, 1, [⟨14, 0, .rwl, 12288, .back 1024 16384 12288⟩], .single, .rwl, false⟩,
  ⟨"MEM_FLASH_WRITTEN_24H", 0x2600044, 0, 1, [⟨31, 0, .ro, 0, .any⟩], .single, .none, false⟩,
  ⟨"MEM_FLASH_CAPACITY", 0x2600048, 0, 1, [⟨15, 0, .ro, 0, .any⟩], .single, .none, false⟩,
  ⟨"MEM_FLASH_WEAR", 0x260004C, 0, 1, [⟨15, 0, .ro, 0, .any⟩, ⟨31, 16, .ro, 0, .any⟩], .single, .none, false⟩,
  ⟨"MEM_FLASH_RETIRED", 0x2600050, 0, 1, [⟨19, 0, .ro, 0, .any⟩], .single, .none, false⟩,
  ⟨"MEM_FLASH_PCT_USED", 0x2600054, 0, 1, [⟨7, 0, .ro, 0, .any⟩], .single, .none, false⟩,
  ⟨"MEM_FLASH_CH_STATUS", 0x2600100, 4, 16, [⟨1, 0, .ro, 0, .any⟩, ⟨6, 2, .ro, 0, .any⟩, ⟨15, 8, .ro, 0, .any⟩], .single, .none, false⟩,
  ⟨"MEM_KV_CONFIG", 0x2700000, 0, 1, [⟨3, 0, .rw, 0, .any⟩, ⟨4, 4, .rw, 0, .any⟩, ⟨9, 5, .rw, 0, .keep 10 24⟩], .single, .config, false⟩,
  ⟨"MEM_KV_IN_USE", 0x2700004, 0, 1, [⟨24, 0, .ro, 0, .any⟩], .single, .none, false⟩,
  ⟨"MEM_KV_RELEASING", 0x2700008, 0, 1, [⟨24, 0, .ro, 0, .any⟩], .single, .none, false⟩,
  ⟨"MEM_KV_ORPHANS", 0x270000C, 0, 1, [⟨24, 0, .ro, 0, .any⟩], .single, .none, false⟩]

/-- Registers of the MEM block (continued). -/
def regsMEM2 : List RegDef := [
  ⟨"MEM_KV_LOST", 0x2700010, 0, 1, [⟨31, 0, .rc, 0, .any⟩], .single, .none, false⟩,
  ⟨"MEM_KVU_COMMANDS", 0x2700100, 64, 4, [⟨31, 0, .ro, 0, .any⟩], .single, .none, false⟩,
  ⟨"MEM_KVU_PIN_WAITS", 0x2700104, 64, 4, [⟨31, 0, .ro, 0, .any⟩], .single, .none, false⟩,
  ⟨"MEM_KVU_COPY_BYTES_LO", 0x2700108, 64, 4, [⟨31, 0, .ro, 0, .any⟩], .lo, .none, false⟩,
  ⟨"MEM_KVU_COPY_BYTES_HI", 0x270010C, 64, 4, [⟨31, 0, .ro, 0, .any⟩], .hi, .none, false⟩,
  ⟨"MEM_RET_SCANNED_LO", 0x2700110, 64, 4, [⟨31, 0, .ro, 0, .any⟩], .lo, .none, false⟩,
  ⟨"MEM_RET_SCANNED_HI", 0x2700114, 64, 4, [⟨31, 0, .ro, 0, .any⟩], .hi, .none, false⟩,
  ⟨"MEM_RET_SKIPPED", 0x2700118, 64, 4, [⟨31, 0, .ro, 0, .any⟩], .single, .none, false⟩]

/-- Registers of the VID block. -/
def regsVID0 : List RegDef := [
  ⟨"VID_STATUS", 0x2800000, 0, 1, [⟨6, 0, .ro, 0, .any⟩], .single, .none, false⟩,
  ⟨"VID_EMERGENCY", 0x2800004, 0, 1, [⟨31, 0, .rc, 0, .any⟩], .single, .none, false⟩,
  ⟨"VID_DAMAGED", 0x2800008, 0, 1, [⟨31, 0, .rc, 0, .any⟩], .single, .none, false⟩,
  ⟨"VID_ENGINE", 0x2800100, 4, 16, [⟨11, 0, .ro, 0, .any⟩, ⟨13, 12, .ro, 0, .any⟩, ⟨19, 14, .ro, 0, .any⟩], .single, .none, false⟩,
  ⟨"VID_CTX_PORT_LO", 0x2810000, 64, 256, [⟨31, 0, .rw, 0, .any⟩], .lo, .ring, false⟩,
  ⟨"VID_CTX_PORT_HI", 0x2810004, 64, 256, [⟨31, 0, .rw, 0, .align 2097152⟩], .hi, .ring, false⟩,
  ⟨"VID_CTX_CMD_0", 0x2810008, 64, 256, [⟨31, 0, .wo, 0, .any⟩], .single, .ctxOpen, false⟩,
  ⟨"VID_CTX_CMD_1", 0x281000C, 64, 256, [⟨31, 0, .wo, 0, .any⟩], .single, .ctxOpen, false⟩,
  ⟨"VID_CTX_CMD_2", 0x2810010, 64, 256, [⟨31, 0, .wo, 0, .any⟩], .single, .ctxOpen, false⟩,
  ⟨"VID_CTX_CMD_3", 0x2810014, 64, 256, [⟨31, 0, .wo, 0, .any⟩], .single, .ctxOpen, false⟩,
  ⟨"VID_CTX_CMD_4", 0x2810018, 64, 256, [⟨31, 0, .wo, 0, .any⟩], .single, .ctxOpen, false⟩,
  ⟨"VID_CTX_CMD_5", 0x281001C, 64, 256, [⟨31, 0, .wo, 0, .any⟩], .single, .ctxOpen, false⟩,
  ⟨"VID_CTX_CMD_6", 0x2810020, 64, 256, [⟨31, 0, .wo, 0, .any⟩], .single, .ctxOpen, false⟩,
  ⟨"VID_CTX_CMD_7", 0x2810024, 64, 256, [⟨31, 0, .wo, 0, .any⟩], .single, .ctxOpen, false⟩,
  ⟨"VID_CTX_RESULT", 0x2810028, 64, 256, [⟨15, 0, .ro, 0, .any⟩], .single, .none, false⟩,
  ⟨"VID_CTX_RESULT_VALUE_LO", 0x281002C, 64, 256, [⟨31, 0, .ro, 0, .any⟩], .lo, .none, false⟩,
  ⟨"VID_CTX_RESULT_VALUE_HI", 0x2810030, 64, 256, [⟨31, 0, .ro, 0, .any⟩], .hi, .none, false⟩,
  ⟨"VID_CTX_LAST", 0x2810034, 64, 256, [⟨15, 0, .ro, 0, .any⟩, ⟨25, 16, .ro, 0, .any⟩], .single, .none, false⟩,
  ⟨"VID_STR_STATUS", 0x2820000, 64, 64, [⟨1, 0, .ro, 0, .any⟩, ⟨3, 2, .ro, 0, .any⟩, ⟨7, 4, .ro, 0, .any⟩, ⟨15, 8, .ro, 0, .any⟩, ⟨31, 16, .ro, 0, .any⟩], .single, .none, false⟩,
  ⟨"VID_STR_UNITS", 0x2820004, 64, 64, [⟨31, 0, .ro, 0, .any⟩], .single, .none, false⟩,
  ⟨"VID_STR_OUT_WR", 0x2820008, 64, 64, [⟨31, 0, .ro, 0, .any⟩], .single, .none, false⟩,
  ⟨"VID_STR_OUT_RD", 0x282000C, 64, 64, [⟨31, 0, .rw, 0, .any⟩], .single, .none, true⟩,
  ⟨"VID_STR_EMERGENCY", 0x2820010, 64, 64, [⟨31, 0, .ro, 0, .any⟩], .single, .none, false⟩,
  ⟨"VID_STR_DAMAGE_OFFSET", 0x2820014, 64, 64, [⟨31, 0, .ro, 0, .any⟩], .single, .none, false⟩]

/-- Registers of the VID block (continued). -/
def regsVID1 : List RegDef := [
  ⟨"VID_STR_DAMAGE_FRAME", 0x2820018, 64, 64, [⟨31, 0, .ro, 0, .any⟩], .single, .none, false⟩,
  ⟨"VID_STR_ROW_FREE", 0x282001C, 64, 64, [⟨5, 0, .wo, 0, .any⟩], .single, .none, true⟩]

/-- Registers of the DBG block. -/
def regsDBG0 : List RegDef := [
  ⟨"DBG_TG_CONTROL", 0x3100000, 64, 512, [⟨0, 0, .wo, 0, .any⟩, ⟨2, 1, .rw, 0, .any⟩, ⟨4, 3, .rw, 0, .any⟩], .single, .debug, true⟩,
  ⟨"DBG_TG_BASE", 0x3100004, 64, 512, [⟨23, 0, .rw, 0, .any⟩], .single, .debug, false⟩,
  ⟨"DBG_TG_LENGTH", 0x3100008, 64, 512, [⟨23, 0, .rw, 0, .any⟩], .single, .debug, false⟩,
  ⟨"DBG_TG_SEED_LO", 0x310000C, 64, 512, [⟨31, 0, .rw, 0, .any⟩], .lo, .debug, false⟩,
  ⟨"DBG_TG_SEED_HI", 0x3100010, 64, 512, [⟨31, 0, .rw, 0, .any⟩], .hi, .debug, false⟩,
  ⟨"DBG_TG_STATUS", 0x3100014, 64, 512, [⟨1, 0, .ro, 0, .any⟩], .single, .debug, false⟩,
  ⟨"DBG_TG_MISMATCHES", 0x3100018, 64, 512, [⟨31, 0, .ro, 0, .any⟩], .single, .debug, false⟩,
  ⟨"DBG_TG_UE", 0x310001C, 64, 512, [⟨31, 0, .ro, 0, .any⟩], .single, .debug, false⟩,
  ⟨"DBG_TG_FIRST_ERROR", 0x3100020, 64, 512, [⟨23, 0, .ro, 0, .any⟩, ⟨31, 31, .ro, 0, .any⟩], .single, .debug, false⟩,
  ⟨"DBG_SQ_CONTROL", 0x3200000, 32, 32, [⟨0, 0, .rw, 0, .any⟩, ⟨4, 1, .rw, 0, .any⟩, ⟨5, 5, .rw, 0, .any⟩], .single, .debug, true⟩,
  ⟨"DBG_SQ_DROP", 0x3200004, 32, 32, [⟨31, 0, .rw, 0, .any⟩], .single, .debug, false⟩,
  ⟨"DBG_SQ_CORRUPT", 0x3200008, 32, 32, [⟨31, 0, .rw, 0, .any⟩], .single, .debug, false⟩,
  ⟨"DBG_SQ_REORDER", 0x320000C, 32, 32, [⟨31, 0, .rw, 0, .any⟩], .single, .debug, false⟩,
  ⟨"DBG_SQ_SEED", 0x3200010, 32, 32, [⟨31, 0, .rw, 1, .any⟩], .single, .debug, true⟩,
  ⟨"DBG_SQ_INJECTED", 0x3200014, 32, 32, [⟨31, 0, .ro, 0, .any⟩], .single, .debug, false⟩,
  ⟨"DBG_SYNC_DUMP_ADDR_LO", 0x3300000, 0, 1, [⟨31, 0, .rw, 0, .any⟩], .lo, .debug, false⟩,
  ⟨"DBG_SYNC_DUMP_ADDR_HI", 0x3300004, 0, 1, [⟨31, 0, .rw, 0, .align 64⟩], .hi, .debug, false⟩,
  ⟨"DBG_SYNC_DUMP_CONTROL", 0x3300008, 0, 1, [⟨0, 0, .wo, 0, .any⟩], .single, .debug, true⟩,
  ⟨"DBG_SYNC_DUMP_STATUS", 0x330000C, 0, 1, [⟨1, 0, .ro, 0, .any⟩, ⟨31, 16, .ro, 0, .any⟩], .single, .debug, false⟩]

/-- Every register of BAR0. -/
def regTable : List RegDef :=
  regsGLB0 ++ regsGLB1 ++ regsSIL0 ++ regsMBN0 ++ regsMBS0 ++ regsIRQ0 ++ regsJOB0 ++ regsJOB1 ++ regsJOB2 ++ regsJOB3 ++ regsREL0 ++ regsREL1 ++ regsPWR0 ++ regsLNK0 ++ regsLNK1 ++ regsMEM0 ++ regsMEM1 ++ regsMEM2 ++ regsVID0 ++ regsVID1 ++ regsDBG0

/-- Does the row hold the register at an offset? -/
def regCovers (r : RegDef) (off : Nat) : Bool :=
  r.base ≤ off && (if r.stride = 0 then off == r.base else (off - r.base) % r.stride == 0 && (off - r.base) / r.stride < r.count)

/-- The register at an offset of BAR0. -/
def regAt (off : Nat) : Option RegDef := regTable.find? (regCovers · off)

/-- Which of its row's registers lies at the offset. -/
def regIndex (r : RegDef) (off : Nat) : Nat := if r.stride = 0 then 0 else (off - r.base) / r.stride

/-- The word a register's fields make at reset. -/
def resetOf (r : RegDef) : Word :=
  BitVec.ofNat 32 (r.fields.foldl (fun a f => a + f.reset * 2 ^ f.lo) 0)

/-- TARGETS of an interrupt source at reset (Tables HST-3 and HST-7): bit per target. -/
def irqTargets (n : Nat) : Nat :=
  if n = 3 || n = 6 then 0x40
  else if n ≤ 7 then 0x41
  else if n ≤ 9 then 0x01
  else if n ≤ 15 then 0
  else if n ≤ 39 then 0x01
  else if n ≤ 43 then 2 ^ (2 + (n - 40))
  else if n ≤ 79 then 0x02
  else if n ≤ 111 then 0x40
  else if n ≤ 143 then 0x01
  else if n ≤ 207 then 0x40
  else if n ≤ 211 then 0x01
  else if n ≤ 215 then 2 ^ (2 + (n - 212))
  else 0

/-- What a register reads as that nothing has written: its reset word, zero where no register is defined (R9). -/
def regDefault (off : Nat) : Word :=
  if 0x400000 ≤ off && off < 0x400400 && off % 4 == 0 then
    BitVec.ofNat 32 (irqTargets ((off - 0x400000) / 4) + ((off - 0x400000) / 4) % 64 * 2 ^ 7)
  else
    match regAt off with
    | some r => resetOf r
    | none => 0

end Sys2Proof.Machine
end

