-- ==== Sys2Proof/Machine/State.lean ====
section
/-! DEFINITION. The state of the block: every register, memory, queue, counter, mode and table the spec gives the device, as plain
data. A register that software can read has one home: `regs`, by its BAR0 offset. -/

namespace Sys2Proof.Machine

open Sys2Proof

/-- A reply of the management endpoint (R392): its wire format is its standard's. -/
inductive MgmtReply where
  /-- An answer with the bytes of its values. -/
  | answer (bytes : List Byte)
  /-- ERROR_NOT_READY. -/
  | notReady
  /-- SPDM ERROR with code Busy. -/
  | busy
  /-- PLDM's verify failure. -/
  | verifyFailed
  deriving DecidableEq, Repr

/-- What crosses the block's boundary outward, oldest first in `State.out`. -/
inductive Output where
  /-- A read of a register or window answered with data. -/
  | readData (req : Requester) (bytes : List Byte)
  /-- A read answered with Unsupported Request. -/
  | unsupported (req : Requester)
  /-- A read answered with Completer Abort. -/
  | completerAbort (req : Requester)
  /-- A read answered with a poisoned TLP (Table MEM-6). -/
  | poisonedTlp
  /-- Bytes written to host memory on a virtual channel. -/
  | hostWrite (vc addr : Nat) (bytes : List Byte)
  /-- Bytes asked of host memory. -/
  | hostRead (vc addr len : Nat)
  /-- An MSI-X message of a vector. -/
  | msix (vc vector : Nat)
  /-- An interrupt of a source delivered to a controller target. -/
  | interrupt (target source : Nat)
  /-- A frame sent on a port. -/
  | frame (port : Nat) (f : Frame)
  /-- A frame sent with a bad CRC in one of its flits (R262). -/
  | badFrame (port : Nat) (f : Frame)
  /-- A control flit (R250): cumulative ACK, NAK, heartbeat's device ID, lane swap (logical lane, spare). -/
  | control (port : Nat) (ack nak heartbeat : Option Nat) (swap : Option (Nat × Nat))
  /-- The LP_ENTER control flit, and the wake pattern (R348). -/
  | lpEnter (port : Nat)
  | wakePattern (port : Nat)
  /-- A capability word sent in training. -/
  | capability (port : Nat) (word : BitVec 64)
  /-- The ALERT# pin changed (R410). -/
  | alert (asserted : Bool)
  /-- Data of a READ_RESPONSE frame, to the requester of its TAG. -/
  | response (tag : Nat) (bytes : List Byte)
  /-- A management response. -/
  | mgmt (reply : MgmtReply)
  deriving DecidableEq, Repr

/-! ## The image in force (02_structure_image.md) -/

/-- A section of an image: its type, instance and bytes (Table SI-3). -/
structure Section where
  typ : Nat
  inst : Nat
  delta : Bool
  data : List Byte
  deriving DecidableEq, Repr

/-- Where the loader stands (SIL_STATUS.STATE is its register). -/
structure Loader where
  /-- The bytes of the image being loaded, checked or held. -/
  image : List Byte
  /-- WAIT of the load in progress, as START found it (R41). -/
  wait : Bool
  /-- The device's own digest of its signed bytes. -/
  digest : BitVec 384
  /-- Sections in force, deltas merged. -/
  sections : List Section
  /-- The header of the KIND 0 image in force. -/
  header : List Byte
  /-- A commit has happened since the last reset: RWL fields are locked (R45). -/
  locked : Bool
  deriving DecidableEq, Repr

/-! ## Cores (04, 06, 07) -/

/-- A halo buffer descriptor of a program header (Table TP-3). -/
structure HaloDesc where
  addr : Nat
  size : Nat
  deriving DecidableEq, Repr

/-- The tile program a core runs: its header as read when it started (R138) and how far it is. -/
structure Program where
  ctx : Nat
  job : Nat
  va : Nat
  count : Nat
  seed : Nat
  replayable : Bool
  scratch : Nat
  accTiles : Nat
  barriers : Nat
  halos : Nat
  halo : List HaloDesc
  rank : Nat
  /-- Distinct barrier identifiers named so far (Table TP-15). -/
  named : List Nat
  /-- A HALO, COLL or SYNC has issued (R146). -/
  communicated : Bool
  /-- The barrier phase of the last ARRIVE on each identifier (R269). -/
  arrived : List (Nat × Nat)
  /-- The ARRIVE_WAIT that has arrived and waits: its index and the phase. -/
  await : Option (Nat × Nat)
  retired : Bool
  deriving DecidableEq, Repr

/-- A selected output tile at the check unit (R124). -/
structure Check where
  enc : BitVec 256
  /-- Which of the MMA's output tiles. -/
  tile : Nat
  /-- The scratchpad ranges the check reads: (address, bytes). -/
  reads : List (Nat × Nat)
  /-- Rung of the attempt being checked. -/
  rung : Nat
  /-- Contents of the tile before the MMA wrote it, in accumulate mode. -/
  shadow : List Byte
  /-- The pass under a self reference after a master miss at the top rung (R127). -/
  selfPass : Bool
  /-- Flags of this attempt, given to the core only when it is kept (R129). -/
  flags : BitVec 4
  layer : Nat
  /-- Updraft has raised the tile above its MMA's class (R129). -/
  up : Bool
  deriving DecidableEq, Repr

/-- The projection the side-lanes hold (R118): activation address, M, K, rank code, U, and its FP32 words row by row. -/
structure Projection where
  act : Nat
  m : Nat
  k : Nat
  rank : Nat
  u : Nat
  rows : List (List Nat)
  deriving DecidableEq, Repr

/-- An instruction in the inbound mesh queue behind a HALO WAIT (R76): the WAIT itself or a LOAD, the scratchpad bytes it writes
and the virtual range it reads. -/
structure Inbound where
  enc : BitVec 256
  index : Nat
  addr : Nat
  bytes : Nat
  va : Nat
  vbytes : Nat
  deriving DecidableEq, Repr

/-- An ATTN_SCAN in progress (R191): PAGES, the list header, the candidates and the query block in select mode, and the page list
once resolved. -/
structure Scan where
  pages : Nat
  hdr : List Byte
  cands : List Nat
  qblock : List Byte
  ids : List Nat
  /-- 0 the retrieval engine has been asked, 1 the list is resolved, 2 its pages are pinned. -/
  stage : Nat
  deriving DecidableEq, Repr

/-- What a taken core saves at a preemption stop (R66, R93). -/
structure SavedCore where
  scratch : Store Byte
  acc : Store Byte
  flags : BitVec 12
  lfsr : Nat
  next : Nat
  rank : Nat
  prog : Option Program
  halo : List Nat
  sat : Nat
  flushed : Nat
  epilogue : List (BitVec 256)
  inbound : List Inbound
  scan : Option Scan
  /-- Commands of the core that waited when it was taken. -/
  held : List Instr
  deriving DecidableEq, Repr

/-- One physical core's storage and what it is doing. Its registers are in `State.regs`. -/
structure Core where
  scratch : Store Byte
  acc : Store Byte
  prog : Option Program
  checks : List Check
  proj : Option Projection
  /-- Bytes received in each halo buffer (R145). -/
  halo : List Nat
  /-- Has a PUT reached a halo buffer of this core in the step (R146)? -/
  haloHit : Bool
  /-- Elements saturated and flushed by this program (R113). -/
  sat : Nat
  flushed : Nat
  /-- The program ran an empty CONV (R155). -/
  emptyConv : Bool
  /-- CONV epilogues waiting for a check of their tiles. -/
  epilogue : List (BitVec 256)
  saved : Option SavedCore
  /-- Saved for a saffron step and still to be restored to its victim. -/
  takenFrom : Option Nat
  /-- Declared failed (R295). -/
  failed : Bool
  /-- The unanswered probe time so far, in units of 100 µs. -/
  silent : Nat
  scan : Option Scan
  /-- The inbound mesh queue while a HALO WAIT stands at its head (R76), at most 8 entries. -/
  inbound : List Inbound
  deriving DecidableEq, Repr

def Core.idle : Core :=
  ⟨[], [], none, [], none, [0, 0, 0, 0], false, 0, 0, false, [], none, none, false, 0, none, []⟩

/-- PUT bytes on the mesh (R145). -/
structure MeshPut where
  job : Nat
  /-- The sender's physical core and the index of the PUT. -/
  from_ : Nat
  index : Nat
  /-- The partner's rank. -/
  dest : Nat
  buf : Nat
  offset : Nat
  data : List Byte
  deriving DecidableEq, Repr

/-! ## Jobs and contexts (03) -/

inductive JobPhase where
  | queued
  /-- A saffron step whose taken cores are being saved. -/
  | saving
  | running
  | preempted
  /-- The step is committed; victims' cores are being restored. -/
  | lull
  /-- The step was discarded; the job waits for its restart (R296). -/
  | discarded
  deriving DecidableEq, Repr

/-- A layer's guard state in a step (R131 to R133). -/
structure Layer where
  rung : Nat
  count : Nat
  maxRung : Nat
  accepted : Nat
  checks : Nat
  misses : Nat
  escalated : Nat
  deriving DecidableEq, Repr

def Layer.fresh : Layer := ⟨0, 0, 0, 0, 0, 0, 0⟩

/-- An effect of a step that its Lull completes or its discard undoes (R186, R228, R299). -/
inductive Effect where
  | kvAlloc (index : Nat)
  | kvSeal (index slot fill : Nat)
  | kvRetain (id : Nat)
  | kvRelease (id : Nat)
  | tierAlloc (slot : Nat)
  | tierFree (slot : Nat)
  | tierPromote (slot va : Nat)
  | tierUnpin (slot va : Nat)
  | tierWriteBack (slot : Nat)
  | tierEvict (slot : Nat)
  | tierKeep (slot name : Nat)
  | tierAdopt (slot name : Nat)
  /-- A 4 KiB unit of persistent memory before the step's first write to it: unit number and its listed bytes (R299). -/
  | memory (unit : Nat) (old : Store Byte)
  deriving DecidableEq, Repr

/-- A tile under hardware suspicion whose program is replayed on another core (R130). -/
structure Suspect where
  logical : Nat
  core : Nat
  layer : Nat
  tile : Nat
  deriving DecidableEq, Repr

/-- A step in progress. -/
structure StepRun where
  number : Nat
  /-- Logical core of each rank. -/
  cores : List Nat
  entries : Nat
  /-- Guard table: layer entries as read (16 bytes each), and the summary address. -/
  guard : List (List Byte)
  summary : Nat
  layers : Store Layer
  /-- Effects, newest first. -/
  effects : List Effect
  replayed : Bool
  preempted : Bool
  held : Bool
  escalated : Nat
  /-- When its last program retired. -/
  retiredAt : Option Nat
  watchdog : Bool
  /-- It has bound a group of more than one member (R296). -/
  boundGroup : Bool
  /-- The step's bank phase (R302): 0 none, 1 staging, 2 arrived, 3 completed, 4 aborted by a decision (R307). -/
  bankPhase : Nat
  /-- Logical cores taken from bulk jobs and not yet restored. -/
  taken : List Nat
  /-- The physical core each rank runs on: its logical core's, or a spare's after a core failure (R146). -/
  phys : List Nat
  deriving DecidableEq, Repr

/-- A job that holds a queue entry. -/
structure Job where
  uid : Nat
  ctx : Nat
  id : Nat
  coresWanted : Nat
  program : Nat
  firstStep : Nat
  stepCount : Nat
  phase : JobPhase
  /-- Steps committed. -/
  done : Nat
  step : Option StepRun
  startNs : Nat
  delayNs : Nat
  waitFrom : Nat
  preempts : Nat
  escalations : Nat
  sat : Nat
  flushed : Nat
  flags : BitVec 12
  emptyConv : Bool
  /-- The next step is a restart of the same number (R296, R308). -/
  replayNext : Bool
  /-- The tile under hardware suspicion, until its replay settles it (R130). -/
  suspect : Option Suspect
  /-- The replay of that tile failed as well, and the step is replayed. -/
  hwReplay : Bool
  /-- Waited at a full-Lull hold since its last step (FLAGS [3] of Table EX-2). -/
  held : Bool
  deriving DecidableEq, Repr

/-- A completion record waiting for its ring slot (R71). -/
structure Record where
  ctx : Nat
  uid : Nat
  job : Nat
  status : Nat
  /-- The 64 bytes but for SEQ. -/
  body : List Byte
  /-- A success whose job was past its final commit: an abort turns it into OK_ABORT_LATE (R70). -/
  success : Bool
  deriving DecidableEq, Repr

/-- A submission whose descriptor is being fetched (R63). -/
structure Fetching where
  ctx : Nat
  addr : Nat
  number : Nat
  deriving DecidableEq, Repr

/-- What a context holds beside its registers. -/
structure Ctx where
  partitions : Nat
  quota : Nat
  priv : Bool
  mayBank : Bool
  mask : Nat
  class_ : Nat
  /-- Submissions made since creation, unbounded (R63, R73). -/
  subs : Nat
  /-- The last 64 completed job IDs, newest first (R70). -/
  recent : List Nat
  /-- Lull records written (SEQ of Table EX-2). -/
  lulls : Nat
  /-- Number of the latest submission decided, by `subs` (R64). -/
  decided : Nat
  /-- Code and JOB_CTX_FAULT_DETAIL word the context is being torn down with. -/
  fault : Nat
  detail : Nat
  deriving DecidableEq, Repr

def Ctx.fresh : Ctx := ⟨0, 0, false, false, 0, 0, 0, [], 0, 0, 0, 0⟩

structure JobBlock where
  jobs : List Job
  nextUid : Nat
  records : List Record
  fetching : List Fetching
  ctxs : Store Ctx
  /-- PUTs on the mesh, oldest first. -/
  puts : List MeshPut
  /-- Jobs that had a step at the moment of HOLD_PENDING. -/
  held : Bool
  deriving DecidableEq, Repr

/-! ## Ports of context virtual space (R184, R227, R315) -/

inductive PortKind where
  | page | tier | video
  deriving DecidableEq, Repr

/-- A command cell that has carried a command, and the command and result it holds. -/
structure Cell where
  kind : PortKind
  ctx : Nat
  cell : Nat
  cmd : Nat
  result : List Byte
  busy : Bool
  /-- The job and core that issued it. -/
  job : Nat
  core : Nat
  deriving DecidableEq, Repr

/-- A host command issued through a context's command registers and not yet applied. -/
structure HostCmd where
  kind : PortKind
  ctx : Nat
  cmd : Nat
  deriving DecidableEq, Repr

/-! ## KV pages (10) -/

/-- A page descriptor (Table KV-2). -/
structure KvPage where
  address : Nat
  format : Nat
  fill : Nat
  refs : Nat
  pins : Nat
  owner : Nat
  state : Nat
  orphan : Bool
  sealPending : Bool
  gen : Nat
  slot : Nat
  summary : Nat
  firstPos : Nat
  parent : Nat
  deriving DecidableEq, Repr

def KvPage.free : KvPage := ⟨0, 0, 0, 0, 0, 0, 0, false, false, 0, 0xFF, 0, 0, 0xFFFFFFFF⟩

/-- A journal entry of a context (R179). -/
structure KvRef where
  ctx : Nat
  id : Nat
  count : Nat
  deriving DecidableEq, Repr

structure KvUnit where
  pages : Store KvPage
  refs : List KvRef
  /-- Readers waiting for PIN_COUNT room (R180): the page's index and the command that waits. -/
  pinWaits : List (Nat × Instr)
  /-- Cores whose scans wait for a retrieval engine, in arrival order (R190). -/
  asked : List Nat
  deriving DecidableEq, Repr

/-! ## Tiers and flash (12) -/

inductive Residency where
  | absent | promoting | resident | lost
  deriving DecidableEq, Repr

/-- A pin on a tier-3 object: who holds it and where it is mapped. -/
structure Pin where
  ctx : Nat
  va : Nat
  mapped : Bool
  deriving DecidableEq, Repr

/-- An object of the object table (R224 to R234). -/
structure TierObj where
  slot : Nat
  tier : Nat
  owner : Nat
  shared : Bool
  units : Nat
  /-- Partition (tier 2) or die (tier 1). -/
  place : Nat
  /-- First HBM page (tier 2) or first unit of the die's scratch banks (tier 1). -/
  first : Nat
  va : Nat
  mapped : Bool
  /-- FREE or KEEP was issued in a step that has not reached its Lull. -/
  leaving : Bool
  /-- Made by a host command. -/
  byHost : Bool
  /-- Owner is FREE; freed at the last UNPIN (R231). -/
  dying : Bool
  priv : Bool
  data : Store Byte
  fresh : Option (Store Byte)
  resid : Residency
  copyPart : Nat
  copyPage : Nat
  copyOwner : Option Nat
  copyDirty : Bool
  pins : List Pin
  evict : Bool
  unpinned : Nat
  deriving DecidableEq, Repr

/-- A kept object (R241). -/
structure Kept where
  name : Nat
  units : Nat
  priv : Bool
  shared : Bool
  data : Store Byte
  /-- KEEP issued in a step that has not reached its Lull. -/
  pending : Bool
  adopting : Bool
  /-- Some of its data is unrecoverable. -/
  lost : Bool
  deriving DecidableEq, Repr

/-- A PROMOTE or WRITE_BACK that has been applied and has not completed (R229). -/
structure Running where
  slot : Nat
  writeBack : Bool
  via : Via
  ctx : Nat
  uid : Option Nat
  handle : Nat
  deriving DecidableEq, Repr

structure TierMgr where
  objs : List TierObj
  gens : Store Nat
  kept : List Kept
  /-- Bytes written in each of the last 24 hours, newest first (R240). -/
  hours : List Nat
  /-- The golden copy: pages by number in the partition, with its MODEL_ID (R242). -/
  golden : Store Byte
  goldenPages : List Nat
  goldenModel : Nat
  /-- DIRTY bits of SHARED_WEIGHTS pages, by page of the partition. -/
  dirty : Store Bool
  clock : Nat
  /-- Late commands already counted (R235). -/
  late : List Via
  running : List Running
  /-- The relocation pool in GiB, and the blocks retired (Table TIR-8). -/
  pool : Nat
  retiredBlocks : List Nat
  deriving DecidableEq, Repr

/-! ## HBM and LLM (11) -/

/-- A line held in a die's cache (R204); the list of lines runs from most to least recently used. -/
structure CacheLine where
  die : Nat
  /-- Device memory address ÷ 256. -/
  line : Nat
  /-- Cache bank × 4,096 + set. -/
  set : Nat
  dirty : Bool
  deriving DecidableEq, Repr

/-- A token bucket of a partition in a stack (R211). -/
structure Bucket where
  part : Nat
  stack : Nat
  /-- Tokens in eighths of a byte; below zero while a long request is being paid for. -/
  level : Int
  deriving DecidableEq, Repr

structure Mem where
  hbm : Store Byte
  /-- Poisoned 64-byte units by address ÷ 64. -/
  poison : Store Bool
  /-- Tier-1 bytes by die × 2^32 + offset. -/
  llm : Store Byte
  /-- Key tag of each allocatable page; 511 for none (R218). -/
  tags : Store Nat
  /-- 64-byte units whose key has been erased: their bytes are ciphertext under no key. -/
  orphanCipher : Store Bool
  cache : List CacheLine
  buckets : List Bucket
  /-- Corrected and uncorrectable errors of rows: (pseudo-channel, row, device time). -/
  ceRows : List (Nat × Nat × Nat)
  ueRows : List (Nat × Nat × Nat)
  /-- Fenced pseudo-channels (R217). -/
  fenced : List Nat
  /-- Stack pages whose frame has been retired (R216), by HBM page. -/
  retired : List Nat
  /-- Commands already counted as stalled on poison (R215). -/
  counted : List Instr
  deriving DecidableEq, Repr

/-! ## The host link (18) -/

/-- A transfer toward host memory that waits for its virtual channel (R370). -/
structure Transfer where
  vc : Nat
  ctx : Option Nat
  /-- The job it belongs to. -/
  uid : Option Nat
  addr : Nat
  data : List Byte
  accepted : Nat
  deriving DecidableEq, Repr

structure HostLink where
  up : Bool
  d3 : Bool
  /-- MSI-X vectors masked in the MSI-X table, and those whose message is pending there. -/
  masked : List Nat
  pendingMsix : List Nat
  /-- Virtual channels for which the host returns no credits. -/
  stalled : List Nat
  dma : List Transfer
  /-- (source, classes of the merged records): the channels a completion delivery owes (R369). -/
  owed : List (Nat × Nat)
  /-- Size of BAR4 in GiB, by the Resizable BAR capability. -/
  bar4GiB : Nat
  /-- When MASK of a source was last set: (source, device time) (R374). -/
  maskedAt : List (Nat × Nat)
  deriving DecidableEq, Repr

/-- The state of the block. -/
structure State where
  /-- Commands waiting, first in first out. -/
  pending : List Instr
  /-- Commands the spec makes wait, oldest first; an idle step tries the oldest again (log entry 1). -/
  held : List Instr
  /-- How many free values have been read (the model's own field; log entry 5). -/
  free : Nat
  /-- Device time in nanoseconds since cold power-on (R54). -/
  timeNs : Nat
  /-- What has crossed the boundary outward, oldest first. -/
  out : List Output
  /-- BAR0 registers by offset. -/
  regs : Store Word
  /-- Upper halves captured by a _LO read, by requester and _LO offset (R10). -/
  captures : List (Requester × Nat × Word)
  /-- Lower halves staged by a _LO write, by requester and _LO offset (R10). -/
  stages : List (Requester × Nat × Word)
  img : Loader
  cores : Store Core
  job : JobBlock
  cells : List Cell
  hostCmds : List HostCmd
  kv : KvUnit
  tier : TierMgr
  mem : Mem
  host : HostLink
  fab : Fabric
  rel : Recovery
  vid : Video
  pwr : Power
  mail : Mail
  sec : Security
  /-- The ALERT# pin is asserted (R410). -/
  alert : Bool
  deriving DecidableEq, Repr

/-- Why the machine stops with a fault. -/
inductive Fault where
  /-- A command names a part the device does not have (a core, port, stack, island, engine, channel or context number out of
  range). Raised by the meanings of the event rows; safe: no such event exists. -/
  | noSuchPart
  deriving DecidableEq, Repr

/-- Why a command has no meaning where it stands. -/
inductive Refusal where
  /-- An arm of exec not written yet. Safe: nothing is claimed of it. -/
  | notModelled (mnemonic : String)
  /-- The access or the instruction is another row's of the table: the command cannot be sent under this name. Safe. -/
  | otherRow
  /-- What the command reports is not under way in this state (no check pending, no load in progress, no such command
  issued). Raised by completion and event rows; safe: the device sends no such event then. -/
  | notDue
  deriving DecidableEq, Repr

def Loader.fresh : Loader := ⟨[], false, 0, [], [], false⟩
def JobBlock.fresh : JobBlock := ⟨[], 0, [], [], [], [], false⟩
def KvUnit.fresh : KvUnit := ⟨[], [], [], []⟩
def TierMgr.fresh : TierMgr := ⟨[], [], [], [0], [], [], 0, [], 0, [], [], 1264, []⟩
def Mem.fresh : Mem := ⟨[], [], [], [], [], [], [], [], [], [], [], []⟩
/-- The link as the supply finds it: down, every MSI-X vector masked as PCIe resets its table (log entry 106). -/
def HostLink.fresh : HostLink := ⟨false, false, List.range 64, [], [], [], [], 64, []⟩

/-- The block right after reset: every register at its reset value, nothing listed in any memory, no supply yet
(Table EX-4's OFF; log entry 7). -/
def State.reset : State where
  pending := []
  held := []
  free := 0
  timeNs := 0
  out := []
  regs := []
  captures := []
  stages := []
  img := Loader.fresh
  cores := []
  job := JobBlock.fresh
  cells := []
  hostCmds := []
  kv := KvUnit.fresh
  tier := TierMgr.fresh
  mem := Mem.fresh
  host := HostLink.fresh
  fab := Fabric.fresh
  rel := Recovery.fresh
  vid := Video.fresh
  pwr := Power.fresh
  mail := Mail.fresh
  sec := Security.fresh
  alert := false

end Sys2Proof.Machine
end

