-- ==== Sys2Proof/Machine/Ops.lean ====
section
/-! DEFINITION. The named operations over the state: registers and fields, counters, outputs, interrupts (R372), the reliability
log (R290), host memory writes (R369, R370), the tables of the image in force, and HBM bytes. -/

namespace Sys2Proof.Machine

open Sys2Proof

/-- What a meaning answers. -/
abbrev Res := Host.Outcome State Fault Refusal

/-! ## Registers -/

/-- The word a register holds. -/
def State.reg (s : State) (off : Nat) : Word := storeGet regDefault s.regs off

/-- A register's word replaced. -/
def State.setReg (s : State) (off : Nat) (v : Word) : State :=
  { s with regs := storeSet regDefault s.regs off v }

/-- A field's value. -/
def State.getF (s : State) (f : Fld) : Nat := bits (s.reg f.off).toNat f.hi f.lo

/-- A field replaced, the register's other bits kept. -/
def State.putF (s : State) (f : Fld) (v : Nat) : State :=
  s.setReg f.off (BitVec.ofNat 32 (putBits (s.reg f.off).toNat f.hi f.lo v))

/-- A counter field advanced, wrapping at its width. -/
def State.addF (s : State) (f : Fld) (n : Nat) : State := s.putF f (s.getF f + n)

/-- A counter field advanced, saturating at its width. -/
def State.addSatF (s : State) (f : Fld) (n : Nat) : State :=
  s.putF f (min (s.getF f + n) (2 ^ (f.hi + 1 - f.lo) - 1))

/-- The 64-bit value of a _LO/_HI pair, by the offset of _LO. -/
def State.getP (s : State) (lo : Nat) : Nat := (s.reg lo).toNat + 2 ^ 32 * (s.reg (lo + 4)).toNat

/-- A pair replaced. -/
def State.putP (s : State) (lo v : Nat) : State :=
  (s.setReg lo (BitVec.ofNat 32 v)).setReg (lo + 4) (BitVec.ofNat 32 (v / 2 ^ 32))

/-- A 64-bit counter pair advanced, wrapping at 2^64. -/
def State.addP (s : State) (lo n : Nat) : State := s.putP lo (s.getP lo + n)

/-! ## Outputs, waiting commands and free values -/

/-- Something leaves the block. -/
def State.emit (s : State) (o : Output) : State := { s with out := s.out ++ [o] }

/-- A command the spec makes wait. -/
def State.hold (s : State) (i : Instr) : State := { s with held := s.held ++ [i] }

/-- A fresh free number (log entry 5). -/
def State.freeNat (s : State) : Nat × State := (Config.freeNat s.free, { s with free := s.free + 1 })

/-- Fresh free bytes. -/
def State.freeBytes (s : State) (n : Nat) : List Byte × State :=
  ((List.range n).map fun i => Config.freeByte (s.free + i), { s with free := s.free + n })

/-! ## Interrupts (R371, R372) -/

/-- An event of a source sets its pending latch for every target in the mask; a reserved source never asserts. -/
def State.raise (s : State) (n : Nat) : State :=
  if (10 ≤ n && n ≤ 15) || 216 ≤ n then s
  else
    let t := s.getF (F.IRQ_SRC_TARGETS n)
    s.putF (F.IRQ_SRC_PENDING n) (Nat.lor (s.getF (F.IRQ_SRC_PENDING n)) t)

/-! ## Requests and parts -/

/-- A meaning for a row that names a part: no such part, no such event. -/
def whenPart (ok : Bool) (r : Res) : Res := if ok then r else .fault .noSuchPart

/-! ## Host memory (R369, R370) -/

/-- The virtual channel of a class of transfers: those without a channel of their own share VC0. -/
def State.vcOf (s : State) (cls : Nat) : Nat := if cls ≤ s.getF F.GLB_HOST_LINK_VCS then cls else 0

/-- Does a virtual channel take transfers now? -/
def State.vcOpen (s : State) (vc : Nat) : Bool :=
  s.host.up && !s.host.d3 && s.getF F.GLB_HOST_LINK_BUS_MASTER == 1 &&
    !s.host.stalled.contains vc && s.getF (F.GLB_DMA_SUSP_SUSPENDED vc) == 0 &&
    s.host.dma.all (fun t => t.vc != vc)

/-- Bytes waiting in a virtual channel's staging buffer. -/
def State.staged (s : State) (vc : Nat) : Nat :=
  (s.host.dma.filter (fun t => t.vc == vc)).foldl (fun a t => a + (t.data.length - t.accepted)) 0

/-- Room in the 4 MiB staging buffer of a channel for `n` more bytes. -/
def State.stagingRoom (s : State) (vc n : Nat) : Bool := s.vcOpen vc || s.staged vc + n ≤ 4 * 2 ^ 20

/-- A write to host memory: sent, or kept in the staging buffer while its channel stalls. -/
def State.hostWrite (s : State) (cls : Nat) (ctx uid : Option Nat) (addr : Nat) (bs : List Byte) : State :=
  let vc := s.vcOf cls
  if s.vcOpen vc then s.emit (.hostWrite vc addr bs)
  else { s with host.dma := s.host.dma ++ [⟨vc, ctx, uid, addr, bs, 0⟩] }

/-- A record that is lost when the staging is full (Lull records, log mirror). -/
def State.hostRecord (s : State) (cls : Nat) (ctx uid : Option Nat) (addr : Nat) (bs : List Byte) : State :=
  if s.stagingRoom (s.vcOf cls) bs.length then s.hostWrite cls ctx uid addr bs
  else s.addF F.GLB_DMA_RECORDS_LOST_COUNT 1

/-! ## The reliability log (R290, Table REL-2) -/

/-- A log entry: its context if one is concerned, its FLAGS bit 1, its DETAIL. -/
def State.logFull (s : State) (code source : Nat) (ctx : Option Nat) (action : Bool) (d0 d1 : Nat) : State :=
  let seq := s.getF F.REL_LOG_SEQ_COUNT
  let fl := (if ctx.isSome then 1 else 0) + (if action then 2 else 0)
  let bytes := leBytes 4 seq ++ leBytes 2 code ++ leBytes 2 source ++ leBytes 8 s.timeNs ++
    leBytes 1 (ctx.getD 0) ++ leBytes 1 fl ++ leBytes 2 0 ++ leBytes 4 d0 ++ leBytes 8 d1
  let slot := seq % 1024
  let s := (List.range 8).foldl
    (fun s i => s.setReg (R.REL_LOG_ENTRY (8 * slot + i)) (BitVec.ofNat 32 (leNat ((bytes.drop (4 * i)).take 4)))) s
  let s := s.addF F.REL_LOG_SEQ_COUNT 1
  let base := s.getP P.REL_LOG_RING
  let s := if base = 0 then s
    else s.hostRecord 2 none none (base + seq % 2 ^ s.getF F.REL_LOG_RING_SIZE_SIZE * 32) bytes
  s.raise 1

/-- A log entry that needs no action of the host. -/
def State.log (s : State) (code source : Nat) (ctx : Option Nat) (d0 d1 : Nat) : State :=
  s.logFull code source ctx false d0 d1

/-! ## The image in force (R28) -/

/-- The bytes of a section in force. -/
def State.section (s : State) (typ inst : Nat) : List Byte :=
  match s.img.sections.find? (fun x => x.typ == typ && x.inst == inst) with
  | some x => x.data
  | none => []

/-- A little-endian number at an offset of a list of bytes. -/
def leAt (bs : List Byte) (off n : Nat) : Nat := leNat ((bs.drop off).take n)

/-- Is an image in force (R28)? -/
def State.imageValid (s : State) : Bool := s.getF F.SIL_STATUS_IMAGE_VALID == 1

/-- A partition of HBM (Table SI-5). -/
structure Partition where
  first : Nat
  count : Nat
  rate : Nat
  burst : Nat
  flags : Nat
  stackMask : Nat
  deriving DecidableEq, Repr

def Partition.persistent (p : Partition) : Bool := bit p.flags 0
def Partition.banked (p : Partition) : Bool := bit p.flags 1
def Partition.parity (p : Partition) : Bool := bit p.flags 2
def Partition.priv (p : Partition) : Bool := bit p.flags 3
def Partition.sharedWeights (p : Partition) : Bool := bit p.flags 4

/-- A partition entry read from its 32 bytes. -/
def partitionOf (bs : List Byte) : Partition :=
  ⟨leAt bs 0 4, leAt bs 4 4, leAt bs 8 2, leAt bs 10 2, leAt bs 12 2, leAt bs 14 1⟩

/-- The partitions of the image in force, in index order. -/
def State.partitions (s : State) : List Partition :=
  if s.imageValid then
    let bs := s.section 5 0
    (chunk 32 (bs.length / 32) bs).map partitionOf
  else []

/-- The partition of an index. -/
def State.partition (s : State) (i : Nat) : Option Partition := s.partitions[i]?

/-- The index of the partition that holds an HBM page. -/
def State.partitionOfPage (s : State) (page : Nat) : Option (Nat × Partition) :=
  (s.partitions.zipIdx.find? fun (p, _) => p.first ≤ page && page < p.first + p.count).map fun (p, i) => (i, p)

/-- The SHARED_WEIGHTS partition (R33: exactly one). -/
def State.weights (s : State) : Option Partition := s.partitions.find? (·.sharedWeights)

/-- The quotas of a set: TIER0 to TIER3 in 64 KiB units. -/
def State.quotaOf (s : State) (set tier : Nat) : Nat := leAt (s.section 6 0) (32 * set + 4 * tier) 4

/-- The template entry of an ID (Table SI-6). -/
def State.template (s : State) (id : Nat) : Option (List Byte) :=
  let bs := s.section 0x0B 0
  (chunk 144 (bs.length / 144) bs).find? fun t => leAt t 0 1 == id

/-- PROFILE's ACTIVE_CORES, the logical cores of the image. -/
def State.activeCores (s : State) : Nat := if s.imageValid then leAt (s.section 1 0) 4 2 else 0

/-- SECURITY_POLICY FLAGS of the image in force. -/
def State.policy (s : State) (i : Nat) : Bool := s.imageValid && bit (leAt (s.section 0x0C 0) 0 4) i

/-- The physical core (die × 272 + index) of a logical core, from CORE_MAP in force. -/
def State.physOf (s : State) (l : Nat) : Nat :=
  let e := leAt (s.section 2 0) (2 * l) 2
  bits e 10 9 * 272 + bits e 8 0

/-- Table EX-4's state code. -/
def State.devState (s : State) : Nat := s.getF F.JOB_DEVICE_STATE_STATE

/-- The 20-bit device ID (PROFILE of the image in force). -/
def State.deviceId (s : State) : Nat := s.getF F.LNK_DEVICE_ID_ID

/-! ## Cores -/

def State.core (s : State) (p : Nat) : Core := storeGet (fun _ => Core.idle) s.cores p

def State.setCore (s : State) (p : Nat) (c : Core) : State :=
  { s with cores := storeSet (fun _ => Core.idle) s.cores p c }

def zeroByte (_ : Nat) : Byte := 0

/-- Bytes of a core's scratchpad. -/
def State.scratch (s : State) (p addr n : Nat) : List Byte := storeGetRun zeroByte (s.core p).scratch addr n

def State.setScratch (s : State) (p addr : Nat) (bs : List Byte) : State :=
  let c := s.core p
  s.setCore p { c with scratch := storeSetRun zeroByte c.scratch addr bs }

/-- Bytes of a core's accumulator file. -/
def State.accBytes (s : State) (p addr n : Nat) : List Byte := storeGetRun zeroByte (s.core p).acc addr n

def State.setAcc (s : State) (p addr : Nat) (bs : List Byte) : State :=
  let c := s.core p
  s.setCore p { c with acc := storeSetRun zeroByte c.acc addr bs }

/-! ## Jobs and contexts -/

def State.ctx (s : State) (n : Nat) : Ctx := storeGet (fun _ => Ctx.fresh) s.job.ctxs n

def State.setCtx (s : State) (n : Nat) (c : Ctx) : State :=
  { s with job.ctxs := storeSet (fun _ => Ctx.fresh) s.job.ctxs n c }

/-- Table EX-5's code of a context. -/
def State.ctxState (s : State) (n : Nat) : Nat := s.getF (F.JOB_CTX_STATE_STATE n)

def State.jobOf (s : State) (uid : Nat) : Option Job := s.job.jobs.find? (·.uid == uid)

def State.setJob (s : State) (j : Job) : State :=
  { s with job.jobs := s.job.jobs.map fun x => if x.uid == j.uid then j else x }

def State.dropJob (s : State) (uid : Nat) : State :=
  { s with job.jobs := s.job.jobs.filter (·.uid != uid) }

/-- A job's step changed. -/
def State.mapStep (s : State) (uid : Nat) (f : StepRun → StepRun) : State :=
  match s.jobOf uid with
  | some j => s.setJob { j with step := j.step.map f }
  | none => s

/-- An effect recorded for the Lull or the discard of a job's step. -/
def State.addEffect (s : State) (uid : Nat) (e : Effect) : State :=
  s.mapStep uid fun st => { st with effects := e :: st.effects }

/-- Is a step of any job in progress? A preempted step is in progress (R56). -/
def State.stepRunning (s : State) : Bool :=
  s.job.jobs.any fun j => j.phase == .running || j.phase == .preempted || j.phase == .saving

/-- The transfer class of a context: 1 saffron, 0 bulk (R369). -/
def State.ctxClass (s : State) (n : Nat) : Nat := if s.getF (F.JOB_CTX_STATE_CLASS n) = 0 then 1 else 0

/-! ## Cells of the ports (R184, R227, R315) -/

def State.cell (s : State) (k : PortKind) (ctx c : Nat) : Option Cell :=
  s.cells.find? fun x => x.kind == k && x.ctx == ctx && x.cell == c

/-- A command stored into a cell: it waits for its engine. -/
def State.setCell (s : State) (c : Cell) : State :=
  { s with cells := s.cells.filter (fun x => !(x.kind == c.kind && x.ctx == c.ctx && x.cell == c.cell)) ++ [c] }

/-- A cell's command answered. -/
def State.cellResult (s : State) (c : Cell) (bs : List Byte) : State := s.setCell { c with result := bs, busy := false }

/-! ## HBM bytes (R176) -/

/-- Bytes of HBM from a device memory address. -/
def State.hbm (s : State) (addr n : Nat) : List Byte := storeGetRun zeroByte s.mem.hbm addr n

/-- The 64-byte units a range touches. -/
def unitsOf (addr n : Nat) : List Nat :=
  if n = 0 then [] else (List.range ((addr + n - 1) / 64 + 1 - addr / 64)).map (· + addr / 64)

def noPoison (_ : Nat) : Bool := false

/-- A unit becomes poisoned: MEM_POISON_ADDR names it. -/
def State.poisonUnit (s : State) (u : Nat) : State :=
  { s with mem.poison := storeSet noPoison s.mem.poison u true }.putP P.MEM_POISON_ADDR (u * 64)

/-- A unit encrypted under an erased key holds bytes nobody can tell (R218): they become free values when it is first used. -/
def State.openUnit (s : State) (u : Nat) : State :=
  if storeGet noPoison s.mem.orphanCipher u then
    let r := s.freeBytes 64
    { r.2 with mem.hbm := storeSetRun zeroByte r.2.mem.hbm (u * 64) r.1,
               mem.orphanCipher := storeSet noPoison r.2.mem.orphanCipher u false }
  else s

/-- The units of a range that lie under an erased key, settled. -/
def State.openRange (s : State) (addr n : Nat) : State :=
  if s.mem.orphanCipher.isEmpty then s else (unitsOf addr n).foldl State.openUnit s

/-- Marks of units left after a range is overwritten: those of units not wholly inside it. -/
def outsideRange (m : Store Bool) (addr n : Nat) : Store Bool :=
  m.filter fun e => !(addr ≤ e.1 * 64 && e.1 * 64 + 64 ≤ addr + n)

/-- A range of HBM set to zero; every unit wholly inside it loses its poison. -/
def State.clearHbm (s : State) (addr n : Nat) : State :=
  { s with mem.hbm := storeClear s.mem.hbm addr n, mem.poison := outsideRange s.mem.poison addr n,
           mem.orphanCipher := outsideRange s.mem.orphanCipher addr n }

end Sys2Proof.Machine
end

