-- ==== Sys2Proof/Machine/MailOps.lean ====
section
/-! DEFINITION. Mailbox channels: their registers, targets and states, what an acknowledge does, and what becomes of a channel whose
target's domain goes down or comes back (R361 to R366). -/

namespace Sys2Proof.Machine

open Sys2Proof

/-! ## Registers of a channel (R361, R376) -/

/-- The channel whose notice page holds an offset. -/
def noticeChan (off : Nat) : Option Nat :=
  if 0x200000 ≤ off && off < 0x220000 then some ((off - 0x200000) / 0x1000)
  else if 0x300000 ≤ off && off < 0x320000 then some ((off - 0x300000) / 0x1000 + 32)
  else none

def reqPtr (c : Nat) : Nat := if c < 32 then P.MBN_REQ_PTR c else P.MBS_REQ_PTR (c - 32)
def reqLen (c : Nat) : Fld := if c < 32 then F.MBN_REQ_LEN_VALUE c else F.MBS_REQ_LEN_VALUE (c - 32)
def reqOp (c : Nat) : Fld := if c < 32 then F.MBN_REQ_OP_OPCODE c else F.MBS_REQ_OP_OPCODE (c - 32)
def tgtPtr (c : Nat) : Nat := if c < 32 then P.MBN_TGT_PTR c else P.MBS_TGT_PTR (c - 32)
def tgtLen (c : Nat) : Fld := if c < 32 then F.MBN_TGT_LEN_VALUE c else F.MBS_TGT_LEN_VALUE (c - 32)
def tgtOp (c : Nat) : Fld := if c < 32 then F.MBN_TGT_OP_OPCODE c else F.MBS_TGT_OP_OPCODE (c - 32)
def tgtSeq (c : Nat) : Fld := if c < 32 then F.MBN_TGT_OP_SEQ c else F.MBS_TGT_OP_SEQ (c - 32)
def ackCode (c : Nat) : Fld := if c < 32 then F.MBN_ACK_CODE c else F.MBS_ACK_CODE (c - 32)
def ackSeq (c : Nat) : Fld := if c < 32 then F.MBN_ACK_SEQ c else F.MBS_ACK_SEQ (c - 32)
def ackState (c : Nat) : Fld := if c < 32 then F.MBN_ACK_STATE_STATE c else F.MBS_ACK_STATE_STATE (c - 32)
def ackBusy (c : Nat) : Fld := if c < 32 then F.MBN_ACK_STATE_BUSY c else F.MBS_ACK_STATE_BUSY (c - 32)
def ackOff (c : Nat) : Fld := if c < 32 then F.MBN_ACK_STATE_DOMAIN_OFF c else F.MBS_ACK_STATE_DOMAIN_OFF (c - 32)
def ackTgt (c : Nat) : Fld := if c < 32 then F.MBN_ACK_STATE_TGT_POSTED c else F.MBS_ACK_STATE_TGT_POSTED (c - 32)
def ackEpoch (c : Nat) : Fld := if c < 32 then F.MBN_ACK_STATE_EPOCH c else F.MBS_ACK_STATE_EPOCH (c - 32)

/-! ## Targets (Table HST-3) -/

/-- An island's state (Table PWR-5). -/
def State.islandState (s : State) (i : Nat) : Nat := s.getF (F.PWR_ISL_STATE_STATE i)

/-- The island of a channel's target; none for the always-on domain. -/
def State.chanIsland (s : State) (c : Nat) : Option Nat :=
  if c < 24 then (if s.rel.onB then some 1219 else none)
  else if c < 28 then some (1152 + (c - 24))
  else some 1218

/-- Is a channel's target domain ON? One that is quiescing still takes what it has accepted (R344). -/
def State.chanOn (s : State) (c : Nat) : Bool :=
  match s.chanIsland c with
  | none => true
  | some i => s.islandState i == 1 || s.islandState i == 4

/-- The island of a channel's target, when it is quiescing. -/
def State.chanQuiet (s : State) (c : Nat) : Option Nat :=
  match s.chanIsland c with
  | none => none
  | some i => if s.islandState i = 4 then some i else none

/-- Is a notice in flight on a channel: POSTED or TAKEN? -/
def State.chanBusy (s : State) (c : Nat) : Bool := s.getF (ackState c) == 1 || s.getF (ackState c) == 2

/-! ## Acknowledges (R363 to R365) -/

/-- {code, SEQ} written to MB_ACK, and the channel's acknowledge source raised. -/
def State.answerNotice (s : State) (c code seq : Nat) : State :=
  ((s.putF (ackCode c) code).putF (ackSeq c) seq).raise (80 + c)

/-- An acknowledge that leaves the channel ACKED; EPOCH is the epoch at the doorbell (R368). -/
def State.ackNotice (s : State) (c code seq epoch : Nat) : State :=
  ((s.putF (ackState c) 3).putF (ackEpoch c) epoch).answerNotice c code seq

/-- The notice in flight on a channel. -/
def State.notice (s : State) (c : Nat) : Option Notice := s.mail.notices.find? (·.chan == c)

/-- The notice in flight acknowledged by its target. -/
def State.completeNotice (s : State) (n : Notice) (code : Nat) : State :=
  { s with mail.notices := s.mail.notices.filter (·.chan != n.chan) }.ackNotice n.chan code n.seq n.epoch

/-- A target's notice taken back; the target is told with a code (R366, R368). -/
def State.withdrawNotice (s : State) (c code : Nat) : State :=
  if s.getF (ackTgt c) = 0 then s
  else { s with mail.targetAcks := s.mail.targetAcks ++ [(c, code)] }.putF (ackTgt c) 0

/-- A channel whose target's domain has gone down, or has come back (R366). -/
def State.settleChan (s : State) (c : Nat) : State :=
  let off := s.getF (ackOff c)
  if s.chanOn c then (if off = 0 then s else (s.putF (ackOff c) 0).putF (ackState c) 0)
  else if off = 1 then s
  else
    let s := match s.notice c with
      | some n => s.completeNotice n Code.DOMAIN_OFF
      | none => s
    (s.withdrawNotice c Code.DOMAIN_OFF).putF (ackOff c) 1

/-- The channels of an island's target. -/
def State.settleMail (s : State) (i : Nat) : State :=
  if i < 1152 then s else ((List.range 64).filter fun c => s.chanIsland c == some i).foldl State.settleChan s

/-- Every channel. -/
def State.settleAllMail (s : State) : State := (List.range 64).foldl State.settleChan s

/-- Posted notices are taken by their targets (R364). -/
def State.takeNotices (s : State) : State :=
  s.mail.notices.foldl (fun s n => if s.getF (ackState n.chan) = 1 then s.putF (ackState n.chan) 2 else s) s

end Sys2Proof.Machine
end

