-- ==== Sys2Proof/Machine/Memory.lean ====
section
/-! DEFINITION. HBM as requesters see it: address mapping (R209), the LLM caches (R204), the bandwidth regulators (R211), context
virtual space (R226, R184, R227, R315), poison (R215) and the undo journal (R299). -/

namespace Sys2Proof.Machine

open Sys2Proof

/-- 2 MiB. -/
def pageBytes : Nat := 2 ^ 21

/-- The stacks of a mask, ascending. -/
def stacksOf (mask : Nat) : List Nat := (List.range 8).filter (bit mask ·)

/-- Is a stack in use (R207)? -/
def State.stackUsed (s : State) (i : Nat) : Bool := s.getF (F.MEM_STACK_STATUS_MODE i) != 2

/-- The stack of window pages 64s to 64s + 63: the lowest-numbered stack in service where stack s is not used (R357). -/
def State.usedStack (s : State) (i : Nat) : Nat :=
  if s.stackUsed i then i else ((List.range 8).find? s.stackUsed).getD i

/-- The stack of the save-area pages of stack s: the other stack of its die, else the lowest in service (R209). -/
def State.saveStack (s : State) (i : Nat) : Nat :=
  let o := if i % 2 = 0 then i + 1 else i - 1
  if s.stackUsed i then i else if s.stackUsed o then o else s.usedStack i

/-- The stack a device memory address lies in, and its pages' stack offset (R209 steps 1 and 2); window and save-area pages lie
wholly in one stack. -/
def State.stackOf (s : State) (addr : Nat) : Nat × Nat :=
  match s.partitionOfPage (addr / pageBytes) with
  | some (_, p) =>
    let st := stacksOf p.stackMask
    let x := (addr / pageBytes - p.first) * pageBytes + addr % pageBytes
    let chunk := x / 4096
    (st.getD (chunk % st.length) 0, chunk / st.length * 4096 + x % 4096)
  | none =>
    let top := leAt (s.section 1 0) 0x0C 4
    let page := addr / pageBytes
    if page < 512 then (s.usedStack (page / 64), addr % pageBytes)
    else if top - 640 ≤ page && page < top then (s.saveStack ((page - (top - 640)) / 80), addr % pageBytes)
    else (0, addr % pageBytes)

/-- The pseudo-channel a unit of 256 bytes of a stack page goes to in full mode (R209 step 4). -/
def pchIndex (z : Nat) : Nat := Nat.xor (z / 256 % 64) (z / 256 / 64 % 64)

/-- The frame on which a stack's page map places a page: a new one after each retirement of a frame (R209, R216; log entry 8). -/
def State.frameOf (s : State) (stack page : Nat) : Nat :=
  Config.frameOf stack (page + 2 ^ 24 * (s.mem.retired.filter (· == page)).length) % 32768

/-- Pseudo-channels of a stack in service, by index in the stack. -/
def State.pchInService (s : State) (stack : Nat) : List Nat :=
  (List.range 64).filter fun i => !bit (s.getF (F.MEM_STACK_STATUS_RETIRED_GROUPS stack)) (i / 8)

/-- The global number of the pseudo-channel that holds an address (R208, R209, R217). -/
def State.pchOf (s : State) (addr : Nat) : Nat :=
  let so := s.stackOf addr
  let z := so.2 % pageBytes
  if s.getF (F.MEM_STACK_STATUS_MODE so.1) = 1 then
    let l := s.pchInService so.1
    so.1 * 64 + l.getD ((s.frameOf so.1 (addr / pageBytes) * 8192 + z / 256) % l.length) 0
  else so.1 * 64 + pchIndex z

/-! ## Poison (R215, R217) -/

/-- Does a unit read as poisoned: marked, or held by a fenced pseudo-channel? -/
def State.badUnit (s : State) (u : Nat) : Bool :=
  storeGet noPoison s.mem.poison u || (!s.mem.fenced.isEmpty && s.mem.fenced.contains (s.pchOf (u * 64)))

/-- Is any unit of a range poisoned? -/
def State.poisoned (s : State) (addr n : Nat) : Bool :=
  !(s.mem.poison.isEmpty && s.mem.fenced.isEmpty) && (unitsOf addr n).any s.badUnit

/-- A write to one 64-byte unit: a whole unit clears poison; a partial write to a poisoned unit is discarded and counted (R215). -/
def State.setUnit (s : State) (u lo : Nat) (part : List Byte) : State :=
  if part.length = 64 then
    { s with mem.poison := storeSet noPoison s.mem.poison u false, mem.orphanCipher := storeSet noPoison s.mem.orphanCipher u false,
             mem.hbm := storeSetRun zeroByte s.mem.hbm lo part }
  else if s.badUnit u then s.addF F.MEM_POISON_STALLS_COUNT 1
  else
    let s := s.openUnit u
    { s with mem.hbm := storeSetRun zeroByte s.mem.hbm lo part }

/-- A write of HBM bytes. -/
def State.setHbm (s : State) (addr : Nat) (bs : List Byte) : State :=
  if s.mem.poison.isEmpty && s.mem.fenced.isEmpty && s.mem.orphanCipher.isEmpty then { s with mem.hbm := storeSetRun zeroByte s.mem.hbm addr bs }
  else
    (unitsOf addr bs.length).foldl (fun s u =>
      let lo := max addr (u * 64)
      let hi := min (addr + bs.length) (u * 64 + 64)
      s.setUnit u lo ((bs.drop (lo - addr)).take (hi - lo))) s

/-- Cache banks of a die: the logical banks whose SCRATCH_MASK bit is clear (R204). -/
def State.cacheBanks (s : State) (die : Nat) : Nat :=
  ((List.range 32).filter fun b => !bit (s.getF (F.MEM_LLM_SCRATCH_MASK die)) b).length

/-- The cache bank and set of a line (R204), from the frame its stack page lies on. -/
def State.cacheSet (s : State) (addr : Nat) : Nat × Nat :=
  let so := s.stackOf addr
  let die := so.1 / 2
  let frame := s.frameOf so.1 (addr / pageBytes)
  let l := ((so.1 % 2) * 2 ^ 36 + frame * pageBytes + so.2 % pageBytes) / 256
  let c := s.cacheBanks die
  (die, if c = 0 then 0 else l % c * 4096 + l / c % 4096)

/-- Bytes moved at an HBM controller, charged to their partition's bucket (R211). -/
def State.chargeBytes (s : State) (addr n : Nat) : State :=
  match s.partitionOfPage (addr / pageBytes) with
  | some (i, p) =>
    let s := s.addP (P.MEM_PART_BYTES i) n
    if p.rate = 0 then s
    else
      let st := (s.stackOf addr).1
      { s with mem.buckets := s.mem.buckets.map fun b =>
          if b.part == i && b.stack == st then { b with level := b.level - 8 * n } else b }
  | none => s

/-- Most-recently-used first: the last line of a full set is the victim (R204). -/
def victimOf (cache : List CacheLine) (die set : Nat) : Option CacheLine :=
  let l := cache.filter fun x => x.die == die && x.set == set
  if l.length < 16 then none else l.getLast?

/-- One access to one line of 256 bytes: hit, miss, fill, write-back. `whole` is a write of the whole line. -/
def State.touchLine (s : State) (addr : Nat) (write whole : Bool) : State :=
  let ds := s.cacheSet addr
  let line := addr / 256
  if s.cacheBanks ds.1 = 0 then s.chargeBytes addr 256
  else
    match s.mem.cache.find? (fun x => x.die == ds.1 && x.line == line) with
    | some x =>
      { s with mem.cache := { x with dirty := x.dirty || write } :: s.mem.cache.filter (fun y => !(y.die == ds.1 && y.line == line)) }.addF
        (F.MEM_LLM_HITS_COUNT ds.1) 1
    | none =>
      let s := s.addF (F.MEM_LLM_MISSES_COUNT ds.1) 1
      let s := if whole then s else s.chargeBytes addr 256
      let s := match victimOf s.mem.cache ds.1 ds.2 with
        | none => s
        | some v =>
          let s := { s with mem.cache := s.mem.cache.filter (fun y => !(y.die == v.die && y.line == v.line)) }
          if v.dirty then (s.chargeBytes (v.line * 256) 256).addF (F.MEM_LLM_WRITEBACKS_COUNT v.die) 1 else s
      { s with mem.cache := ⟨ds.1, line, ds.2, write⟩ :: s.mem.cache }

/-- An access to a range of HBM through the caches. -/
def State.touch (s : State) (addr n : Nat) (write : Bool) : State :=
  if n = 0 then s
  else (List.range ((addr + n - 1) / 256 + 1 - addr / 256)).foldl (fun s i =>
    let l := (addr / 256 + i) * 256
    s.touchLine l write (write && addr ≤ l && l + 256 ≤ addr + n)) s

/-- Dirty lines of a die's banks written back, the lines kept clean (R205). -/
def State.writeBackDie (s : State) (die : Nat) : State :=
  let n := (s.mem.cache.filter fun x => x.die == die && x.dirty).length
  { s with mem.cache := s.mem.cache.map fun (x : CacheLine) => if x.die == die then { x with dirty := false } else x }.addF
    (F.MEM_LLM_WRITEBACKS_COUNT die) n

/-- The bucket capacity of a partition in one stack, in eighths of a byte. -/
def bucketCap (p : Partition) : Int := p.burst * 65536 * 8 / (stacksOf p.stackMask).length

/-- Buckets filled for `ns` nanoseconds, of one partition or of all. -/
def State.fillBuckets (s : State) (only : Option Nat) (ns : Nat) : State :=
  { s with mem.buckets := s.mem.buckets.map fun b =>
      if only.isSome && only != some b.part then b
      else match s.partition b.part with
        | some p => { b with level := min (b.level + p.rate * 8 * ns / (stacksOf p.stackMask).length) (bucketCap p) }
        | none => b }

/-- Time passes: one nanosecond while there is a supply (R54), in which the buckets fill. -/
def State.tick (s : State) : State :=
  if !s.pwr.supply then s else ({ s with timeNs := s.timeNs + 1 }).fillBuckets none 1

/-! ## Context virtual space -/

/-- Where an address of a context's virtual space leads. -/
inductive Place where
  | hbm (addr : Nat) (writable : Bool)
  | llm (key : Nat)
  /-- A PROMOTE of the object has not completed, or the object is LOST: the reader waits (R229, R236). -/
  | waiting
  | pagePort (off : Nat)
  | tierPort (off : Nat)
  | videoPort (off : Nat)
  | unmapped
  deriving DecidableEq, Repr

/-- Does a range of `n` bytes at `base` hold `va`? -/
def inRange64 (va base n : Nat) : Bool := base ≤ va && va < base + n

/-- A port's base when it is set. -/
def portHas (base n va : Nat) : Option Nat := if base ≠ 0 && inRange64 va base n then some (va - base) else none

/-- The mapping an object gives a context at an address (R226, R232). -/
def objPlace (o : TierObj) (ctx va : Nat) : Option Place :=
  if o.tier ≤ 2 then
    if o.owner == ctx && o.mapped && inRange64 va o.va (o.units * pageBytes) then
      some (if o.tier = 1 then .llm (o.place * 2 ^ 32 + o.first * pageBytes + (va - o.va))
            else .hbm (o.first * pageBytes + (va - o.va)) true)
    else none
  else
    match o.pins.find? (fun p => p.ctx == ctx && p.mapped && inRange64 va p.va (o.units * pageBytes)) with
    | some p =>
      if o.resid = .resident then some (.hbm (o.copyPage * pageBytes + (va - p.va)) (o.owner == ctx))
      else some .waiting
    | none => none

/-- Where an address leads (R226). -/
def State.place (s : State) (ctx va : Nat) : Place :=
  match portHas (s.getP (P.JOB_CTX_PAGE_PORT ctx)) (18 * 2 ^ 20) va with
  | some o => .pagePort o
  | none =>
    match portHas (s.getP (P.JOB_CTX_TIER_PORT ctx)) pageBytes va with
    | some o => .tierPort o
    | none =>
      match portHas (s.getP (P.VID_CTX_PORT ctx)) pageBytes va with
      | some o => .videoPort o
      | none =>
        match s.weights with
        | some w =>
          let base := s.getF F.MEM_TIER_WEIGHTS_VA_VA * pageBytes
          if inRange64 va base (w.count * pageBytes) then .hbm (w.first * pageBytes + (va - base)) false
          else ((s.tier.objs.findSome? (objPlace · ctx va)).getD .unmapped)
        | none => (s.tier.objs.findSome? (objPlace · ctx va)).getD .unmapped

/-- Pieces of a range that do not cross a 2 MiB page: address and length. -/
def pagePieces : Nat → Nat → Nat → List (Nat × Nat)
  | 0, _, _ => []
  | fuel + 1, va, n =>
    if n = 0 then []
    else
      let k := min n (pageBytes - va % pageBytes)
      (va, k) :: pagePieces fuel (va + k) (n - k)

def piecesOf (va n : Nat) : List (Nat × Nat) := pagePieces (n / pageBytes + 2) va n

/-- How an access in context virtual space ends. -/
inductive VRes (α : Type) where
  | ok (a : α)
  /-- MAP_FAULT at an address (R226). -/
  | mapFault (va : Nat)
  /-- The access touches a port and must follow the port's rules. -/
  | port
  /-- The object is not yet resident, or is LOST. -/
  | wait
  /-- A poisoned unit, by its address (R215). -/
  | poison (addr : Nat)
  deriving DecidableEq, Repr

/-- Bytes of HBM as a reader receives them: those under an erased key are free (R218). -/
def State.hbmRead (s : State) (addr n : Nat) : List Byte × State := ((s.openRange addr n).hbm addr n, s.openRange addr n)

/-- Reads of the pieces of a range. -/
def readPieces (ctx : Nat) : List (Nat × Nat) → State → VRes (List Byte × State)
  | [], s => .ok ([], s)
  | (va, n) :: t, s =>
    match s.place ctx va with
    | .hbm a _ =>
      if s.poisoned a n then .poison a
      else
        let r := (s.touch a n false).hbmRead a n
        match readPieces ctx t r.2 with
        | .ok (bs, s') => .ok (r.1 ++ bs, s')
        | e => e
    | .llm k =>
      match readPieces ctx t s with
      | .ok (bs, s') => .ok (storeGetRun zeroByte s.mem.llm k n ++ bs, s')
      | e => e
    | .waiting => .wait
    | .unmapped => .mapFault va
    | _ => .port

/-- A read of a range of context virtual space. -/
def State.vRead (s : State) (ctx va n : Nat) : VRes (List Byte × State) := readPieces ctx (piecesOf va n) s

/-- A fetch by the device of a step list, header or instruction: unreadable where it is not mapped memory (R138). -/
def State.vFetch (s : State) (ctx va n : Nat) : VRes (List Byte) :=
  match s.vRead ctx va n with
  | .ok (bs, _) => .ok bs
  | .port => .mapFault va
  | .mapFault v => .mapFault v
  | .wait => .wait
  | .poison a => .poison a

/-! ## The undo journal (R299) -/

/-- 4 KiB units in the journals of all steps, those journaled with no step, and the units staged for peers. -/
def State.undoUnits (s : State) : Nat :=
  s.job.jobs.foldl (fun a j => match j.step with
    | some st => a + (st.effects.filter fun e => match e with | .memory _ _ => true | _ => false).length
    | none => a) (s.rel.loose.length + s.rel.deltas.length)

/-- Capacity of the journal in units: 0 while it is disabled. -/
def State.undoCapacity (s : State) : Nat :=
  if s.getF F.REL_UNDO_CONFIG_ENABLE = 0 then 0
  else match s.partition (s.getF F.REL_UNDO_CONFIG_PARTITION) with
    | some p =>
      let pages := s.getF F.REL_UNDO_CONFIG_PAGES
      if p.persistent && !p.banked && 1 ≤ pages && pages ≤ p.count then pages * 512 else 0
    | none => 0

/-- The journal's pages in use follow its entries. -/
def State.undoShow (s : State) : State := s.putF F.REL_UNDO_USED_PAGES ((s.undoUnits + 511) / 512)

/-- Does an HBM page lie in a PERSISTENT partition other than the undo partition? -/
def State.journaled (s : State) (page : Nat) : Bool :=
  match s.partitionOfPage page with
  | some (i, p) => p.persistent && !(s.getF F.REL_UNDO_CONFIG_ENABLE == 1 && i == s.getF F.REL_UNDO_CONFIG_PARTITION)
  | none => false

/-- Does a job's step already hold a unit's old contents? -/
def State.unitSaved (s : State) (uid u : Nat) : Bool :=
  match s.jobOf uid with
  | some j => match j.step with
    | some st => st.effects.any fun e => match e with | .memory v _ => v == u | _ => false
    | none => false
  | none => false

/-- The listed bytes of a 4 KiB unit. -/
def State.unitBytes (s : State) (u : Nat) : Store Byte :=
  s.mem.hbm.filter fun e => u * 4096 ≤ e.1 && e.1 < u * 4096 + 4096

/-- First writes of a job's step to the units of a range: none when the journal is disabled or full (UNDO_FULL). -/
def State.journal (s : State) (uid addr n : Nat) : Option State :=
  if n = 0 then some s
  else (List.range ((addr + n - 1) / 4096 + 1 - addr / 4096)).foldl (fun r i =>
    match r with
    | none => none
    | some s =>
      let u := addr / 4096 + i
      if s.journaled (u * 4096 / pageBytes) && !s.unitSaved uid u then
        if s.undoCapacity ≤ s.undoUnits then none
        else
          let s := s.openRange (u * 4096) 4096
          some ((s.addEffect uid (.memory u (s.unitBytes u))).undoShow)
      else some s) (some s)

/-- A unit's contents before the step that writes it, where that step's bank phase has not completed (R306). -/
def State.stepOld (s : State) (u : Nat) : Option (Store Byte) :=
  s.job.jobs.findSome? fun j => match j.step with
    | some st =>
      if st.bankPhase == 3 then none
      else st.effects.findSome? fun e => match e with | .memory v old => if v == u then some old else none | _ => none
    | none => none

/-- A host command's write in a partition that is BANKED while the stripe set is FORMED, journaled with no step: none while the
journal is full (R299). -/
def State.journalLoose (s : State) (addr n : Nat) : Option State :=
  match s.partitionOfPage (addr / pageBytes) with
  | some (_, p) =>
    if p.banked && s.getF F.REL_STRIPE_STATUS_STATE == 2 then
      (List.range ((addr + n - 1) / 4096 + 1 - addr / 4096)).foldl (fun r i =>
        match r with
        | none => none
        | some s =>
          let u := addr / 4096 + i
          if s.rel.loose.any (·.1 == u) then some s
          else if s.undoCapacity ≤ s.undoUnits then none
          else
            let s := s.openRange (u * 4096) 4096
            some ({ s with rel.loose := s.rel.loose ++ [(u, (s.stepOld u).getD (s.unitBytes u))] }.undoShow)) (some s)
    else some s
  | none => some s

/-- A unit's old contents written back. -/
def State.restoreUnit (s : State) (u : Nat) (old : Store Byte) : State :=
  { s with mem.hbm := storePaste zeroByte s.mem.hbm (u * 4096) old (u * 4096) 4096 }

/-! ## Group descriptors (R265, R302) -/

/-- Bits set in a mask of 1,024. -/
def maskRanks (m : Nat) : List Nat := (List.range 1024).filter (bit m ·)

/-- Is a group descriptor within Table COL-1, apart from its member list? `anyRoot`: CORE_MASK, and with it ROOT, is not looked
at (R302). -/
def groupForm (anyRoot : Bool) (d : List Byte) : Bool :=
  leAt d 0 2 == 1 && leAt d 2 2 < 2 && 1 ≤ leAt d 8 4 && leAt d 8 4 ≤ 1048576 && 2 ≤ leAt d 0x0C 1 && leAt d 0x0C 1 ≤ 32 &&
    leAt d 0x0D 3 == 0 && leAt d 0x14 4 < leAt d 8 4 && leAt d 0x18 8 % 64 == 0 &&
    (anyRoot || leAt d 0x10 4 < leAt d 8 4 * (maskRanks (leAt d 0x20 128)).length)

/-- Has a context a valid bank group (R302): MAY_BANK, a descriptor that can be read and is in form, and the entry at SELF naming
this module and the context? -/
def State.bankGroupOk (s : State) (ctx : Nat) : Bool :=
  let g := s.getP (P.REL_CTX_BANK_GROUP ctx)
  g != 0 && g % 64 == 0 && (s.ctx ctx).mayBank &&
    match s.vFetch ctx g 160 with
    | .ok d =>
      groupForm true d &&
        match s.vFetch ctx (leAt d 0x18 8 + 4 * leAt d 0x14 4) 4 with
        | .ok e => leNat e == s.deviceId + ctx * 2 ^ 20
        | _ => false
    | _ => false

/-- Does an HBM address lie in a BANKED partition? -/
def State.inBanked (s : State) (addr : Nat) : Bool :=
  match s.partitionOfPage (addr / pageBytes) with
  | some (_, p) => p.banked
  | none => false

/-- How a write in context virtual space ends. -/
inductive VWrite where
  | ok (s : State)
  /-- A banked write without a valid bank group (R302). -/
  | bankBad
  | mapFault (va : Nat)
  | undoFull
  | port
  | wait
  deriving DecidableEq, Repr

/-- A resident copy was written (R233, R234). -/
def State.markCopies (s : State) (page : Nat) : State :=
  { s with tier.objs := s.tier.objs.map fun o =>
      if o.tier == 3 && o.resid == .resident && o.copyPage ≤ page && page < o.copyPage + o.units then
        { o with copyDirty := true } else o }

/-- Writes of the pieces of a range by a job's step. -/
def writePieces (ctx uid : Nat) : List (Nat × Nat) → List Byte → State → VWrite
  | [], _, s => .ok s
  | (va, n) :: t, bs, s =>
    match s.place ctx va with
    | .hbm a true =>
      if s.inBanked a && !s.bankGroupOk ctx then .bankBad
      else
      match s.journal uid a n with
      | none => .undoFull
      | some s => writePieces ctx uid t (bs.drop n) (((s.touch a n true).setHbm a (bs.take n)).markCopies (a / pageBytes))
    | .hbm _ false => .mapFault va
    | .llm k => writePieces ctx uid t (bs.drop n) { s with mem.llm := storeSetRun zeroByte s.mem.llm k (bs.take n) }
    | .waiting => .wait
    | .unmapped => .mapFault va
    | _ => .port

/-- A write of a range of context virtual space. -/
def State.vWrite (s : State) (ctx uid va : Nat) (bs : List Byte) : VWrite :=
  writePieces ctx uid (piecesOf va bs.length) bs s

end Sys2Proof.Machine
end

