-- ==== Sys2Proof/Machine/Transcend.lean ====
section
/-! DEFINITION. The special functions (R169 to R171, Tables VEC-3 and VEC-4, 09_vector_special.md). The manual bounds their error
and does not state their bits: a result is a free word of Config kept when it lies within the bound, and the nearest word
otherwise. The bound is judged against series evaluated to 256 fractional bits (log entry 3). -/

namespace Sys2Proof.Machine

open Sys2Proof

/-- Fractional bits of the fixed-point series. -/
def fxBits : Nat := 256

def fxOne : Int := 2 ^ 256

/-- ln 2 with 300 fractional bits. -/
def ln2Fx300 : Int := 1411965743695424507508857192728570223734551239724995589061361292466257174357546532574725854

/-- 2π with 440 fractional bits. -/
def twoPiFx440 : Int := 17839306223372310723189790567482915335855509235951622034808292997245809955875717038656896953131357425481864998801872761555592544450721

/-- √½ with 256 fractional bits. -/
def sqrtHalfFx : Int := 81877371507464127617551201542979628307507432471243237061821853600756754782485

/-- 2 ÷ √π with 256 fractional bits. -/
def twoOverSqrtPiFx : Int := 130657381209852114387528029350014196574164286124850014242073919076264802271585

/-- A number as fixed point with `p` fractional bits, rounded down. -/
def toFx (p : Nat) (d : Dy) : Int :=
  let k := d.e + p
  if 0 ≤ k then d.m * pow2 k else d.m / pow2 (-k)

/-- Σ r^i ÷ i! in fixed point, `n` terms after the first. -/
def fxExpSeries (r : Int) : Nat → Int → Int → Int → Int
  | 0, _, _, acc => acc
  | n + 1, i, term, acc =>
    let t := term * r / fxOne / i
    fxExpSeries r n (i + 1) t (acc + t)

/-- e^x for |x| below about 4,000. -/
def expApprox (x : Dy) : Dy :=
  let xf := toFx 300 x
  let k := xf / ln2Fx300
  let r := (xf - k * ln2Fx300) / 2 ^ 44
  ⟨fxExpSeries r 70 1 fxOne fxOne, k - 256⟩

/-- Σ t^(2i+1) ÷ (2i+1) in fixed point. -/
def fxAtanhSeries (t2 : Int) : Nat → Int → Int → Int → Int
  | 0, _, _, acc => acc
  | n + 1, i, term, acc => fxAtanhSeries t2 n (i + 2) (term * t2 / fxOne) (acc + term / i)

/-- ln y for y > 0. -/
def lnApprox (y : Dy) : Dy :=
  let l := Nat.log2 y.m.natAbs
  let f : Int := toFx 256 ⟨y.m, -(l : Int)⟩
  let t := (f - fxOne) * fxOne / (f + fxOne)
  let s := 2 * fxAtanhSeries (t * t / fxOne) 90 1 t 0
  ⟨s + ((l : Int) + y.e) * (ln2Fx300 / 2 ^ 44), -256⟩

/-- Alternating Taylor series from a first term: sine from θ at i = 1, cosine from 1 at i = 0. -/
def fxTrigSeries (th2 : Int) : Nat → Int → Int → Int → Int
  | 0, _, _, acc => acc
  | n + 1, i, term, acc =>
    let t := -(term * th2 / fxOne) / ((i + 1) * (i + 2))
    fxTrigSeries th2 n (i + 2) t (acc + t)

def fxSin (th : Int) : Dy := ⟨fxTrigSeries (th * th / fxOne) 60 1 th th, -256⟩
def fxCos (th : Int) : Dy := ⟨fxTrigSeries (th * th / fxOne) 60 0 fxOne fxOne, -256⟩

/-- An angle in radians reduced to [0, 2π) in fixed point, exactly to 440 fractional bits (R169). -/
def reduceRadians (x : Dy) : Int := (toFx 440 x % twoPiFx440) / 2 ^ 184

/-- The angle of a 64-bit fraction of a turn (R171). -/
def turnAngle (u : Nat) : Int := (u : Int) * twoPiFx440 / 2 ^ 248

/-- Σ (−1)^i z^(2i+1) ÷ (i!(2i+1)), the series of the error function. -/
def fxErfSeries (z2 : Int) : Nat → Int → Int → Int → Int
  | 0, _, _, acc => acc
  | n + 1, i, term, acc =>
    fxErfSeries z2 n (i + 1) (-(term * z2 / fxOne) / (i + 1)) (acc + term / (2 * i + 1))

/-- erf(x ÷ √2), taken as ±1 beyond |x| = 16, where it differs by less than 2⁻¹⁸⁰. -/
def erfHalf (x : Dy) : Int :=
  if dyLt ⟨16, 0⟩ x then fxOne
  else if dyLt x ⟨-16, 0⟩ then -fxOne
  else
    let z := toFx 256 x * sqrtHalfFx / fxOne
    twoOverSqrtPiFx * fxErfSeries (z * z / fxOne) 520 0 z 0 / fxOne

/-- A number held between two bounds. -/
def dyClamp (lo hi : Int) (d : Dy) : Dy :=
  if dyLt d ⟨lo, 0⟩ then ⟨lo, 0⟩ else if dyLt ⟨hi, 0⟩ d then ⟨hi, 0⟩ else d

/-- A quotient of two numbers, to 256 fractional bits beyond the divisor's size. -/
def dyQuot (a b : Dy) : Dy :=
  let k := 256 + Nat.log2 b.m.natAbs
  ⟨a.m * 2 ^ k / b.m, a.e - b.e - k⟩

/-- 1 ÷ (1 + e^−x). -/
def sigmoidApprox (x : Dy) : Dy :=
  dyQuot ⟨1, 0⟩ (dyAdd ⟨1, 0⟩ (expApprox (dyNeg (dyClamp (-1000) 1000 x))))

/-- tanh x. -/
def tanhApprox (x : Dy) : Dy :=
  let c := dyClamp (-100) 100 x
  let e2 := expApprox ⟨c.m * 2, c.e⟩
  dyQuot (dySub e2 ⟨1, 0⟩) (dyAdd e2 ⟨1, 0⟩)

/-- 0.5 x (1 + erf(x ÷ √2)). -/
def geluApprox (x : Dy) : Dy := dyMul ⟨x.m, x.e - 1⟩ ⟨fxOne + erfHalf x, -256⟩

/-- x ÷ (1 + e^−x). -/
def siluApprox (x : Dy) : Dy := dyMul x (sigmoidApprox x)

/-- Integer square root by bits: `n` bits still to set. -/
def isqrtBits (v : Nat) : Nat → Nat → Nat
  | 0, r => r
  | n + 1, r =>
    let c := r + 2 ^ n
    isqrtBits v n (if c * c ≤ v then c else r)

/-- ⌊√v⌋ for v below 2^1200. -/
def isqrt (v : Nat) : Nat := isqrtBits v 600 0

/-- 1 ÷ √x for x > 0. -/
def rsqrtApprox (x : Dy) : Dy :=
  let odd : Bool := x.e % 2 != 0
  let m : Nat := if odd then x.m.natAbs * 2 else x.m.natAbs
  let e : Int := if odd then x.e - 1 else x.e
  let k : Nat := 300
  ⟨(isqrt (2 ^ (2 * k) / m) : Nat), -(k : Int) - e / 2⟩

/-- The ulp of a number in FP32: never below 2⁻¹⁴⁹ (R169). -/
def fp32Ulp (d : Dy) : Dy := if d.m = 0 then ⟨1, -149⟩ else ⟨1, max (dyLog2 d - 23) (-149)⟩

/-- Is the FP32 word a finite value within `bound` of `d`? -/
def fpWithin (w : Nat) (d bound : Dy) : Bool :=
  match fp w with
  | .fin n m e => !dyLt bound (let x := dySub (fvDy (.fin n m e)) d; ⟨x.m.natAbs, x.e⟩)
  | _ => false

/-- The delivered word of a function: the free word when it is within the bound of Table VEC-3, otherwise the nearest. -/
def boundedWord (free ulps : Nat) (floorBound : Dy) (d : Dy) : Nat :=
  let u := fp32Ulp d
  let b : Dy := ⟨ulps * u.m, u.e⟩
  let bound := if dyLt b floorBound then floorBound else b
  if fpWithin (free % 2 ^ 32) d bound then free % 2 ^ 32 else (fpOut (dyFv false d)).1

/-- UF of R112 for an exact result whose rounding lies below the smallest normal. -/
def tinyFlag (d : Dy) : Flags :=
  if d.m ≠ 0 && dyLt ⟨(roundSig .rne 0 24 (-149) d.m.natAbs d.e).1, (roundSig .rne 0 24 (-149) d.m.natAbs d.e).2.1⟩ (fmtMinNormal fmtFP32)
  then flagUF else 0

/-- A result that no FP32 word equals exactly: the bounded word, NX, and UF where tiny. -/
def inexactWord (free ulps : Nat) (floorBound : Dy) (d : Dy) : Nat × Flags :=
  (boundedWord free ulps floorBound d, flagNX ||| tinyFlag d)

/-- An SFU function on one FP32 input word (Tables VEC-3 and VEC-4). `none` for a function code that is not one of 0x0 to 0x9. -/
def sfuFn (fn : Nat) (w : Nat) : Option (Nat × Flags) :=
  let nan : Nat × Flags := (0x7FC00000, flagNV)
  let free := Config.sfuWord fn w
  let pinf : Nat := 0x7F800000
  let ninf : Nat := 0xFF800000
  match fn with
  | 0x0 => some (match fp w with
    | .nan => nan
    | .inf n => (if n then 0 else pinf, 0)
    | .fin n m e =>
      let d := fvDy (.fin n m e)
      if m = 0 then (0x3F800000, 0)
      else if dyLt ⟨8872, 0⟩ ⟨d.m * 100, d.e⟩ then (pinf, flagOF ||| flagNX)
      else if dyLt ⟨d.m * 100, d.e⟩ ⟨-10397, 0⟩ then (0, flagUF ||| flagNX)
      else inexactWord free 1 dyZero (expApprox d))
  | 0x1 => some (match fp w with
    | .nan => nan
    | .inf n => if n then nan else (pinf, 0)
    | .fin n m e =>
      if m = 0 then (ninf, 0)
      else if n then nan
      else
        let d := lnApprox (fvDy (.fin n m e))
        if fvDy (fp 0x3F800000) == fvDy (fp w) then
          let r := boundedWord free 1 dyZero dyZero
          (r, if r % 2 ^ 31 = 0 then 0 else flagNX)
        else inexactWord free 1 dyZero d)
  | 0x2 => some (match fp w with
    | .nan => nan
    | .inf n => (if n then 0x80000000 else 0, 0)
    | .fin n m e =>
      if m = 0 then (if n then ninf else pinf, 0)
      else fpOut (fvDiv (fp 0x3F800000) (.fin n m e)))
  | 0x3 => some (match fp w with
    | .nan => nan
    | .inf n => if n then nan else (0, 0)
    | .fin n m e =>
      if m = 0 then (if n then ninf else pinf, 0)
      else if n then nan
      else
        let d := fvDy (.fin n m e)
        let r := boundedWord free 1 dyZero (rsqrtApprox d)
        let sq := dyMul (dyMul (fvDy (fp r)) (fvDy (fp r))) d
        (r, if (dySub sq ⟨1, 0⟩).m = 0 then 0 else flagNX))
  | 0x4 => some (match fp w with
    | .nan => nan
    | .inf n => (if n then 0 else 0x3F800000, 0)
    | .fin n m e =>
      if m = 0 then (0x3F000000, 0) else inexactWord free 2 dyZero (sigmoidApprox (fvDy (.fin n m e))))
  | 0x5 => some (match fp w with
    | .nan => nan
    | .inf n => (if n then 0xBF800000 else 0x3F800000, 0)
    | .fin n m e =>
      if m = 0 then (w, 0) else inexactWord free 2 dyZero (tanhApprox (fvDy (.fin n m e))))
  | 0x6 => some (match fp w with
    | .nan => nan
    | .inf n => (if n then 0x80000000 else pinf, 0)
    | .fin n m e =>
      if m = 0 then (w, 0) else inexactWord free 2 ⟨1, -32⟩ (geluApprox (fvDy (.fin n m e))))
  | 0x7 => some (match fp w with
    | .nan => nan
    | .inf n => (if n then 0x80000000 else pinf, 0)
    | .fin n m e =>
      if m = 0 then (w, 0) else inexactWord free 2 ⟨1, -32⟩ (siluApprox (fvDy (.fin n m e))))
  | 0x8 => some (match fp w with
    | .nan => nan
    | .inf _ => nan
    | .fin n m e =>
      if m = 0 then (w, 0) else inexactWord free 1 dyZero (fxSin (reduceRadians (fvDy (.fin n m e)))))
  | 0x9 => some (match fp w with
    | .nan => nan
    | .inf _ => nan
    | .fin n m e =>
      if m = 0 then (0x3F800000, 0) else inexactWord free 1 dyZero (fxCos (reduceRadians (fvDy (.fin n m e)))))
  | _ => none

/-- One output of SINCOS_POS for a phase of 64 bits (R171): which = 0 cosine, 1 sine. -/
def sincosTurn (which u : Nat) : Nat × Flags :=
  if u % 2 ^ 62 = 0 then
    let q := (u / 2 ^ 62 + (if which = 0 then 1 else 0)) % 4
    (if q = 0 then 0 else if q = 1 then 0x3F800000 else if q = 2 then 0 else 0xBF800000, 0)
  else
    inexactWord (Config.sincosWord which u) 1 dyZero (if which = 0 then fxCos (turnAngle u) else fxSin (turnAngle u))

/-! ## The extended internal format (R165 to R168) -/

/-- The value of an extended-format code. -/
def ext (c : Nat) : FV := decodeFloat fmtExt c

/-- An exact value rounded into the extended format. -/
def extOut (v : FV) : Nat := (deliverIeee fmtExt v).1

def extAdd (a b : Nat) : Nat := extOut (fvAdd (ext a) (ext b))
def extSub (a b : Nat) : Nat := extOut (fvAdd (ext a) (fvNeg (ext b)))
def extDiv (a b : Nat) : Nat := extOut (fvDiv (ext a) (ext b))

/-- Is a code a finite value within `bound` of `d`? -/
def extWithin (c : Nat) (d bound : Dy) : Bool :=
  match ext c with
  | .fin n m e => !dyLt bound (let x := dySub (fvDy (.fin n m e)) d; ⟨x.m.natAbs, x.e⟩)
  | _ => false

/-- e^x in the extended format: −∞ gives +0 exactly (R166); otherwise within 3 × 2⁻²⁴ of the exact value (R168). -/
def extExp (c : Nat) : Nat :=
  match ext c with
  | .nan => fmtExt.nanCode
  | .inf n => if n then 0 else infCode fmtExt false
  | .fin n m e =>
    let d := expApprox (fvDy (.fin n m e))
    let free := Config.extExp c % 2 ^ 35
    if extWithin free d ⟨3 * d.m, d.e - 24⟩ then free else extOut (dyFv false d)

/-- ln of a positive value in the extended format, within 2⁻¹⁴ (R168). -/
def extLn (c : Nat) : Nat :=
  match ext c with
  | .fin n m e =>
    if m = 0 || n then infCode fmtExt true
    else
      let d := lnApprox (fvDy (.fin n m e))
      let free := Config.extLn c % 2 ^ 35
      if extWithin free d ⟨1, -14⟩ then free else extOut (dyFv false d)
  | _ => fmtExt.nanCode

end Sys2Proof.Machine
end

