-- ==== Sys2Proof/Machine/KvOps.lean ====
section
/-! DEFINITION. Operations of the page units (R175 to R187, 10_attention_kv.md): descriptors, references, space, summaries. -/

namespace Sys2Proof.Machine

open Sys2Proof

def State.kvPage (s : State) (i : Nat) : KvPage := storeGet (fun _ => KvPage.free) s.kv.pages i

def State.setKvPage (s : State) (i : Nat) (p : KvPage) : State :=
  { s with kv.pages := storeSet (fun _ => KvPage.free) s.kv.pages i p }

/-- The page ID of a descriptor (R177). -/
def kvId (i : Nat) (p : KvPage) : Nat := p.gen * 2 ^ 24 + i

/-- The descriptor an ID names: none for the null page and for a stale generation (R177). -/
def State.kvNamed (s : State) (id : Nat) : Option (Nat × KvPage) :=
  let i := id % 2 ^ 24
  let p := s.kvPage i
  if i = 0xFFFFFF then none else if p.state ≠ 0 && p.gen = id / 2 ^ 24 then some (i, p) else none

/-- The head dimension of a FORMAT. -/
def kvDim (fmt : Nat) : Nat := 32 * (bits fmt 3 1 + 1)

/-- Element format of a page: MXFP8 E4M3 or QF4 (Table KV-1). -/
def kvFmt (fmt : Nat) : Nat := if bit fmt 0 then 9 else 4

def kvKRow (fmt : Nat) : Nat := rowBytes (kvFmt fmt) (kvDim fmt)
def kvVRow (fmt : Nat) : Nat := rowBytes (kvFmt fmt) 256
def kvKBytes (fmt : Nat) : Nat := 256 * kvKRow fmt
def kvPageBytes (fmt : Nat) : Nat := kvKBytes fmt + kvDim fmt * kvVRow fmt

/-- The KV partition when the page units are enabled and it can serve (R176). -/
def State.kvPart (s : State) : Option Partition :=
  if s.getF F.MEM_KV_CONFIG_ENABLE = 0 then none
  else match s.partition (s.getF F.MEM_KV_CONFIG_PARTITION) with
    | some p =>
      if p.persistent && 2 ^ s.getF F.MEM_KV_CONFIG_LOG2_DESC * 32 ≤ p.count * pageBytes then some p else none
    | none => none

/-- References of a context's journal. -/
def State.kvJournal (s : State) (ctx : Nat) : List KvRef := s.kv.refs.filter (·.ctx == ctx)

def State.kvHeld (s : State) (ctx id : Nat) : Nat :=
  match s.kv.refs.find? (fun r => r.ctx == ctx && r.id == id) with
  | some r => r.count
  | none => 0

/-- A context's count on a page set; 0 removes the entry. -/
def State.setKvHeld (s : State) (ctx id n : Nat) : State :=
  let rest := s.kv.refs.filter fun r => !(r.ctx == ctx && r.id == id)
  { s with kv.refs := if n = 0 then rest
      else if s.kvHeld ctx id = 0 then rest ++ [⟨ctx, id, n⟩]
      else s.kv.refs.map fun r => if r.ctx == ctx && r.id == id then ⟨ctx, id, n⟩ else r }

/-- The lowest place of a size and alignment in [start, stop) clear of the used ranges (log entry 9). -/
def firstFit (start stop align size : Nat) (used : List (Nat × Nat)) : Option Nat :=
  let up (x : Nat) : Nat := (x + align - 1) / align * align
  let cands := (up start :: used.map fun (a, n) => up (a + n)).filter fun c =>
    start ≤ c && c + size ≤ stop && used.all fun (a, n) => a + n ≤ c || c + size ≤ a
  match cands with
  | [] => none
  | c :: t => some (t.foldl min c)

/-- Ranges of the KV partition in use by pages and summaries. -/
def State.kvUsed (s : State) : List (Nat × Nat) :=
  (s.kv.pages.filter fun e => e.2.state != 0).flatMap fun e => [(e.2.address, kvPageBytes e.2.format), (e.2.summary, 264)]

/-- A place for a page of a format and its summary, and the lowest free descriptor. -/
def State.kvSpace (s : State) (fmt : Nat) : Option (Nat × Nat × Nat) :=
  match s.kvPart with
  | none => none
  | some p =>
    let n := 2 ^ s.getF F.MEM_KV_CONFIG_LOG2_DESC
    let start := p.first * pageBytes + n * 32
    let stop := (p.first + p.count) * pageBytes - 8 * s.kv.refs.length - 8
    match (List.range n).find? (fun i => (s.kvPage i).state == 0 && i != 0xFFFFFF) with
    | none => none
    | some i =>
      match firstFit start stop 256 (kvPageBytes fmt) s.kvUsed with
      | none => none
      | some a =>
        match firstFit start stop 8 264 ((a, kvPageBytes fmt) :: s.kvUsed) with
        | none => none
        | some m => some (i, a, m)

/-- A page with neither references nor pins becomes FREE and its generation advances; one with pins only is RELEASING (R181). -/
def State.kvSettle (s : State) (i : Nat) : State :=
  let p := s.kvPage i
  if p.state = 0 || p.refs ≠ 0 then s
  else if p.pins = 0 then s.setKvPage i { KvPage.free with gen := (p.gen + 1) % 256 }
  else s.setKvPage i { p with state := 3 }

/-- REF_COUNT lowered by `n`. -/
def State.kvDrop (s : State) (id n : Nat) : State :=
  match s.kvNamed id with
  | some (i, p) => (s.setKvPage i { p with refs := p.refs - n }).kvSettle i
  | none => s

/-- A reference gained: REF_COUNT and the journal. -/
def State.kvGain (s : State) (ctx id : Nat) : State :=
  match s.kvNamed id with
  | some (i, p) => (s.setKvPage i { p with refs := p.refs + 1 }).setKvHeld ctx id (s.kvHeld ctx id + 1)
  | none => s

/-- A pin released (R181). -/
def State.kvUnpin (s : State) (i : Nat) : State :=
  (s.setKvPage i { s.kvPage i with pins := (s.kvPage i).pins - 1 }).kvSettle i

def State.kvPin (s : State) (i : Nat) : State := s.setKvPage i { s.kvPage i with pins := (s.kvPage i).pins + 1 }

/-- The page in a write slot of a context (R184). -/
def State.kvSlot (s : State) (ctx slot : Nat) : Option (Nat × KvPage) :=
  s.kv.pages.find? fun e => e.2.state == 1 && e.2.owner == ctx && e.2.slot == slot

/-- Everything a context's journal holds is dropped, and pages it owned become orphans (R179, R182). -/
def State.kvForget (s : State) (ctx : Nat) : State :=
  let s := (s.kvJournal ctx).foldl (fun s r => (s.setKvHeld ctx r.id 0).kvDrop r.id r.count) s
  { s with kv.pages := s.kv.pages.map fun e =>
      if e.2.owner == ctx && e.2.state != 0 && !e.2.orphan then (e.1, { e.2 with orphan := true }) else e }

/-- FP32 square root, correctly rounded. -/
def fpSqrt (w : Nat) : Nat :=
  match fp w with
  | .fin n m e =>
    if m = 0 then w
    else if n then 0x7FC00000
    else
      let odd : Bool := e % 2 != 0
      let mm := (if odd then 2 * m else m) * 2 ^ 64
      let ee : Int := (if odd then e - 1 else e) - 64
      let r := isqrt mm
      (fpOut (.fin false (2 * r + (if r * r = mm then 0 else 1)) (ee / 2 - 1))).1
  | .inf n => if n then 0x7FC00000 else 0x7F800000
  | .nan => 0x7FC00000

/-- fold(x): D elements into 128 (R187). -/
def kvFold (x : List Nat) : List Nat :=
  (List.range 128).map fun i => (fpAdd (x.getD i 0) (x.getD (i + 128) 0)).1

/-- The FP32 words of key position `p` of a page. -/
def State.kvKey (s : State) (pg : KvPage) (p : Nat) : List Nat :=
  (decodeRow (kvFmt pg.format) (kvDim pg.format) (s.hbm (pg.address + p * kvKRow pg.format) (kvKRow pg.format))).map
    fun v => (widen fmtFP32 .rne 0 v).code

/-- The 264-byte summary of a page with `fill` positions (R187). -/
def State.kvSummary (s : State) (pg : KvPage) (fill : Nat) : List Byte :=
  let folds := (List.range fill).map fun p => kvFold (s.kvKey pg p)
  let sums := folds.foldl (fun a x => (a.zip x).map fun (u, v) => (fpAdd u v).1) (List.replicate 128 0)
  let mu := sums.map fun u => (fpDiv u (fpOut (.fin false fill 0)).1).1
  let norms := folds.map fun x => fpSqrt ((x.zip mu).foldl (fun a (k, m) => (fpFma (fpSub k m).1 (fpSub k m).1 a).1) 0)
  let mx := norms.foldl (fun a n => (fpMax a n).1) 0
  ((mu.map fun u => leBytes 2 (narrow fmtBF16 .rne true 0 (fp u)).code).flatten) ++ leBytes 4 mx ++ leBytes 2 fill ++ leBytes 2 0

/-- Bytes of KV pages a context is charged for: contents, summaries, journal entries (R179, R182). -/
def State.kvCharge (s : State) (ctx : Nat) : Nat :=
  (s.kv.pages.filter fun e => e.2.state != 0 && e.2.owner == ctx && !e.2.orphan).foldl
    (fun a e => a + kvPageBytes e.2.format + 264) (8 * (s.kvJournal ctx).length)

end Sys2Proof.Machine
end

