-- ==== Sys2Proof/Machine/TierOps.lean ====
section
/-! DEFINITION. Operations of the tier manager (R222 to R242, 12_tiers_flash.md): objects, charges, space, residency. -/

namespace Sys2Proof.Machine

open Sys2Proof

def State.obj (s : State) (slot : Nat) : Option TierObj := s.tier.objs.find? (·.slot == slot)

def State.setObj (s : State) (o : TierObj) : State :=
  { s with tier.objs := s.tier.objs.map fun x => if x.slot == o.slot then o else x }

def State.addObj (s : State) (o : TierObj) : State := { s with tier.objs := s.tier.objs ++ [o] }

def State.gen (s : State) (slot : Nat) : Nat := storeGet (fun _ => 0) s.tier.gens slot

/-- A slot freed: its object leaves the table and GENERATION advances modulo 2^14 (R224). -/
def State.freeSlot (s : State) (slot : Nat) : State :=
  { s with tier.objs := s.tier.objs.filter (·.slot != slot),
           tier.gens := storeSet (fun _ => 0) s.tier.gens slot ((s.gen slot + 1) % 2 ^ 14) }

/-- A buffer handle (Table TIR-2). -/
def handleOf (s : State) (o : TierObj) : Nat :=
  o.tier * 2 ^ 62 + s.gen o.slot * 2 ^ 48 + o.owner * 2 ^ 40 + o.slot

/-- Is the tier manager able to serve (R224)? -/
def State.tierOn (s : State) : Bool :=
  s.getF F.MEM_TIER_CONFIG_ENABLE == 1 &&
    match s.partition (s.getF F.MEM_TIER_CONFIG_PARTITION) with
    | some p => p.persistent && 2 ^ s.getF F.MEM_TIER_CONFIG_LOG2_OBJ * 32 ≤ p.count * pageBytes
    | none => false

/-- Cores a context's steps hold, a preempted victim's included (R223). -/
def State.coresHeld (s : State) (ctx : Nat) : Nat :=
  (s.job.jobs.filter (·.ctx == ctx)).foldl (fun a j => match j.step with | some st => a + st.cores.length | none => a) 0

/-- A context's charge in a tier, in bytes (R223, R230, R231). -/
def State.charge (s : State) (ctx tier : Nat) : Nat :=
  if tier = 0 then s.coresHeld ctx * 16 * 65536
  else
    let own := (s.tier.objs.filter fun o => o.tier == tier && o.owner == ctx && !o.dying).foldl (fun a o => a + o.units * pageBytes) 0
    if tier = 2 then
      own + s.kvCharge ctx +
        (s.tier.objs.filter fun o => o.tier == 3 && o.copyOwner == some ctx).foldl (fun a o => a + o.units * pageBytes) 0
    else own

/-- Would `n` more bytes exceed the quota of a context in a tier? -/
def State.overQuota (s : State) (ctx tier n : Nat) : Bool :=
  s.quotaOf (s.ctx ctx).quota tier * 65536 < s.charge ctx tier + n

/-- HBM pages of a partition in use by allocations and resident copies. -/
def State.pagesUsed (s : State) (part : Nat) : List (Nat × Nat) :=
  (s.tier.objs.filter fun o => o.tier == 2 && o.place == part).map (fun o => (o.first, o.units)) ++
  (s.tier.objs.filter fun o => o.tier == 3 && (o.resid == .resident || o.resid == .promoting) && o.copyPart == part).map
    (fun o => (o.copyPage, o.units))

/-- Pages an ALLOC may use of a partition: the undo journal's pages are not among them (R299). -/
def State.allocStart (s : State) (part : Nat) (p : Partition) : Nat :=
  if s.getF F.REL_UNDO_CONFIG_ENABLE = 1 && s.getF F.REL_UNDO_CONFIG_PARTITION = part then
    p.first + s.getF F.REL_UNDO_CONFIG_PAGES
  else p.first

/-- A place for `units` contiguous pages of a partition, lowest first (log entry 9). -/
def State.placePages (s : State) (part units : Nat) : Option Nat :=
  match s.partition part with
  | some p => firstFit (s.allocStart part p) (p.first + p.count) 1 units (s.pagesUsed part)
  | none => none

/-- A copy dropped: the object is ABSENT and its charge ends. -/
def State.dropCopy (s : State) (o : TierObj) : State :=
  s.setObj { o with resid := .absent, copyOwner := none, copyDirty := false, evict := false }

/-- Evictions, least recently unpinned first, until the request fits (R233). -/
def evictUntil (part units : Nat) : Nat → State → Option (Nat × State)
  | 0, _ => none
  | fuel + 1, s =>
    match s.placePages part units with
    | some p => some (p, s)
    | none =>
      let cands := s.tier.objs.filter fun o =>
        o.tier == 3 && o.resid == .resident && o.copyPart == part && o.pins.isEmpty && !o.copyDirty
      match cands with
      | [] => none
      | c :: t =>
        let v := t.foldl (fun a o => if o.unpinned < a.unpinned then o else a) c
        evictUntil part units fuel ((s.dropCopy v).addF F.MEM_TIER_EVICTIONS_COUNT 1)

/-- A place for pages, evicting where the partition is full. -/
def State.spaceFor (s : State) (part units : Nat) : Option (Nat × State) :=
  evictUntil part units (s.tier.objs.length + 1) s

/-- Flash units in use: tier-3 objects, kept objects, the golden copy (R238, R242). -/
def State.flashUsed (s : State) : Nat :=
  (s.tier.objs.filter fun o => o.tier == 3).foldl (fun a o => a + o.units + (if o.fresh.isSome then o.units else 0)) 0 +
    s.tier.kept.foldl (fun a k => if k.adopting || k.pending then a else a + k.units) 0 + s.tier.goldenPages.length

/-- Usable flash in 2 MiB units. -/
def State.flashUnits (s : State) : Nat := s.getF F.MEM_FLASH_CAPACITY_GIB * 512

/-- The scratch banks of a die's LLM in 2 MiB units (R204, R222). -/
def State.llmUnits (s : State) (die : Nat) : Nat :=
  ((List.range 32).filter fun b => bit (s.getF (F.MEM_LLM_SCRATCH_MASK die)) b).length * 8

/-- A place for units of a die's tier 1, lowest first (log entry 9). -/
def State.placeLlm (s : State) (die units : Nat) : Option Nat :=
  firstFit 0 (s.llmUnits die) 1 units
    ((s.tier.objs.filter fun o => o.tier == 1 && o.place == die).map fun o => (o.first, o.units))

/-- The lowest free object slot. -/
def State.freeObjSlot (s : State) : Option Nat :=
  (List.range (min (2 ^ s.getF F.MEM_TIER_CONFIG_LOG2_OBJ) (s.tier.objs.length + 1))).find? fun i => (s.obj i).isNone

/-- Does a range of a context's virtual space overlap a mapping or a port of the context (R226)? -/
def State.vaOverlaps (s : State) (ctx va units : Nat) : Bool :=
  let n := units * pageBytes
  let hit (a m : Nat) : Bool := a < va + n && va < a + m
  let port (b m : Nat) : Bool := b != 0 && hit b m
  port (s.getP (P.JOB_CTX_PAGE_PORT ctx)) (18 * 2 ^ 20) || port (s.getP (P.JOB_CTX_TIER_PORT ctx)) pageBytes ||
    port (s.getP (P.VID_CTX_PORT ctx)) pageBytes ||
    (match s.weights with | some w => hit (s.getF F.MEM_TIER_WEIGHTS_VA_VA * pageBytes) (w.count * pageBytes) | none => false) ||
    s.tier.objs.any fun o =>
      if o.tier ≤ 2 then o.owner == ctx && o.mapped && hit o.va (o.units * pageBytes)
      else o.pins.any fun p => p.ctx == ctx && p.mapped && hit p.va (o.units * pageBytes)

/-- 64 KiB units of copies charged to no context (R231). -/
def State.orphanUnits (s : State) : Nat :=
  (s.tier.objs.filter fun o => o.tier == 3 && (o.resid == .resident || o.resid == .promoting) && o.copyOwner == none).foldl
    (fun a o => a + o.units * 32) 0

/-- A pending EVICT applied when the copy is RESIDENT and nobody holds a pin (R234). -/
def State.tryEvict (s : State) (slot : Nat) : State :=
  match s.obj slot with
  | some o => if o.evict && o.resid == .resident && o.pins.isEmpty then s.dropCopy o else s
  | none => s

/-- A context's pin removed, mapped or no longer mapped; a dying object with no pins left is freed (R231, R234). -/
def State.dropPin (s : State) (slot : Nat) (p : Pin) : State :=
  match s.obj slot with
  | none => s
  | some o =>
    let pins := o.pins.erase p
    let s := { s with tier.clock := s.tier.clock + 1 }
    let s := s.setObj { o with pins := pins, unpinned := s.tier.clock }
    if o.dying && pins.isEmpty then s.freeSlot slot else s.tryEvict slot

/-- Objects of a non-persistent partition or of tier 1 (R228). -/
def State.transient (s : State) (o : TierObj) : Bool :=
  o.tier == 1 || (o.tier == 2 && match s.partition o.place with | some p => !p.persistent | none => true)

/-- Storage of an allocation set to zero when it is made is not asked by the manual: contents are whatever the pages held.
The tags of its pages follow its owner (R218). -/
def State.tagPages (s : State) (first units tag : Nat) : State :=
  { s with mem.tags := (List.range units).foldl (fun t i => storeSet (fun _ => 511) t (first + i) tag) s.mem.tags }

/-- Everything a context owns in every tier, its pins and copies (R231, R61 step 3). -/
def State.tierForget (s : State) (ctx : Nat) : State :=
  -- pins of the context
  let s := s.tier.objs.foldl (fun s o => o.pins.foldl (fun s p => if p.ctx == ctx then s.dropPin o.slot p else s) s) s
  -- copies charged to the context and still pinned by others become orphans
  let s := s.tier.objs.foldl (fun s o =>
    if o.tier == 3 && o.copyOwner == some ctx && o.owner != ctx then
      s.setObj { o with copyOwner := none }
    else s) s
  -- its objects
  (s.tier.objs.filter (·.owner == ctx)).foldl (fun s o =>
    if o.tier == 3 && o.shared && !o.pins.isEmpty then
      s.setObj { o with dying := true, copyOwner := if o.copyOwner == some ctx then none else o.copyOwner }
    else s.freeSlot o.slot) s

/-- Marks set on every unit of a page. -/
def markPage (m : Store Bool) (page : Nat) : Store Bool :=
  (List.range 32768).foldl (fun m i => storeSet noPoison m (page * 32768 + i) true) m

/-- A PRIVATE context's key is erased (R218): its dirty lines in tagged pages are discarded, and the pages are ciphertext under no
key. -/
def State.eraseKeys (s : State) (ctx : Nat) : State :=
  let pages := (s.mem.tags.filter fun e => e.2 == ctx).map (·.1)
  { s with mem.orphanCipher := pages.foldl markPage s.mem.orphanCipher,
           mem.hbm := pages.foldl (fun m p => storeClear m (p * pageBytes) pageBytes) s.mem.hbm,
           mem.cache := s.mem.cache.filter fun x => !(x.dirty && pages.contains (x.line * 256 / pageBytes)),
           mem.tags := s.mem.tags.filter fun e => e.2 != ctx }

end Sys2Proof.Machine
end

