-- ==== Sys2Proof/Machine/VideoOps.lean ====
section
/-! DEFINITION. Streams and engines (R312 to R319): assignment, answers, streams stopped and closed, what a discard restores. -/

namespace Sys2Proof.Machine

open Sys2Proof

/-! ## Streams -/

def Stream.kind (v : Stream) : Nat := leAt v.desc 2 1
def Stream.codec (v : Stream) : Nat := leAt v.desc 3 1
def Stream.width (v : Stream) : Nat := leAt v.desc 4 2
def Stream.height (v : Stream) : Nat := leAt v.desc 6 2
def Stream.rate (v : Stream) : Nat := leAt v.desc 8 4
def Stream.poolCount (v : Stream) : Nat := leAt v.desc 0x0C 1
def Stream.state (v : Stream) : Nat := leAt v.desc 0x10 8
def Stream.pool (v : Stream) : Nat := leAt v.desc 0x18 8
def Stream.ring (v : Stream) : Nat := leAt v.desc 0x20 8
def Stream.ringBytes (v : Stream) : Nat := leAt v.desc 0x28 4

def State.streamAt (s : State) (slot : Nat) : Option Stream := s.vid.streams.find? (·.slot == slot)

def State.setStream (s : State) (v : Stream) : State :=
  { s with vid.streams := s.vid.streams.map fun x => if x.slot == v.slot then v else x }

/-! ## Engines (R312, R313) -/

/-- Engines of a kind in service: the healthy ones but for the highest-numbered spare. -/
def State.enginesOf (s : State) (kind : Nat) : List Nat :=
  let ok (e : Nat) : Bool := !s.vid.failed.contains e
  match kind with
  | 0 => ((List.range 9).filter ok).take 8
  | 1 => (((List.range 14).filter (9 ≤ ·)).filter ok).take 4
  | _ => ([14, 15]).filter ok

/-- Luma samples per second of an engine (Table VID-1). -/
def engineBudget (e : Nat) : Nat := if e < 9 then 497664000 else 1069547520

/-- RATE committed on an engine. -/
def State.committed (s : State) (e : Nat) : Nat :=
  (s.vid.streams.filter fun v => v.engine == e).foldl (fun a v => a + v.rate) 0

/-- VID_ENGINE of an engine follows its streams. -/
def State.showEngine (s : State) (e : Nat) : State :=
  (s.putF (F.VID_ENGINE_BUDGET e) (s.committed e / 10 ^ 6)).putF (F.VID_ENGINE_STREAMS e)
    (s.vid.streams.filter fun v => v.engine == e).length

/-- STATE of every engine: in service, spare or failed. -/
def State.showEngines (s : State) : State :=
  (List.range 16).foldl (fun s e =>
    let kind := if e < 9 then 0 else if e < 14 then 1 else 2
    s.putF (F.VID_ENGINE_STATE e) (if s.vid.failed.contains e then 2 else if (s.enginesOf kind).contains e then 0 else 1)) s

/-! ## Answers (R315) -/

/-- A video command answered: in its cell or in the host's result registers. -/
def State.deliverVideo (s : State) (via : Via) (code value : Nat) : State :=
  match via with
  | .host ctx => (s.putF (F.VID_CTX_RESULT_STATUS ctx) code).putP (P.VID_CTX_RESULT_VALUE ctx) value
  | .cell ctx c =>
    let s := match s.cell .video ctx c with
      | some x => s.cellResult x (leBytes 2 code ++ leBytes 6 0 ++ leBytes 8 value)
      | none => s
    if code = 0 then s else (s.putF (F.VID_CTX_LAST_CODE ctx) code).putF (F.VID_CTX_LAST_CELL ctx) c

/-! ## Streams that end -/

/-- A stream's slot and budget freed. -/
def State.freeStream (s : State) (slot : Nat) : State :=
  match s.streamAt slot with
  | none => s
  | some v =>
    let s := { s with vid.streams := s.vid.streams.filter (·.slot != slot), vid.bands := s.vid.bands.filter (·.2.1 != slot) }
    (s.showEngine v.engine).setReg (R.VID_STR_STATUS slot) 0

/-- A stream STOPPED with a code: its units return it. -/
def State.stopStream (s : State) (slot code : Nat) : State :=
  match s.streamAt slot with
  | none => s
  | some v =>
    let s := v.units.foldl (fun s u => s.deliverVideo u.via code 0) s
    let s := s.setStream { v with units := [], stop := code }
    let s := { s with vid.bands := s.vid.bands.filter (·.2.1 != slot) }
    (s.putF (F.VID_STR_STATUS_STATE slot) 2).putF (F.VID_STR_STATUS_STOP_CODE slot) code

/-- Streams on an engine that fails (R319); a sample whose decode engine fails is decoded on another. -/
def State.engineStops (s : State) (e : Nat) : State :=
  let s := (s.vid.streams.filter fun v => v.engine == e).foldl (fun s v =>
    match v.closing with
    | some via => ((s.stopStream v.slot 0x0805).freeStream v.slot).deliverVideo via 0 0
    | none => s.stopStream v.slot 0x0805) s
  { s with vid.bands := s.vid.bands.filter (·.1 != e) }

/-! ## Discard and Lull (R317) -/

/-- What the discard of a job's step undoes of a stream: its OPEN, its units, what it had changed; an engine failure stays. -/
def State.undoStream (uid : Nat) (s : State) (v : Stream) : State :=
  if v.byStep = some uid then s.freeStream v.slot
  else
    let mine (x : Via) : Bool := match x with
      | .cell ctx c => (match s.cell .video ctx c with | some k => k.job == uid | none => false)
      | .host _ => false
    let gone := v.units.filter (·.uid == some uid)
    let v := { v with units := v.units.filter (·.uid != some uid), fed := v.fed.filter (· != uid),
                      closeFor := v.closeFor.filter (· != uid),
                      closing := match v.closing with | some x => if mine x then none else some x | none => none }
    let s := { s with vid.bands := s.vid.bands.filter fun b => !(b.2.1 == v.slot && gone.any (·.arrived == b.2.2)) }
    match v.saved with
    | some x =>
      if x.uid = uid then
        let v := { v with fresh := x.fresh, stop := if v.stop = 0x0805 then v.stop else x.stop, pictures := x.pictures,
                          openRow := x.openRow, lastRow := x.lastRow, rowTokens := x.rowTokens, rowSegs := x.rowSegs,
                          busyRows := x.busyRows, saved := none }
        ((s.setStream v).putF (F.VID_STR_STATUS_STATE v.slot) (if v.stop = 0 then 1 else 2)).putF
          (F.VID_STR_STATUS_STOP_CODE v.slot) v.stop
      else s.setStream v
    | none => s.setStream v

/-- The streams of a job's discarded step. -/
def State.undoStreams (s : State) (uid : Nat) : State := s.vid.streams.foldl (State.undoStream uid) s

/-- A Lull makes what the job's step did to streams final. -/
def State.lullStreams (s : State) (uid : Nat) : State :=
  { s with vid.streams := s.vid.streams.map fun (v : Stream) =>
      let v := if v.byStep == some uid then { v with byStep := none } else v
      match v.saved with
      | some x => if x.uid == uid then { v with saved := none } else v
      | none => v }

/-- A context's streams stop and close with it. -/
def State.closeStreams (s : State) (ctx : Nat) : State :=
  (s.vid.streams.filter fun v => v.ctx == ctx).foldl (fun s v => s.freeStream v.slot) s

/-! ## Output rings (R327, Table VID-11) -/

/-- The 32-byte header of a record. -/
def recordHead (slot typ status step flags picture length value : Nat) : List Byte :=
  leBytes 4 slot ++ leBytes 2 typ ++ leBytes 2 status ++ leBytes 6 step ++ leBytes 2 flags ++ leBytes 4 picture ++ leBytes 4 length ++
    leBytes 8 value

/-- Does a stream's ring have room for `n` bytes more, and the virtual channel for the transfer (R370)? -/
def State.ringRoom (s : State) (v : Stream) (n : Nat) : Bool :=
  (s.getF (F.VID_STR_OUT_WR_BYTES v.slot) + 2 ^ 32 - s.getF (F.VID_STR_OUT_RD_BYTES v.slot)) % 2 ^ 32 + n ≤ v.ringBytes &&
    s.stagingRoom (s.vcOf (s.ctxClass v.ctx)) n

/-- Bytes written at the ring's place, which moves on. -/
def State.ringBytesOut (s : State) (v : Stream) (uid : Option Nat) (bs : List Byte) : State :=
  let pos := s.getF (F.VID_STR_OUT_WR_BYTES v.slot) % v.ringBytes
  (s.hostWrite (s.ctxClass v.ctx) (some v.ctx) uid (v.ring + pos) bs).addF (F.VID_STR_OUT_WR_BYTES v.slot) bs.length

/-- A record of a header and its payload, padded to a multiple of 64; what fills the padding is free. -/
def State.putRecord (s : State) (v : Stream) (uid : Option Nat) (head payload : List Byte) : State :=
  let n := 32 + payload.length
  let f := s.freeBytes ((n + 63) / 64 * 64 - n)
  f.2.ringBytesOut v uid (head ++ payload ++ f.1)

/-- A record written, after a PAD record where it would wrap; false where it must wait for room. -/
def State.writeRecord (s : State) (v : Stream) (uid : Option Nat) (step : Nat) (head payload : List Byte) : State × Bool :=
  let n := (32 + payload.length + 63) / 64 * 64
  let left := v.ringBytes - s.getF (F.VID_STR_OUT_WR_BYTES v.slot) % v.ringBytes
  if n ≤ left then (if s.ringRoom v n then (s.putRecord v uid head payload, true) else (s, false))
  else if s.ringRoom v left then
    let f := s.freeBytes (left - 32)
    let s := f.2.putRecord v uid (recordHead v.slot 0 0 step 0 0 (left - 32) 0) f.1
    if s.ringRoom v n then (s.putRecord v uid head payload, true) else (s, false)
  else (s, false)

/-! ## Rows (R331) -/

/-- The open row closed with a ROW_READY record; false where the record waits. -/
def State.closeRow (s : State) (v : Stream) (uid : Option Nat) (step : Nat) (replayed : Bool) : State × Bool :=
  match v.openRow with
  | none => (s, true)
  | some r =>
    let w := s.writeRecord v uid step
      (recordHead v.slot 2 0 step (if replayed then 4 else 0) r 0 (v.rowTokens + v.rowSegs * 2 ^ 32)) []
    if w.2 then (w.1.setStream { v with openRow := none, rowTokens := 0, rowSegs := 0, busyRows := v.busyRows ++ [r] }, true) else w

/-- The step a job is in and whether it is a replay; ones for host commands. -/
def State.stepMark (s : State) (uid : Option Nat) : Nat × Bool :=
  match uid.bind fun u => (s.jobOf u).bind (·.step) with
  | some st => (st.number, st.replayed)
  | none => (2 ^ 48 - 1, false)

/-- The job whose step issued a command. -/
def State.viaJob (s : State) (via : Via) : Option Nat :=
  match via with
  | .cell ctx c => (s.cell .video ctx c).map (·.job)
  | .host _ => none

/-- A stream's row that its retired steps leave is closed, and a CLOSE that waits for nothing more completes (R317, R331). -/
def State.settleStream (s : State) (slot : Nat) : State :=
  match s.streamAt slot with
  | none => s
  | some v =>
    let s := match v.closeFor.find? fun uid => v.units.all (·.uid != some uid) with
      | some uid =>
        let m := s.stepMark (some uid)
        let w := s.closeRow v (some uid) m.1 m.2
        match w.2, w.1.streamAt slot with
        | true, some x => w.1.setStream { x with closeFor := x.closeFor.erase uid }
        | _, _ => w.1
      | none => s
    match s.streamAt slot with
    | none => s
    | some v =>
      match v.closing with
      | some via =>
        if v.units.isEmpty && v.closeFor.isEmpty then
          let uid := s.viaJob via
          let m := s.stepMark uid
          let w := s.closeRow v uid m.1 m.2
          if w.2 then (w.1.freeStream slot).deliverVideo via 0 0 else w.1
        else s
      | none => s

/-- Every stream settled. -/
def State.settleStreams (s : State) : State := s.vid.streams.foldl (fun s v => s.settleStream v.slot) s

/-! ## The last retirement of a step (R317, R331) -/

/-- Has a job's step a picture with rows not yet advanced? -/
def State.rowsMissing (s : State) (uid : Nat) : Bool :=
  s.vid.streams.any fun v => v.units.any fun u => u.uid == some uid && u.kind == 1 && u.rows < v.height

/-- The open rows of the ingest streams that a step fed are to be closed with its samples. -/
def State.streamsRetired (s : State) (uid : Nat) : State :=
  { s with vid.streams := s.vid.streams.map fun (v : Stream) =>
      if v.fed.contains uid then { v with fed := v.fed.filter (· != uid), closeFor := v.closeFor ++ [uid] } else v }.settleStreams

end Sys2Proof.Machine
end

