-- ==== Sys2Proof/Machine/Steps.lean ====
section
/-! DEFINITION. Steps and jobs (R51 to R71): cores held and released, effects committed at the Lull or undone by a discard,
job faults and teardown, completion and Lull records, and the device state (R57). -/

namespace Sys2Proof.Machine

open Sys2Proof

/-- Does a job wait for its next step to begin? -/
def Job.waits (j : Job) : Bool :=
  match j.phase with
  | .queued | .lull | .discarded => true
  | _ => false

/-! ## The device state -/

/-- ALERT# is low while FAULTED or on THERMAL_WARN (R407, R410). -/
def State.showAlert (s : State) : State :=
  let a : Bool := s.devState == 6 || !s.pwr.warned.isEmpty
  if a = s.alert then s else { s with alert := a }.emit (.alert a)

/-- A device state entered: source 0 is raised when READY is reached from STANDBY, and on QUIESCE and FAULTED (Table HST-7). -/
def State.enter (s : State) (st : Nat) : State :=
  if s.devState = st then s
  else
    let told : Bool := (st == 2 && s.devState == 1) || st == 5 || st == 6
    let s := (s.putF F.JOB_DEVICE_STATE_STATE st).showAlert
    if told then s.raise 0 else s

/-- Is a job resident: from its queue entry until its record is posted (R57)? -/
def State.resident (s : State) : Bool := !s.job.jobs.isEmpty || !s.job.records.isEmpty

/-- READY, RUN and LULL follow the jobs; with no image in force the device is in READY (Table EX-4). -/
def State.settleDevice (s : State) : State :=
  if s.devState = 2 || s.devState = 3 || s.devState = 4 then
    if s.stepRunning then s.enter 3 else if s.resident && s.imageValid then s.enter 4 else s.enter 2
  else s

/-- A full Lull is asked for (R56): running jobs are marked held at their next Lull. -/
def State.holdPending (s : State) : State := s.putF F.JOB_DEVICE_STATE_HOLD_PENDING 1

/-! ## Islands (R338) -/

/-- Islands whose wake latch brings them to ON: link ports, engines and the flash controller (R338, R347). -/
def wakesOnLatch (i : Nat) : Bool := (1156 ≤ i && i < 1188) || (1196 ≤ i && i < 1217)

/-- An island enters a state (Table PWR-3): an edge that came during the entry to a stopped state wakes it again, a latch of an island
that is ON has done its work (R347), and the mailbox channels of the domain follow it (R366). -/
def State.setIsland (s : State) (i st : Nat) : State :=
  let latched : Bool := s.pwr.latches.contains i
  let st := if latched && wakesOnLatch i && (st = 2 || st = 3) then 1 else st
  let s := if st = 1 && latched then { s with pwr.latches := s.pwr.latches.filter fun (x : Nat) => x != i } else s
  (s.putF (F.PWR_ISL_STATE_STATE i) st).settleMail i

def State.islandOn (s : State) (i : Nat) : Bool := s.islandState i == 1

/-! ## Barrier objects (R271) -/

/-- The object registers follow the objects bound (R286, R287). -/
def State.syncShow (s : State) (ctx : Nat) : State :=
  (s.putF (F.JOB_CTX_SYNC_OBJECTS_COUNT ctx) (s.fab.objs.filter fun o => o.ctx == ctx).length).putF F.LNK_SYNC_FREE_COUNT
    (4096 - s.fab.objs.length)

/-- The windows an object's group holds return to each die's unit (R277). -/
def State.dropWindows (s : State) (o : SyncObj) : State :=
  if o.windows then
    (List.range 4).foldl (fun s n => s.addF (F.LNK_RED_STATUS_WINDOWS_FREE n) 1)
      { s with fab.winTaken := s.fab.winTaken.map (· - 1) }
  else s

/-- Objects cleared and returned to the pool. -/
def State.clearObjs (s : State) (ctx : Nat) (p : SyncObj → Bool) : State :=
  let gone := s.fab.objs.filter p
  let s := gone.foldl State.dropWindows s
  { s with fab.objs := s.fab.objs.filter fun o => !p o }.syncShow ctx

/-! ## Cores -/

/-- The pins of a scan released (R181, R195). -/
def State.unpinScan (s : State) (o : Option Scan) : State :=
  match o with
  | some x =>
    if x.stage = 2 then (x.ids.filter fun i => i % 2 ^ 24 != 0xFFFFFF).foldl (fun s i => s.kvUnpin (i % 2 ^ 24)) s else s
  | none => s

/-- A core's scan abandoned: neither the retrieval engine nor a pin that waits owes it anything more. -/
def State.dropScan (s : State) (p : Nat) (o : Option Scan) : State :=
  { s with kv.asked := s.kv.asked.filter (· != p),
           kv.pinWaits := s.kv.pinWaits.filter fun w => w.2.coreOf != some p }.unpinScan o

/-- A core given back by a step: idle, its storage invalidated, its flags clear, its clock stopped (R52, R338). -/
def State.releaseCore (s : State) (p : Nat) : State :=
  let c := s.core p
  let s := s.dropScan p c.scan
  let s := s.setCore p { Core.idle with failed := c.failed, silent := c.silent, saved := c.saved, takenFrom := c.takenFrom }
  let s := if c.failed then s else s.putF (F.JOB_CORE_STATUS_STATE p) (if c.takenFrom.isSome then 3 else 1)
  let s := s.setReg (R.JOB_CORE_FLAGS p) 0
  let s := if c.failed then s else s.setIsland p 2
  { s with held := s.held.filter fun i => i.coreOf != some p }

/-- Every core of a step given back. -/
def State.releaseCores (s : State) (st : StepRun) : State := st.phys.foldl State.releaseCore s

/-- Logical cores that a step holds, a preempted victim's included. -/
def State.coresBusy (s : State) : List Nat :=
  s.job.jobs.flatMap fun j => match j.step with | some st => st.cores | none => []

/-- Is a logical core free to be placed (R65, R295)? -/
def State.coreFree (s : State) (l : Nat) : Bool :=
  !s.coresBusy.contains l && !(s.core (s.physOf l)).failed && (s.core (s.physOf l)).takenFrom.isNone &&
    !s.rel.retire.contains (s.physOf l) && !s.rel.retry.contains (s.physOf l)

/-- FREE_CORES of JOB_DEVICE_STATE: active cores not held by any step. -/
def State.showFree (s : State) : State :=
  s.putF F.JOB_DEVICE_STATE_FREE_CORES ((List.range s.activeCores).filter s.coreFree).length

/-- The registers that follow the running steps. -/
def State.showJobs (s : State) : State :=
  (s.showFree.putF F.JOB_DEVICE_STATE_FULL_LULL (if s.stepRunning then 0 else 1)).settleDevice

/-! ## Effects of a step (R186, R228, R299) -/

/-- An object restored to what it was before FREE, or the KEEP. -/
def State.unleave (s : State) (slot : Nat) : State :=
  match s.obj slot with
  | some o => s.setObj { o with leaving := false, mapped := true,
                                pins := o.pins.map fun (p : Pin) => if p.ctx == o.owner then { p with mapped := true } else p }
  | none => s

/-- An object whose FREE takes effect: held until its last pin when others have it pinned (R231). -/
def State.freeObj (s : State) (slot : Nat) : State :=
  match s.obj slot with
  | some o =>
    let pins := o.pins.filter fun p => p.ctx != o.owner
    if o.tier == 3 && !pins.isEmpty then s.setObj { o with dying := true, leaving := false, pins := pins } else s.freeSlot slot
  | none => s

def State.mapPin (s : State) (slot ctx va : Nat) (m : Bool) : State :=
  match s.obj slot with
  | some o => s.setObj { o with pins := o.pins.map fun (p : Pin) => if p.ctx == ctx && p.va == va then { p with mapped := m } else p }
  | none => s

/-- An effect undone by a discard. -/
def State.undo (ctx : Nat) (s : State) (e : Effect) : State :=
  match e with
  | .kvAlloc i =>
    let p := s.kvPage i
    let id := kvId i p
    (s.setKvHeld ctx id (s.kvHeld ctx id - 1)).kvDrop id 1
  | .kvSeal i slot fill =>
    s.setKvPage i { s.kvPage i with state := 1, slot := slot, fill := fill, sealPending := false }
  | .kvRetain id => (s.setKvHeld ctx id (s.kvHeld ctx id - 1)).kvDrop id 1
  | .kvRelease id => s.setKvHeld ctx id (s.kvHeld ctx id + 1)
  | .tierAlloc slot => s.freeSlot slot
  | .tierFree slot => s.unleave slot
  | .tierPromote slot va => s.dropPin slot ⟨ctx, va, true⟩
  | .tierUnpin slot va => s.mapPin slot ctx va true
  | .tierWriteBack slot =>
    match s.obj slot with
    | some o => s.setObj { o with fresh := none, copyDirty := o.copyDirty || o.fresh.isSome }
    | none => s
  | .tierEvict _ => s
  | .tierKeep slot name => { s.unleave slot with tier.kept := s.tier.kept.filter fun k => !(k.name == name && k.pending) }
  | .tierAdopt slot name =>
    { s.freeSlot slot with tier.kept := s.tier.kept.map fun (k : Kept) => if k.name == name then { k with adopting := false } else k }
  | .memory u old => s.restoreUnit u old

/-- An effect completed by the Lull. -/
def State.commit (ctx : Nat) (s : State) (e : Effect) : State :=
  match e with
  | .kvAlloc _ => s
  | .kvSeal i _ _ => s.setKvPage i { s.kvPage i with sealPending := false }
  | .kvRetain _ => s
  | .kvRelease id => s.kvDrop id 1
  | .tierAlloc slot =>
    match s.obj slot with
    | some o => if s.transient o then s.freeSlot slot else s
    | none => s
  | .tierFree slot => s.freeObj slot
  | .tierPromote _ _ => s
  | .tierUnpin slot va => s.dropPin slot ⟨ctx, va, false⟩
  | .tierWriteBack slot =>
    match s.obj slot with
    | some o => s.setObj { o with data := o.fresh.getD o.data, fresh := none }
    | none => s
  | .tierEvict slot =>
    match s.obj slot with
    | some o => if o.resid == .resident || o.resid == .promoting then (s.setObj { o with evict := true }).tryEvict slot else s
    | none => s
  | .tierKeep slot name =>
    let d := match s.obj slot with | some o => o.data | none => []
    { s.freeSlot slot with tier.kept := s.tier.kept.map fun (k : Kept) =>
        if k.name == name && k.pending then { k with pending := false, data := d } else k }
  | .tierAdopt _ name => { s with tier.kept := s.tier.kept.filter fun k => !(k.name == name && k.adopting) }
  | .memory _ _ => s

/-! ## Records (R54, R71) -/

/-- Step number of a job's current or last step. -/
def Job.lastCommitted (j : Job) : Nat := (j.firstStep + j.done + 2 ^ 48 - 1) % 2 ^ 48

/-- The 64 bytes of a completion record but for SEQ (Table EX-10). -/
def recordBody (j : Job) (status endNs : Nat) : List Byte :=
  leBytes 4 j.id ++ leBytes 2 status ++ leBytes 1 1 ++ leBytes 1 j.ctx ++ leBytes 6 j.lastCommitted ++ leBytes 2 0 ++
    leBytes 8 j.startNs ++ leBytes 8 endNs ++ leBytes 8 j.delayNs ++ leBytes 4 j.preempts ++ leBytes 4 j.escalations ++
    leBytes 4 (min j.sat (2 ^ 32 - 1)) ++ leBytes 4 (min j.flushed (2 ^ 32 - 1)) ++ leBytes 4 j.flags.toNat

/-- A job ends: its record waits for its slot and keeps the queue entry. -/
def State.endJob (s : State) (j : Job) (status : Nat) : State :=
  let r : Record := ⟨j.ctx, j.uid, j.id, status, recordBody j status s.timeNs, isSuccess status⟩
  { s.dropJob j.uid with job.records := s.job.records ++ [r] }

/-- A Lull record written to the context's Lull ring (Table EX-2). -/
def State.lullRecord (s : State) (j : Job) (st : StepRun) (late : Nat) : State :=
  let c := s.ctx j.ctx
  let n := c.lulls + 1
  let flags := (if st.replayed then 1 else 0) + (if st.escalated ≠ 0 then 2 else 0) + (if st.preempted then 4 else 0) +
    (if st.held then 8 else 0)
  let wait := min (s.timeNs - st.retiredAt.getD s.timeNs) (2 ^ 32 - 1)
  let bytes := leBytes 4 j.id ++ leBytes 1 2 ++ leBytes 1 j.ctx ++ leBytes 2 (if st.watchdog then Code.LULL_LATE else 0) ++
    leBytes 6 st.number ++ leBytes 2 flags ++ leBytes 8 s.timeNs ++ leBytes 4 wait ++ leBytes 2 late ++ leBytes 2 n
  let size := 2 ^ s.getF (F.JOB_CTX_LULL_RING_SIZE_LULL_RING_SIZE j.ctx)
  (s.setCtx j.ctx { c with lulls := n }).hostRecord (s.ctxClass j.ctx) (some j.ctx) (some j.uid)
    (s.getP (P.JOB_CTX_LULL_RING j.ctx) + c.lulls % size * 32) bytes

/-! ## Preemption (R66) -/

/-- A taken core's contents brought back and the core given to its victim again (R66 step 6, R93). -/
def State.restoreCore (s : State) (p : Nat) : State :=
  match (s.core p).saved with
  | none => s
  | some v =>
    let c := s.core p
    let s := s.setCore p
      { Core.idle with scratch := v.scratch, acc := v.acc, prog := v.prog, halo := v.halo, sat := v.sat,
                       flushed := v.flushed, epilogue := v.epilogue, inbound := v.inbound, scan := v.scan, failed := c.failed }
    let s := s.putF (F.JOB_CORE_FLAGS_MATRIX p) v.flags.toNat
    let s := s.putF (F.JOB_CORE_FLAGS_VECTOR p) (v.flags.toNat / 16)
    let s := s.putF (F.JOB_CORE_FLAGS_SFU p) (v.flags.toNat / 256)
    let s := s.putF (F.JOB_CORE_LFSR_STATE p) v.lfsr
    let s := (s.putF (F.JOB_CORE_PROGRAM_NEXT p) v.next).putF (F.JOB_CORE_PROGRAM_RANK p) v.rank
    { s with held := s.held ++ v.held }

/-- Are all the cores taken from a victim free of the steps that took them? -/
def State.victimReady (s : State) (v : Job) : Bool :=
  match v.step with
  | some st => v.phase == .preempted && st.phys.all fun p =>
      !(s.job.jobs.any fun j => j.uid != v.uid && (j.phase == .running || j.phase == .saving || j.phase == .preempted) &&
        match j.step with | some t => t.phys.contains p | none => false)
  | none => false

/-- A victim resumes at the instruction where it stopped, on the same logical cores. -/
def State.resumeVictim (s : State) (uid : Nat) : State :=
  match s.jobOf uid with
  | some j =>
    match j.step with
    | some st =>
      let s := st.phys.foldl (fun s p =>
        let s := s.restoreCore p
        let s := s.setCore p { s.core p with saved := none, takenFrom := none }
        let s := (s.putF (F.JOB_CORE_STATUS_STATE p) 2).putF (F.JOB_CORE_STATUS_CONTEXT p) j.ctx
        s.setIsland p 1) s
      (s.setJob { j with phase := .running, preempts := j.preempts + 1, delayNs := j.delayNs + (s.timeNs - j.waitFrom),
                         step := some { st with preempted := true } }).showJobs
    | none => s
  | none => s

/-- Victims all of whose cores are free resume. -/
def State.resumeVictims (s : State) : State :=
  (s.job.jobs.filter fun j => s.victimReady j).foldl (fun s j => s.resumeVictim j.uid) s

/-! ## Discard (R186, R228, R299, R317) -/

/-- A job's step discarded: its effects undone in reverse order, its cores, objects, streams and commands dropped. The job stays
in the given phase with no step. -/
def State.discardStep (s : State) (uid : Nat) (phase : JobPhase) : State :=
  match s.jobOf uid with
  | none => s
  | some j =>
    match j.step with
    | none => s.setJob { j with phase := phase }
    | some st =>
      let s := (st.effects.foldl (State.undo j.ctx) s).undoStreams uid
      -- a preempted victim's saved cores are dropped with it (R70)
      let s := st.phys.foldl (fun s p =>
        let s := if (s.core p).takenFrom == some uid then
            let t := match (s.core p).saved with | some v => s.unpinScan v.scan | none => s
            t.setCore p { t.core p with saved := none, takenFrom := none }
          else s
        if s.job.jobs.any (fun x => x.uid != uid && match x.step with | some t => t.phys.contains p | none => false) then s
        else s.releaseCore p) s
      let s := s.clearObjs j.ctx fun o => o.job == uid
      let s := if s.rel.phases.any (·.uid == uid) then
          { s with rel.phases := s.rel.phases.filter fun b => b.uid != uid }.putF (F.REL_CTX_BANK_STATE_STATE j.ctx) 0
        else s
      let s := { s with job.puts := s.job.puts.filter fun q => q.job != uid,
                        cells := s.cells.map fun (c : Cell) => if c.job == uid && c.busy then { c with busy := false } else c,
                        tier.running := s.tier.running.filter fun r => r.uid != some uid }
      let s := (s.setJob { j with phase := phase, step := none, waitFrom := s.timeNs }).undoShow
      -- objects of the step that resumed victims
      (s.resumeVictims).showJobs

/-! ## Teardown (R61) -/

/-- Every job of a context ended: the one that faults with its code, the others with CONTEXT_TORN_DOWN. -/
def State.endJobs (s : State) (ctx : Nat) (code : Nat → Nat) : State :=
  (s.job.jobs.filter (·.ctx == ctx)).foldl (fun s j =>
    let s := s.discardStep j.uid .queued
    match s.jobOf j.uid with
    | some j => s.endJob j (code j.uid)
    | none => s) s

/-- Does a fault code make JOB_CTX_FAULT_DETAIL valid (Table TP-16)? -/
def detailValid (code : Nat) : Bool :=
  code == Code.RESOURCE_OVERFLOW || code == Code.ILLEGAL_INSTRUCTION || code == Code.BAD_PROGRAM || code == Code.GUARD_TABLE_BAD

/-- JOB_CTX_FAULT_DETAIL's word. -/
def detailWord (code index kind logical : Nat) : Nat :=
  index % 65536 + kind % 16 * 2 ^ 16 + logical % 2048 * 2 ^ 20 + (if detailValid code then 2 ^ 31 else 0)

/-- A job fault: the record, the other jobs, and the context in TEARDOWN (R61 steps 1 and 2). -/
def State.jobFault (s : State) (uid code index kind logical : Nat) : State :=
  match s.jobOf uid with
  | none => s
  | some j =>
    let s := s.endJobs j.ctx fun u => if u = uid then code else Code.CONTEXT_TORN_DOWN
    let s := s.setCtx j.ctx { s.ctx j.ctx with fault := code, detail := detailWord code index kind logical }
    (s.putF (F.JOB_CTX_STATE_STATE j.ctx) 3).showJobs

/-- A submission decided (R62, R64): it and a refusal are counted, and the result registers show the latest submission decided. -/
def State.decideSub (s : State) (ctx n jobId code : Nat) : State :=
  let s := s.addF (F.JOB_CTX_SUBMITTED_COUNT ctx) 1
  let s := if code = 0 then s else s.addF (F.JOB_CTX_REFUSED_COUNT ctx) 1
  if n < (s.ctx ctx).decided then s
  else
    ((s.setCtx ctx { s.ctx ctx with decided := n }).putF (F.JOB_CTX_SUBMIT_RESULT_STATUS ctx) code).putF
      (F.JOB_CTX_SUBMIT_JOB_VALUE ctx) jobId

/-- Submissions whose descriptors are still being fetched, refused with a code. -/
def State.refuseFetches (s : State) (ctx code : Nat) : State :=
  let s := (s.job.fetching.filter (·.ctx == ctx)).foldl (fun s f => s.decideSub ctx f.number 0 code) s
  { s with job.fetching := s.job.fetching.filter (·.ctx != ctx) }

/-- The commands, cells and streams of a context that ends. -/
def State.contextGone (s : State) (ctx : Nat) : State :=
  { s with cells := s.cells.filter (·.ctx != ctx),
           hostCmds := s.hostCmds.filter (·.ctx != ctx),
           tier.running := s.tier.running.filter (·.ctx != ctx) }.closeStreams ctx

/-- Everything a context holds in every tier, in the page units, in the barrier objects and in the engines is released
(R61 steps 3 to 5, R179, R317, R218). -/
def State.freeContext (s : State) (ctx : Nat) : State :=
  let s := s.kvForget ctx
  let s := s.tierForget ctx
  let s := s.clearObjs ctx fun o => o.ctx == ctx
  let s := if (s.ctx ctx).priv then s.eraseKeys ctx else s
  let s := { s with sec.slots := s.sec.slots.filter (· != ctx) }
  (s.refuseFetches ctx Code.CONTEXT_TORN_DOWN).contextGone ctx

/-- A context returned to FREE with the code of its teardown (R61 steps 6 and 7). -/
def State.contextFree (s : State) (ctx fault detail : Nat) : State :=
  let s := s.freeContext ctx
  let s := if fault = 0 then s
    else (s.putF (F.JOB_CTX_STATE_LAST_FAULT ctx) fault).setReg (R.JOB_CTX_FAULT_DETAIL ctx) (BitVec.ofNat 32 detail)
  let c := s.ctx ctx
  (s.putF (F.JOB_CTX_STATE_STATE ctx) 0).setCtx ctx { c with fault := 0, detail := 0 }

/-- The device fault of R57 and R58: FAULTED, every job ended with the code. -/
def State.deviceFault (s : State) (code : Nat) : State :=
  let s := s.job.jobs.foldl (fun s j =>
    let s := s.discardStep j.uid .queued
    match s.jobOf j.uid with
    | some j => s.endJob j code
    | none => s) s
  (s.putF F.JOB_DEVICE_STATE_FAULT_CODE code).enter 6

/-- QUIESCE entered: every job not complete ends with ABORTED (R58), and every dirty line is written back (R205). -/
def State.quiesce (s : State) (purpose : Nat) : State :=
  let s := s.job.jobs.foldl (fun s j =>
    let s := s.discardStep j.uid .queued
    match s.jobOf j.uid with
    | some j => s.endJob j Code.ABORTED
    | none => s) s
  { (List.range 4).foldl State.writeBackDie s with pwr.purpose := purpose }.enter 5

end Sys2Proof.Machine
end

