-- ==== Sys2Proof/Machine/Access.lean ====
section
/-! DEFINITION. Who may reach which register (R359, R360, R362, R366), how a field takes a write (R8, R9, R415), and what a
register shows (R6 to R10). -/

namespace Sys2Proof.Machine

open Sys2Proof

/-! ## Requesters -/

/-- The secure requesters of R359. -/
def isSecure : Requester → Bool
  | .ctrlA | .ctrlB | .secure | .session => true
  | .host | .supervisor _ => false

/-- A debug requester's code (R389): 0 host, 1 the active system controller, 2 a management session. -/
def State.debugWho (s : State) : Requester → Option Nat
  | .host => some 0
  | .ctrlA => if s.rel.onB then none else some 1
  | .ctrlB => if s.rel.onB then some 1 else none
  | .session => some 2
  | .secure | .supervisor _ => none

/-- The SECURITY_POLICY bytes in force (R388): the image's, or the standing policy, or the factory policy. -/
def State.policyBytes (s : State) : List Byte :=
  if s.imageValid then s.section 0x0C 0
  else if s.sec.standing.isEmpty then leBytes 4 0x0F ++ leBytes 4 0 ++ leBytes 1 0x0F ++ List.replicate 23 0
  else s.sec.standing

/-- A flag of the policy in force. -/
def State.policyFlag (s : State) (i : Nat) : Bool := bit (leAt s.policyBytes 0 4) i

/-- The debug facility of a register of the debug block: 0 Squall, 1 traffic generator, 2 dump. -/
def facilityOf (off : Nat) : Option Nat :=
  if 0x3100000 ≤ off && off < 0x3200000 then some 1
  else if 0x3200000 ≤ off && off < 0x3300000 then some 0
  else if 0x3300000 ≤ off && off < 0x3400000 then some 2
  else none

/-- Is a facility open to a requester (R360, R390)? -/
def State.facilityOpen (s : State) (req : Requester) (fac : Nat) : Bool :=
  match s.debugWho req with
  | none => false
  | some w =>
    s.policyFlag 0 && s.policyFlag (fac + 1) && s.sec.tokens.any fun t => t.who == w && bit t.facilities fac

/-- Is the offset in the debug block? -/
def inDebug (off : Nat) : Bool := 0x3000000 ≤ off && off < 0x4000000

/-- May the requester use the debug register at an offset? -/
def State.debugOpen (s : State) (req : Requester) (off : Nat) : Bool :=
  match facilityOf off with
  | some f => s.facilityOpen req f
  | none => false

/-- Is the offset a register that only secure requesters may use: the secure mailbox block, and the sources of Table HST-7 marked
so? -/
def secureOnly (off : Nat) : Bool :=
  (0x300000 ≤ off && off < 0x400000) ||
    (0x400000 ≤ off && off < 0x400400 &&
      let n := (off - 0x400000) / 4
      n == 9 || (48 ≤ n && n ≤ 79) || (112 ≤ n && n ≤ 143))

/-- Is an access answered under R359 or R360 rather than served? -/
def State.denied (s : State) (req : Requester) (off : Nat) : Bool :=
  (secureOnly off && !isSecure req) || (inDebug off && !s.debugOpen req off)

/-! ## Islands of registers (R346) -/

/-- The island in which a register lies, where the manual places it in one: ports and pseudo-channel generators. -/
def regIsland (off : Nat) : Option Nat :=
  if 0x1810000 ≤ off && off < 0x1812000 then some (1156 + (off - 0x1810000) / 0x100)
  else if 0x3200000 ≤ off && off < 0x3200400 then some (1156 + (off - 0x3200000) / 0x20)
  else if 0x3100000 ≤ off && off < 0x3108000 then some (1188 + (off - 0x3100000) / 0x40 / 64)
  else none

/-- Are writes to a register dropped because its island is not ON? A port in low power wakes on a request (R348). -/
def State.regDown (s : State) (off : Nat) : Bool :=
  match regIsland off with
  | some i => !(s.islandOn i || s.getF (F.PWR_ISL_STATE_STATE i) == 2)
  | none => false

/-! ## Writes (R8, R9, R415) -/

/-- A RW field's value under its range. -/
def rangeWrite (rg : Range) (o n : Nat) : Nat :=
  match rg with
  | .any => n
  | .keep lo hi => if lo ≤ n && n ≤ hi then n else o
  | .back lo hi v => if lo ≤ n && n ≤ hi then n else v
  | .align _ => n
  | .guardN => if n = 0 || (8 ≤ n && n ≤ 1024) then n else 64

/-- A field's new value (Table SC-4). -/
def fieldWrite (locked : Bool) (f : Field) (o n : Nat) : Nat :=
  match f.acc with
  | .ro | .rc => o
  | .rw => rangeWrite f.range o n
  | .rwl => if locked then o else rangeWrite f.range o n
  | .w1c => Nat.land o (2 ^ (f.hi + 1 - f.lo) - 1 - n)
  | .w1s => Nat.lor o n
  | .wo => n

/-- A register's word after a write of `v`: reserved bits stay zero. -/
def wordWrite (locked : Bool) (r : RegDef) (old v : Nat) : Nat :=
  r.fields.foldl (fun w f => putBits w f.hi f.lo (fieldWrite locked f (bits old f.hi f.lo) (bits v f.hi f.lo))) old

/-- The context of an offset in a per-context page. -/
def ctxOfOff (off : Nat) : Nat :=
  if 0x810000 ≤ off && off < 0x820000 then (off - 0x810000) / 0x100
  else if 0x1040000 ≤ off && off < 0x1042000 then (off - 0x1040000) / 0x20
  else if 0x2810000 ≤ off && off < 0x2814000 then (off - 0x2810000) / 0x40
  else 0

/-- Is no context OPEN and the device in READY (R176)? -/
def State.configTime (s : State) : Bool :=
  s.devState == 2 && (List.range 256).all fun c => s.ctxState c != 1

/-- Does the register's gate take the write now? A refused write changes nothing; a notice page's sets BUSY (R363). -/
def State.gateOpen (s : State) (r : RegDef) (off : Nat) : Bool :=
  match r.gate with
  | .none | .bar4 | .secure | .ctxOpen | .rwl | .debug | .irqSrc => true
  | .notice | .secureNotice =>
    match noticeChan off with
    | some c => s.chanOn c && !s.chanBusy c
    | none => true
  | .ring => s.ctxState (ctxOfOff off) == 1 && (s.ctx (ctxOfOff off)).subs == 0
  | .config => s.configTime
  | .bankGroup =>
    s.ctxState (ctxOfOff off) == 1 && (s.ctx (ctxOfOff off)).subs == 0 &&
      (List.range 256).all (fun c => c == ctxOfOff off || s.getP (P.REL_CTX_BANK_GROUP c) == 0)

/-- BUSY for a write to the notice page of a channel in flight. -/
def State.noteBusy (s : State) (r : RegDef) (off : Nat) : State :=
  match r.gate, noticeChan off with
  | .notice, some c | .secureNotice, some c => if s.chanOn c && s.chanBusy c then s.putF (ackBusy c) 1 else s
  | _, _ => s

/-- A notice's fields have been staged on a channel whose doorbell has not been rung (R368). -/
def State.noteStaged (s : State) (off : Nat) : State :=
  match noticeChan off with
  | some c => { s with mail.staged := if s.mail.staged.contains c then s.mail.staged else s.mail.staged ++ [c] }
  | none => s

/-! ## Commands written to registers (R185, R227, R315) -/

/-- The bytes of consecutive registers. -/
def State.regBytes (s : State) (off n : Nat) : List Byte :=
  (List.range n).flatMap fun i => leBytes 4 (s.reg (off + 4 * i)).toNat

/-- Is an OP one of the port's commands (Tables KV-3, TIR-4, VID-3)? -/
def opKnown (k : PortKind) (op : Nat) : Bool :=
  match k with
  | .page => 1 ≤ op && op ≤ 5
  | .tier => 1 ≤ op && op ≤ 9
  | .video => 1 ≤ op && op ≤ 5

/-- A port's code for a command with a field out of range. -/
def badCode (k : PortKind) : Nat :=
  match k with
  | .page => Code.KV_COMMAND_BAD
  | .tier => Code.TIER_COMMAND_BAD
  | .video => Code.VIDEO_COMMAND_BAD

/-- The host result registers of a context take a status. -/
def State.hostResult (s : State) (k : PortKind) (ctx status : Nat) : State :=
  match k with
  | .page => s.putF (F.JOB_CTX_KV_RESULT_STATUS ctx) status
  | .tier => s.putF (F.JOB_CTX_TIER_RESULT_STATUS ctx) status
  | .video => s.putF (F.VID_CTX_RESULT_STATUS ctx) status

/-- The host issues the command its registers hold: refused for a context that is not OPEN, an OP the port does not have, and every
page command but RETAIN and RELEASE (R185). -/
def State.issueHost (s : State) (k : PortKind) (ctx first n : Nat) : State :=
  let cmd := leNat (s.regBytes first n)
  if s.ctxState ctx ≠ 1 || !opKnown k (cmd % 256) || (k == .page && cmd % 256 != 3 && cmd % 256 != 4) then
    s.hostResult k ctx (badCode k)
  else { s with hostCmds := s.hostCmds ++ [⟨k, ctx, cmd⟩] }

/-- What a write does beside storing its word. -/
def State.afterWrite (s : State) (off : Nat) : State :=
  let c := ctxOfOff off
  if off = R.JOB_CTX_KV_CMD_3 c then s.issueHost .page c (R.JOB_CTX_KV_CMD_0 c) 4
  else if off = R.JOB_CTX_TIER_CMD_7 c then s.issueHost .tier c (R.JOB_CTX_TIER_CMD_0 c) 8
  else if off = R.VID_CTX_CMD_7 c then s.issueHost .video c (R.VID_CTX_CMD_0 c) 8
  else if off = R.LNK_ROUTE_SELECT then
    s.putF F.LNK_ROUTE_DATA_ENTRY
      (if s.imageValid then leAt (s.section 7 (s.getF F.LNK_ROUTE_SELECT_PORT)) (2 * s.getF F.LNK_ROUTE_SELECT_INDEX) 2 else 0)
  else s

/-- The word written to a source's register: the target mask of a fixed source ignores the write (R377). -/
def fixedMask (off old v : Nat) : Nat :=
  if 0x400020 ≤ off && off < 0x400400 then putBits v 6 0 (bits old 6 0) else v

/-- When MASK of a source was set, for the deliveries already under way (R374). -/
def State.noteMask (s : State) (off old v : Nat) : State :=
  if off < 0x400000 || 0x400400 ≤ off then s
  else
    let n := (off - 0x400000) / 4
    if bit old 13 = bit v 13 then s
    else
      let l := s.host.maskedAt.filter fun (e : Nat × Nat) => e.1 != n
      { s with host.maskedAt := if bit v 13 then l ++ [(n, s.timeNs)] else l }

/-- A single register written. -/
def State.writeReg (s : State) (r : RegDef) (off : Nat) (v : Word) : State :=
  if s.regDown off then s
  else if !s.gateOpen r off then s.noteBusy r off
  else
    let old := (s.reg off).toNat
    (((s.setReg off (BitVec.ofNat 32 (wordWrite s.img.locked r old (fixedMask off old v.toNat)))).noteStaged off).afterWrite off).noteMask
      off old v.toNat

/-! ## Pairs (R10) -/

def stagedLo (l : List (Requester × Nat × Word)) (req : Requester) (off : Nat) : Option Word :=
  (l.find? fun e => e.1 == req && e.2.1 == off).map (·.2.2)

def dropLo (l : List (Requester × Nat × Word)) (req : Requester) (off : Nat) : List (Requester × Nat × Word) :=
  l.filter fun e => !(e.1 == req && e.2.1 == off)

/-- Is the 64-bit value of a pair within what the register allows (R415)? -/
def pairOk (r : RegDef) (v : Nat) : Bool :=
  r.fields.all fun f => match f.range with | .align n => v % n == 0 | _ => true

/-- The value a pair takes: BAR4's base is rounded down to the size of BAR4 (R358). -/
def State.pairValue (s : State) (r : RegDef) (v : Nat) : Nat :=
  match r.gate with
  | .bar4 => v / (s.host.bar4GiB * 2 ^ 30) * (s.host.bar4GiB * 2 ^ 30)
  | _ => v

/-- Is any field of a register writable? -/
def writable (r : RegDef) : Bool := r.fields.any fun f => match f.acc with | .ro | .rc => false | _ => true

/-- A commit of a pair by the write of _HI: `lo` is the offset of _LO, `rl` and `rh` the halves' definitions. -/
def State.commitPair (s : State) (req : Requester) (rl rh : RegDef) (lo : Nat) (v : Word) : State :=
  let low := (stagedLo s.stages req lo).getD (s.reg lo)
  let s := { s with stages := dropLo s.stages req lo }
  let value := s.pairValue rh (low.toNat + v.toNat * 2 ^ 32)
  if s.regDown (lo + 4) || !pairOk rh value then s
  else if !s.gateOpen rh (lo + 4) then s.noteBusy rh (lo + 4)
  else
    let s := s.setReg lo (BitVec.ofNat 32 (wordWrite s.img.locked rl (s.reg lo).toNat (value % 2 ^ 32)))
    (s.setReg (lo + 4) (BitVec.ofNat 32 (wordWrite s.img.locked rh (s.reg (lo + 4)).toNat (value / 2 ^ 32)))).noteStaged lo

/-! ## Reads -/

/-- A word with its write-only fields read as zero (R8). -/
def readMask (r : RegDef) (w : Nat) : Nat :=
  r.fields.foldl (fun w f => match f.acc with | .wo => putBits w f.hi f.lo 0 | _ => w) w

/-- Islands with a bit of their state register set. -/
def State.islandCount (s : State) (f : Nat → Fld) : Nat := ((List.range 1220).filter fun i => s.getF (f i) == 1).length

/-! ## Routes and the stripe set, as registers show them (R38, R254, R300) -/

/-- Table LNK-12's state code of a port. -/
def State.portState (s : State) (p : Nat) : Nat := s.getF (F.LNK_PORT_STATUS_STATE p)

/-- Can a port take frames: UP, or in low power, which a frame ends (R348)? -/
def State.portUp (s : State) (p : Nat) : Bool := s.portState p == 2 || s.portState p == 5

/-- The routing entry of a port's table for a destination. -/
def State.routeEntry (s : State) (port dst : Nat) : Nat :=
  let t := s.section 7 port
  let i := if bits dst 19 8 = bits s.deviceId 19 8 then 4096 + bits dst 7 0 else bits dst 19 8
  if s.imageValid then leAt t (2 * i) 2 else 0

/-- Can a frame to a device leave this module now? -/
def State.reaches (s : State) (dst : Nat) : Bool :=
  let e := s.routeEntry 0 dst
  dst == s.deviceId || (bit e 15 && !bit e 11 && (s.portUp (bits e 4 0) || (bit e 10 && s.portUp (bits e 9 5))))

/-- The STRIPE_SET section in force. -/
def State.stripeSet (s : State) : List Byte := if s.imageValid then s.section 10 0 else []

/-- Device IDs of the members by position; none without a set. -/
def State.stripeIds (s : State) : List Nat :=
  if leAt s.stripeSet 5 1 = 9 then (List.range 9).map fun i => leAt s.stripeSet (8 + 4 * i) 4 else []

def State.stripePos (s : State) : Nat := leAt s.stripeSet 4 1
def State.stripeId (s : State) : Nat := leAt s.stripeSet 0 4

/-- Members of the set that can be reached, one bit per position. -/
def State.stripeReach (s : State) : Nat :=
  (s.stripeIds.zipIdx.filter fun x => s.reaches x.1).foldl (fun a x => a + 2 ^ x.2) 0

/-! ## Views -/

/-- GLB_DEBUG_STATE: tokens held, facilities open to the host, seconds left on the host token (R390, R391). -/
def State.debugState (s : State) : Nat :=
  let held (w : Nat) : Nat := if s.sec.tokens.any (fun (t : Token) => t.who == w) then 2 ^ w else 0
  let open_ (f : Nat) : Nat := if s.facilityOpen .host f then 2 ^ (3 + f) else 0
  let left := match s.sec.tokens.find? fun (t : Token) => t.who == 0 with
    | some t => (t.expires - s.timeNs) / 10 ^ 9
    | none => 0
  held 0 + held 1 + held 2 + open_ 0 + open_ 1 + open_ 2 + left % 2 ^ 16 * 2 ^ 16

/-- The hottest reading of a kind of sensor (R412). -/
def State.hottest (s : State) (kind : Nat) : Nat :=
  min 255 ((s.pwr.temps.filter fun (t : Nat × Nat × Nat) => t.1 == kind).foldl (fun a t => max a t.2.2) 0)

/-- What a register shows: the word it holds, and for the registers that only display the state of a block, that state. -/
def State.view (s : State) (off : Nat) : Word :=
  let c := ctxOfOff off
  if off = R.JOB_CTX_QUEUE_DEPTH c then
    BitVec.ofNat 32 ((s.job.jobs.filter (·.ctx == c)).length + (s.job.records.filter (·.ctx == c)).length)
  else if off = R.JOB_CTX_KV_REFS c then BitVec.ofNat 32 (s.kvJournal c).length
  else if off = R.JOB_CTX_TIER_CHARGE_0 c then BitVec.ofNat 32 ((s.charge c 0 + 65535) / 65536)
  else if off = R.JOB_CTX_TIER_CHARGE_1 c then BitVec.ofNat 32 ((s.charge c 1 + 65535) / 65536)
  else if off = R.JOB_CTX_TIER_CHARGE_2 c then BitVec.ofNat 32 ((s.charge c 2 + 65535) / 65536)
  else if off = R.JOB_CTX_TIER_CHARGE_3 c then BitVec.ofNat 32 ((s.charge c 3 + 65535) / 65536)
  else if off = R.MEM_KV_IN_USE then BitVec.ofNat 32 (s.kv.pages.filter fun e => e.2.state != 0).length
  else if off = R.MEM_KV_RELEASING then BitVec.ofNat 32 (s.kv.pages.filter fun e => e.2.state == 3).length
  else if off = R.MEM_KV_ORPHANS then BitVec.ofNat 32 (s.kv.pages.filter fun e => e.2.orphan).length
  else if off = R.MEM_TIER_ORPHAN then BitVec.ofNat 32 s.orphanUnits
  else if off = R.REL_STRIPE_STATUS then BitVec.ofNat 32 (putBits (s.reg off).toNat 10 2 s.stripeReach)
  else if off = R.PWR_RECAL_PENDING then BitVec.ofNat 32 (s.islandCount F.PWR_ISL_STATE_RECAL_PENDING)
  else if off = R.PWR_GUARDBANDED then BitVec.ofNat 32 (s.islandCount F.PWR_ISL_STATE_GUARDBAND)
  else if off = R.GLB_DEBUG_STATE then BitVec.ofNat 32 s.debugState
  else if off = R.PWR_TEMP_MAX then
    BitVec.ofNat 32 (s.hottest 1 + 2 ^ 8 * s.hottest 2 + 2 ^ 16 * s.hottest 3 + 2 ^ 24 * s.hottest 4)
  else if off = R.VID_STATUS then BitVec.ofNat 32 s.vid.streams.length
  else
    match regAt off with
    | some r => BitVec.ofNat 32 (readMask r (s.reg off).toNat)
    | none => 0

/-- A read answered with a word. -/
def State.answer (s : State) (req : Requester) (w : Word) : State := s.emit (.readData req (leBytes 4 w.toNat))

/-- A request answered RETRY: its crossing sends it again after 1 µs (R343). -/
def State.retryLater (s : State) (i : Nat) (c : Instr) : State := { s with pwr.retries := s.pwr.retries ++ [(i, c)] }

/-- Does a request for the register at an offset find its channel's target quiescing, so that it is retried (R343, R366)? -/
def State.quietIsland (s : State) (off : Nat) : Option Nat :=
  match noticeChan off with
  | some c => s.chanQuiet c
  | none => none

/-- Is a read of the notice page of a channel whose target is not ON answered with Completer Abort (R366)? -/
def State.pageDown (s : State) (off : Nat) : Bool :=
  match noticeChan off with
  | some c => !s.chanOn c
  | none => false

end Sys2Proof.Machine
end

