-- ==== Sys2Proof/Machine/ImageCheck.lean ====
section
/-! DEFINITION. The checks of a structure image (R29 to R40, R335, R414, R416): its layout, its sections as they would stand, and
the place of the first failure. -/

namespace Sys2Proof.Machine

open Sys2Proof

/-- The place of a failure: directory index and entry (R416). -/
abbrev At := Nat × Nat

/-- ENTRY where the failure concerns no section, and where it concerns a section as a whole. -/
def noSection : At := (0, 0x3FFFFE)
def wholeSection (i : Nat) : At := (i, 0x3FFFFF)

/-- A failed check: its number, code and place. -/
structure ImageFail where
  check : Nat
  code : Nat
  place : At
  deriving DecidableEq, Repr

/-- The first of a list of conditions that is violated. -/
def firstBad {α : Type} (l : List (Bool × α)) : Option α := (l.find? (!·.1)).map (·.2)

/-! ## Layout (R30, Tables SI-2, SI-3) -/

structure DirEntry where
  index : Nat
  typ : Nat
  inst : Nat
  flags : Nat
  off : Nat
  len : Nat
  reserved : Nat
  deriving DecidableEq, Repr

def DirEntry.delta (d : DirEntry) : Bool := bit d.flags 0

def imageKind (img : List Byte) : Nat := leAt img 6 2
def sigStart (img : List Byte) : Nat := img.length - 128
def keySlot (img : List Byte) : Nat := leAt img (sigStart img) 1

def dirOf (img : List Byte) : List DirEntry :=
  (List.range (leAt img 0x0C 2)).map fun i =>
    let e := 0x80 + 16 * i
    ⟨i, leAt img e 1, leAt img (e + 1) 1, leAt img (e + 2) 2, leAt img (e + 4) 4, leAt img (e + 8) 4, leAt img (e + 12) 4⟩

def secBytes (img : List Byte) (d : DirEntry) : List Byte := (img.drop d.off).take d.len

/-- Check 1: the header. An image that was not supplied is empty. -/
def State.check1 (s : State) (img : List Byte) : Bool :=
  256 ≤ img.length && leAt img 0 4 == 0x51534931 && leAt img 4 2 == 1 && leAt img 0x0E 2 == 0x1024 && imageKind img ≤ 3 &&
    leAt img 0x11 3 == 0 && leAt img 0x28 24 == 0 && leAt img 0x70 16 == 0 &&
    leAt img 0x10 1 ≤ s.getF F.GLB_STEPPING_STEPPING && img.length ≤ 2 ^ 24 && leAt img 8 4 == img.length

/-- May a KIND carry a section of this type, full or delta (Table SI-1, R414)? -/
def sectionAllowed (kind : Nat) (d : DirEntry) : Bool :=
  match kind with
  | 0 => !d.delta && 1 ≤ d.typ && d.typ ≤ 12 && (if d.typ = 7 then d.inst ≤ 31 else d.inst == 0)
  | 1 => d.delta && (d.typ == 2 || d.typ == 3 || d.typ == 9) && d.inst == 0
  | 2 => d.delta && d.typ == 7 && d.inst ≤ 31
  | _ => (d.delta && d.typ == 7 && d.inst ≤ 31) || (!d.delta && (d.typ == 1 || d.typ == 10) && d.inst == 0)

/-- Check 2: the signature, the key's acceptance for the KIND and by the policy in force (R388). -/
def State.check2 (s : State) (img : List Byte) (sig : SigVerdict) : Bool :=
  let kind := imageKind img
  let slot := keySlot img
  let owner := 1 ≤ slot && slot ≤ 4
  let needOwner := bit (leAt s.policyBytes 0 4) 4 && kind != 1
  sig.valid &&
    (if slot = 0 then !needOwner
     else if owner then s.sec.owners.any (·.1 == slot) && bit (leAt s.policyBytes 8 1) (slot - 1)
     else slot == 15 && kind == 1 && s.sec.patchKey && (dirOf img).all (sectionAllowed 1))

/-- Entries of a section given in full, or of a delta section, by TYPE: bytes each. -/
def deltaEntryBytes (typ : Nat) : Nat := match typ with | 3 => 8 | 9 => 12 | _ => 4
def deltaMost (typ : Nat) : Nat := match typ with | 3 => 2048 | 9 => 1220 | _ => 1024

def deltaEntries (typ : Nat) (bs : List Byte) : List (List Byte) := chunk (deltaEntryBytes typ) (leAt bs 0 4) (bs.drop 4)

/-- Is a delta entry well formed in itself (R35)? -/
def deltaEntryOk (typ : Nat) (e : List Byte) : Bool :=
  match typ with
  | 2 => bits (leAt e 2 2) 14 11 == 0
  | 3 =>
    match leAt e 0 1 with
    | 0 => leAt e 1 1 ≤ 3 && leAt e 2 2 ≤ 271 && leAt e 4 4 ≤ 2
    | 1 => leAt e 1 1 ≤ 3 && leAt e 2 2 ≤ 31 && leAt e 4 4 ≤ 32
    | 2 | 3 => leAt e 1 1 == 0 && leAt e 2 2 == 0 && leAt e 4 4 < 2 ^ 28
    | _ => false
  | 9 => leAt e 10 2 == 0
  | _ => leAt e 0 2 ≤ 4351 && bits (leAt e 2 2) 14 12 == 0

/-- The length a section given in full must have (Table SI-3). -/
def fullLengthOk (cores : Nat) (typ : Nat) (bs : List Byte) : Bool :=
  let n := bs.length
  let entries (e lo hi : Nat) : Bool := n % e == 0 && lo ≤ n / e && n / e ≤ hi
  match typ with
  | 1 => n == 32
  | 2 => n == 2 * cores
  | 3 => 404 ≤ n && n == 404 + 4 * leAt bs 0x190 4
  | 4 => n == 32
  | 5 => entries 32 1 16
  | 6 => entries 32 1 64
  | 7 => n == 8704
  | 8 => n == 256
  | 9 => entries 12 0 (2 ^ 24)
  | 10 => n == 48
  | 11 => entries 144 1 64
  | _ => n == 32

/-- The entry of a section given in full, by type and instance. -/
def fullOf (img : List Byte) (typ inst : Nat) : Option DirEntry :=
  (dirOf img).find? fun d => d.typ == typ && d.inst == inst && !d.delta

/-- Sections a KIND requires. -/
def requiredOf (kind : Nat) : List (Nat × Nat) :=
  match kind with
  | 0 => ([1, 2, 3, 4, 5, 6, 8, 9, 10, 11, 12].map fun t => (t, 0)) ++ (List.range 32).map fun p => (7, p)
  | 3 => [(1, 0), (10, 0)]
  | _ => []

/-- Is every byte of the image that no section, header, directory or signature covers zero? -/
def gapsZero (img : List Byte) (dir : List DirEntry) : Bool :=
  let start := 0x80 + 16 * dir.length
  ((img.take (sigStart img)).zipIdx.drop start).all fun (b, i) =>
    b == 0 || dir.any fun d => d.off ≤ i && i < d.off + d.len

/-- Check 4 (R30, R35, R414): the place of the first violation. -/
def check4 (img : List Byte) : Option At :=
  let kind := imageKind img
  let dir := dirOf img
  let stop := sigStart img
  let start := 0x80 + 16 * dir.length
  if dir.length = 0 || dir.length > 64 || stop < start then some noSection
  else
    let cores := match fullOf img 1 0 with | some d => leAt (secBytes img d) 4 2 | none => 0
    let layout := dir.findSome? fun d =>
      if d.flags > 1 || d.reserved ≠ 0 || d.off % 64 ≠ 0 || d.off < start || stop < d.off + d.len ||
          (dir.any fun e => e.index < d.index && d.off < e.off + e.len && e.off < d.off + d.len) then some (wholeSection d.index)
      else none
    let contents := dir.findSome? fun d =>
      let bs := secBytes img d
      if !sectionAllowed kind d || dir.any (fun e => e.index < d.index && e.typ == d.typ && e.inst == d.inst) then
        some (wholeSection d.index)
      else if d.delta then
        let n := leAt bs 0 4
        if d.len < 4 || n > deltaMost d.typ || d.len ≠ 4 + n * deltaEntryBytes d.typ then some (wholeSection d.index)
        else ((deltaEntries d.typ bs).zipIdx.find? fun (e, _) => !deltaEntryOk d.typ e).map fun (_, i) => (d.index, i)
      else if fullLengthOk cores d.typ bs then none
      else some (wholeSection d.index)
    match layout with
    | some a => some a
    | none =>
      if !gapsZero img dir then some noSection
      else match contents with
        | some a => some a
        | none =>
          if (requiredOf kind).all fun (t, i) => (fullOf img t i).isSome then none else some noSection

/-! ## The image as it would stand (R28, R35) -/

def putBytes (bs : List Byte) (off : Nat) (new : List Byte) : List Byte := bs.take off ++ new ++ bs.drop (off + new.length)

/-- State of a physical core (die × 272 + index) in a SPARE_MAP. -/
def coreState (sm : List Byte) (p : Nat) : Nat := leAt sm (p / 4) 1 / 4 ^ (p % 4) % 4

def setCoreState (sm : List Byte) (p v : Nat) : List Byte :=
  putBytes sm (p / 4) (leBytes 1 (putBits (leAt sm (p / 4) 1) (2 * (p % 4) + 1) (2 * (p % 4)) v))

/-- The row-repair words of a SPARE_MAP. -/
def repairsOf (sm : List Byte) : List Nat := (chunk 4 (leAt sm 0x190 4) (sm.drop 0x194)).map leNat

def withRepairs (sm : List Byte) (rs : List Nat) : List Byte := sm.take 0x190 ++ leBytes 4 rs.length ++ rs.flatMap (leBytes 4)

/-- A delta entry applied to the section it amends; none where it depends on what is not there (R35). -/
def applyDelta (typ cores : Nat) (bs e : List Byte) : Option (List Byte) :=
  match typ with
  | 2 => if leAt e 0 2 < cores then some (putBytes bs (2 * leAt e 0 2) ((e.drop 2).take 2)) else none
  | 3 =>
    let v := leAt e 4 4
    match leAt e 0 1 with
    | 0 => some (setCoreState bs (leAt e 1 1 * 272 + leAt e 2 2) v)
    | 1 => some (putBytes bs (0x110 + 32 * leAt e 1 1 + leAt e 2 2) (leBytes 1 v))
    | 2 => some (withRepairs bs (repairsOf bs ++ [v]))
    | _ => if (repairsOf bs).contains v then some (withRepairs bs ((repairsOf bs).erase v)) else none
  | 9 =>
    let all := chunk 12 (bs.length / 12) bs
    let same (x : List Byte) : Bool := x.take 4 == e.take 4
    if leAt e 0 1 = 1 && leAt e 6 2 = 0 then
      if all.any same then some ((all.filter (!same ·)).flatten) else none
    else if all.any same then some ((all.map fun x => if same x then e else x).flatten)
    else some (bs ++ e)
  | _ => some (putBytes bs (2 * leAt e 0 2) ((e.drop 2).take 2))

/-- The sections as they would stand, and the delta entries that name what is not in force. -/
structure Merged where
  sections : List Section
  bad : List At
  deriving DecidableEq, Repr

def Merged.get (m : Merged) (typ inst : Nat) : List Byte :=
  match m.sections.find? (fun x => x.typ == typ && x.inst == inst) with
  | some x => x.data
  | none => []

def Merged.set (m : Merged) (typ inst : Nat) (bs : List Byte) : Merged :=
  { m with sections := m.sections.map fun (x : Section) => if x.typ == typ && x.inst == inst then { x with data := bs } else x }

/-- A section of the image merged in. -/
def mergeSection (img : List Byte) (m : Merged) (d : DirEntry) : Merged :=
  let bs := secBytes img d
  if !d.delta then m.set d.typ d.inst bs
  else
    let cores := leAt (m.get 1 0) 4 2
    (deltaEntries d.typ bs).zipIdx.foldl (fun m (e, i) =>
      match applyDelta d.typ cores (m.get d.typ d.inst) e with
      | some new => m.set d.typ d.inst new
      | none => { m with bad := m.bad ++ [(d.index, i)] }) m

/-- The image as it would stand: a KIND 0 image's own sections, a patch's over those in force. -/
def State.mergedImage (s : State) (img : List Byte) : Merged :=
  if imageKind img = 0 then ⟨(dirOf img).map fun d => ⟨d.typ, d.inst, false, secBytes img d⟩, []⟩
  else (dirOf img).foldl (mergeSection img) ⟨s.img.sections, []⟩

/-! ## Check 7: fit (R31) -/

/-- Lanes of a port that have not failed. -/
def State.lanesLeft (s : State) (p : Nat) : Nat :=
  min 16 ((List.range 18).filter fun l => !bit (s.getF (F.LNK_PORT_LANES_FAILED_MASK p)) l).length

def State.check7 (s : State) (m : Merged) : Bool :=
  let p := m.get 1 0
  leAt p 4 2 ≤ s.getF F.GLB_PROFILE_ACTIVE_CORES && leAt p 0x0C 4 ≤ s.getF F.GLB_HBM_PAGES_ALLOC_PAGES &&
    leAt p 0x10 1 ≤ s.getF F.GLB_RESOURCES_ACTIVE_DECODE && leAt p 0x11 1 ≤ s.getF F.GLB_RESOURCES_ACTIVE_ENCODE &&
    (List.range 32).all fun i =>
      !bit (leAt p 8 4) i || (s.getF (F.LNK_PORT_STATUS_STATE i) != 3 && leAt p 6 1 ≤ s.lanesLeft i)

/-! ## Check 8: cores, spares and banks (R32) -/

/-- Physical cores a CORE_MAP names. -/
def namedCores (cm : List Byte) : List Nat :=
  (chunk 2 (cm.length / 2) cm).map fun e => let v := leNat e; if bits v 8 0 ≤ 271 then bits v 10 9 * 272 + bits v 8 0 else 1088

/-- The SPARE_MAP element at which check 8 fails first, counted as R416 counts them. -/
def State.check8 (s : State) (m : Merged) : Option Nat :=
  let sm := m.get 3 0
  let named := namedCores (m.get 2 0)
  let core := (List.range 1088).find? fun p =>
    let st := coreState sm p
    let n := (named.filter (· == p)).length
    st == 3 || (st == 0) != (n == 1) || 1 < n || (s.rel.coresGone.contains p && (st == 0 || st == 1))
  let banks (d : Nat) : List Nat := (List.range 32).map fun b => leAt sm (0x110 + 32 * d + b) 1
  let bank := (List.range 128).find? fun i =>
    let d := i / 32
    let v := (banks d).getD (i % 32) 0
    32 < v || ((banks d).take (i % 32)).contains v || s.rel.banksGone.contains (d, v)
  let rs := repairsOf sm
  let slot (r : Nat) : Nat × Nat × Nat := (bits r 10 0, bits r 16 11, bits r 27 27)
  let rep := (rs.zipIdx.find? fun (r, i) =>
    bits r 8 0 > 271 || coreState sm (bits r 10 9 * 272 + bits r 8 0) ≥ 2 || bits r 26 17 > 255 ||
      ((rs.take i).map slot).contains (slot r)).map (·.2)
  match core, bank, rep with
  | some p, _, _ => some p
  | none, some b, _ => some (1088 + b)
  | none, none, some i => some (1216 + i)
  | none, none, none => none

/-! ## Check 9 (R33 to R39, R45, R209, R335, R357, R387) -/

/-- An element of a section: type, instance, entry; 0x3FFFFF for the section as a whole. -/
abbrev Elem := Nat × Nat × Nat

def whole : Nat := 0x3FFFFF

/-- Entries of a section with their indices. -/
def entriesOf (m : Merged) (typ inst size : Nat) : List (List Byte × Nat) :=
  let bs := m.get typ inst
  (chunk size (bs.length / size) bs).zipIdx

/-- A zero or a value within a range. -/
def zeroOr (v lo hi : Nat) : Bool := v == 0 || (lo ≤ v && v ≤ hi)

def profileOk (p : List Byte) : Bool :=
  let a := leAt p 4 2
  leAt p 0 4 < 2 ^ 20 && (a == 1024 || (896 ≤ a && a ≤ 1008 && a % 16 == 0)) && 1 ≤ leAt p 6 1 && leAt p 6 1 ≤ 16 &&
    zeroOr (leAt p 7 1) 2 15 && leAt p 0x10 1 ≤ 8 && leAt p 0x11 1 ≤ 4 && zeroOr (leAt p 0x12 1) 85 100 &&
    zeroOr (leAt p 0x13 1) 1 100 && zeroOr (leAt p 0x1C 2) 1024 16384 && leAt p 0x1F 1 == 0

/-- Stack pages that window, save area (with a bulk template) and partitions take of a stack. -/
def State.stackLoad (s : State) (m : Merged) (st : Nat) : Nat :=
  let parts := (entriesOf m 5 0 32).map fun (e, _) => partitionOf e
  let window := ((List.range 8).filter fun i => s.usedStack i == st).length * 64
  let bulk := (entriesOf m 0x0B 0 144).any fun (t, _) => leAt t 1 1 == 1
  let save := if bulk then ((List.range 8).filter fun i => s.saveStack i == st).length * 80 else 0
  parts.foldl (fun a p => if bit p.stackMask st then a + p.count / (stacksOf p.stackMask).length else a) (window + save)

/-- The HBM partitions (R33, R68, R209, R357). -/
def State.partitionsBad (s : State) (m : Merged) : Option Elem :=
  let pages := leAt (m.get 1 0) 0x0C 4
  let parts := (entriesOf m 5 0 32).map fun (e, i) => (partitionOf e, e, i)
  let bulk := (entriesOf m 0x0B 0 144).any fun (t, _) => leAt t 1 1 == 1
  let set := m.get 10 0
  let stripe := leAt set 5 1 == 9
  let one := parts.findSome? fun (p, e, i) =>
    let n := (stacksOf p.stackMask).length
    if p.count = 0 || pages < p.first + p.count || p.first < 512 || (bulk && pages < p.first + p.count + 640) ||
        p.flags ≥ 32 || leAt e 0x0F 17 ≠ 0 || (p.banked && (!p.persistent || !stripe)) ||
        !(n == 1 || n == 2 || n == 4 || n == 8) || p.count % (max n 1) ≠ 0 ||
        (parts.any fun (q, _, j) => j < i && q.first < p.first + p.count && p.first < q.first + q.count) then some (5, 0, i)
    else none
  let banked := (parts.filter fun (p, _, _) => p.banked).foldl (fun a (p, _, _) => a + p.count) 0
  let parity := parts.filter fun (p, _, _) => p.parity
  let sw := (parts.filter fun (p, _, _) => p.sharedWeights).length
  match one with
  | some x => some x
  | none =>
    if 32768 < banked || sw ≠ 1 || (banked ≠ 0 && !(parity.length == 1 && parity.all fun (p, _, _) => (banked + 7) / 8 ≤ p.count)) ||
        (List.range 8).any (fun st => s.getF (F.MEM_STACK_PAGES_PAGES st) < s.stackLoad m st && 0 < s.stackLoad m st)
    then some (5, 0, whole) else none

/-- Island kind (Table PWR-2), and the range of FMIN_MHZ and FMAX_MHZ of an island: lowest and highest FMIN, lowest and highest
FMAX. -/
def islandKind (i : Nat) : Nat :=
  if i < 1088 then 0 else if i < 1152 then 1 else if i < 1156 then 2 else if i < 1188 then 3 else if i < 1196 then 4
  else if i < 1200 then 5 else if i < 1214 then 6 else if i < 1216 then 7 else if i < 1217 then 8 else 9

def islandRange (i : Nat) : Nat × Nat × Nat × Nat :=
  match islandKind i with
  | 0 | 5 => (500, 1250, 500, 1250)
  | 1 | 2 | 4 => (2000, 2000, 2000, 2000)
  | 3 => (1000, 1000, 1000, 1250)
  | 6 | 7 => (500, 1000, 500, 1000)
  | 8 => (800, 800, 800, 800)
  | _ => if i = 1217 then (1000, 1000, 1000, 1000) else (500, 1000, 1000, 1000)

def pointOk (i fmin fmax : Nat) : Bool :=
  let r := islandRange i
  r.1 ≤ fmin && fmin ≤ r.2.1 && r.2.2.1 ≤ fmax && fmax ≤ r.2.2.2 && fmin ≤ fmax

/-- ISLAND_POINTS (R37, R335). -/
def islandsBad (m : Merged) : Option Elem :=
  let es := entriesOf m 9 0 12
  let single (i : Nat) : Bool := es.any fun (e, _) => leAt e 0 1 == 1 && leAt e 2 2 == i
  let one := es.findSome? fun (e, i) =>
    let k := leAt e 1 1
    let isl := leAt e 2 2
    let fmin := leAt e 4 2
    let fmax := leAt e 6 2
    let ok := leAt e 0 1 ≤ 1 && k ≤ 9 && 450 ≤ leAt e 8 2 && leAt e 8 2 ≤ 900 && leAt e 10 2 == 0 &&
      !(es.any fun (x, j) => j < i && x.take 4 == e.take 4) &&
      (if leAt e 0 1 = 1 then isl < 1220 && islandKind isl == k && pointOk isl fmin fmax
       else isl == 0 && (List.range 1220).all fun x => islandKind x != k || single x || pointOk x fmin fmax)
    if ok then none else some (9, 0, i)
  match one with
  | some x => some x
  | none =>
    if (List.range 10).all fun k => (es.filter fun (e, _) => leAt e 0 1 == 0 && leAt e 1 1 == k).length == 1 then none
    else some (9, 0, whole)

/-- STRIPE_SET (R38). -/
def stripeBad (m : Merged) : Option Elem :=
  let b := m.get 10 0
  let ids := (List.range 9).map fun i => leAt b (8 + 4 * i) 4
  let count := leAt b 5 1
  if leAt b 4 1 > 8 || !(count == 0 || count == 9) || leAt b 6 1 > 3 || leAt b 7 1 ≠ 0 || leAt b 44 4 ≠ 0 then some (10, 0, whole)
  else if count = 0 then none
  else
    match ids.zipIdx.find? (fun (x, i) => (ids.take i).contains x || x ≥ 2 ^ 20) with
    | some (_, i) => some (10, 0, i)
    | none => if ids.getD (leAt b 4 1) 0 = bits (leAt (m.get 1 0) 0 4) 19 0 then none else some (10, 0, leAt b 4 1)

/-- CONTEXT_TEMPLATE (R39, Table SI-6). -/
def templatesBad (m : Merged) : Option Elem :=
  let cores := leAt (m.get 1 0) 4 2
  let sets := (m.get 6 0).length / 32
  let parts := (entriesOf m 5 0 32).map fun (e, _) => partitionOf e
  let ts := entriesOf m 0x0B 0 144
  let one := ts.findSome? fun (t, i) =>
    let mask := leAt t 4 2
    if leAt t 0 1 > 63 || (ts.any fun (x, j) => j < i && leAt x 0 1 == leAt t 0 1) || leAt t 1 1 > 1 || sets ≤ leAt t 2 1 ||
        leAt t 3 1 ≥ 8 || leAt t 8 8 ≠ 0 || leAt t 0x10 128 / 2 ^ cores ≠ 0 || mask / 2 ^ parts.length ≠ 0 ||
        (bit (leAt t 3 1) 1 && !(parts.zipIdx.any fun (p, j) => bit mask j && p.banked)) then some (0x0B, 0, i)
    else none
  match one with
  | some x => some x
  | none => if (ts.foldl (fun a (t, _) => a + leAt t 6 2) 0) ≤ 256 then none else some (0x0B, 0, whole)

/-- The SHARED_WEIGHTS partition of a KIND 0 image is PRIVATE and the sealed key names another model (R387). -/
def State.weightsKeyBad (s : State) (img : List Byte) (m : Merged) : Option Elem :=
  if imageKind img ≠ 0 then none
  else
    ((entriesOf m 5 0 32).find? fun (e, _) => (partitionOf e).sharedWeights && (partitionOf e).priv &&
      (match s.sec.modelKey with | some k => k.model != leAt img 0x20 8 | none => true)).map fun (_, i) => (5, 0, i)

/-- The element at which check 9 fails first. -/
def State.check9 (s : State) (img : List Byte) (m : Merged) : Option Elem :=
  let p := m.get 1 0
  let cores := leAt p 4 2
  let scratch := ((entriesOf m 4 0 8).foldl (fun a (e, _) => a + ((List.range 32).filter (bit (leAt e 0 4) ·)).length) 0)
  let caps : List Nat := [cores * 16, scratch * 256, leAt p 0x0C 4 * 32, 6400 * 16384]
  let bad (typ inst size : Nat) (f : List Byte → Bool) : Option Elem :=
    ((entriesOf m typ inst size).find? fun (e, _) => !f e).map fun (_, i) => (typ, inst, i)
  [ (if profileOk p then none else some (1, 0, whole)),
    bad 2 0 2 (fun e => bit (leNat e) 15 && bits (leNat e) 14 11 == 0 && bits (leNat e) 8 0 ≤ 271),
    ((repairsOf (m.get 3 0)).zipIdx.find? fun (r, _) => r ≥ 2 ^ 28).map (fun (_, i) => (3, 0, 1216 + i)),
    (if (entriesOf m 4 0 8).all (fun (e, _) => leAt e 4 4 == 0) then none else some (4, 0, whole)),
    s.partitionsBad m,
    bad 6 0 32 (fun e => leAt e 16 16 == 0 && (List.range 4).all fun t => leAt e (4 * t) 4 ≤ caps.getD t 0),
    (List.range 32).findSome? (fun port => bad 7 port 2 fun e => bits (leNat e) 14 12 == 0),
    bad 8 0 8 (fun e => leAt e 0 1 == 32 && 1 ≤ leAt e 3 1 && leAt e 0 1 + leAt e 3 1 ≤ 256 && leAt e 4 4 == 0),
    islandsBad m,
    stripeBad m,
    templatesBad m,
    (let b := m.get 0x0C 0; if leAt b 0 4 < 128 && leAt b 8 1 < 16 && leAt b 9 23 == 0 then none else some (0x0C, 0, whole)),
    s.weightsKeyBad img m ].findSome? id

/-! ## Places (R416) -/

/-- Does a delta entry name an element of its section? -/
def deltaNames (typ elem : Nat) (e : List Byte) : Bool :=
  match typ with
  | 2 => leAt e 0 2 == elem
  | 3 =>
    match leAt e 0 1 with
    | 0 => leAt e 1 1 * 272 + leAt e 2 2 == elem
    | 1 => 1088 + leAt e 1 1 * 32 + leAt e 2 2 == elem
    | _ => 1216 ≤ elem
  | 7 => leAt e 0 2 == elem
  | _ => false

/-- SECTION and ENTRY for an element: in the section the image carries, in full or as a delta; else no section. -/
def placeOf (img : List Byte) (x : Elem) : At :=
  match (dirOf img).find? (fun d => d.typ == x.1 && d.inst == x.2.1) with
  | none => noSection
  | some d =>
    if !d.delta then (d.index, x.2.2)
    else
      match ((deltaEntries d.typ (secBytes img d)).zipIdx.filter fun (e, _) => deltaNames d.typ x.2.2 e).getLast? with
      | some (_, i) => (d.index, i)
      | none => wholeSection d.index

/-- Checks 7 to 9 on the image as it would stand. -/
def State.checks7to9 (s : State) (img : List Byte) : Option ImageFail :=
  let m := s.mergedImage img
  if !s.check7 m then some ⟨7, Code.IMAGE_PROFILE_MISMATCH, placeOf img (1, 0, whole)⟩
  else match s.check8 m with
    | some e => some ⟨8, Code.IMAGE_CORE_MAP, placeOf img (3, 0, e)⟩
    | none =>
      match m.bad with
      | a :: _ => some ⟨9, Code.IMAGE_RANGE, a⟩
      | [] => (s.check9 img m).map fun x => ⟨9, Code.IMAGE_RANGE, placeOf img x⟩

/-- Checks 1 to 4. -/
def State.checks1to4 (s : State) (img : List Byte) (sig : SigVerdict) : Option ImageFail :=
  if !s.check1 img then some ⟨1, Code.IMAGE_FORMAT, noSection⟩
  else if !s.check2 img sig then some ⟨2, Code.IMAGE_SIGNATURE, noSection⟩
  else if leAt img 0x14 4 < s.getF F.SIL_ROLLBACK_VALUE then some ⟨3, Code.IMAGE_ROLLBACK, noSection⟩
  else (check4 img).map fun a => ⟨4, Code.IMAGE_SECTION, a⟩

/-- The digest in force (SIL_ACTIVE_DIGEST), as 48 bytes. -/
def State.activeDigest (s : State) : List Byte := s.regBytes (R.SIL_ACTIVE_DIGEST 0) 12

/-- Check 5: a patch names the digest in force. -/
def State.check5 (s : State) (img : List Byte) : Option ImageFail :=
  if imageKind img = 0 || (img.drop 0x40).take 48 == s.activeDigest && s.imageValid then none
  else some ⟨5, Code.IMAGE_BASE_MISMATCH, noSection⟩

/-- Is this a moment the KIND allows (Table SI-1)? A KIND 0 or 1 image needs a full Lull or READY with no job. -/
def State.momentOk (s : State) (kind : Nat) : Bool :=
  match kind with
  | 0 | 1 => (s.devState == 2 || s.devState == 4) && !s.stepRunning
  | 2 => true
  | _ => s.deviceId == 0xFFFFF && !s.resident

end Sys2Proof.Machine
end

