-- ==== Sys2Proof/Machine/Islands.lean ====
section
/-! DEFINITION. Islands, calibration and core states as the structure sets them (R335 to R341, R94, R203), and what holds the
device at a full Lull (R56). -/

namespace Sys2Proof.Machine

open Sys2Proof

/-! ## The hold (R56) -/

/-- Does an action wait for, or run at, a full Lull: a KIND 0 or 1 image held or applied, a retirement, a withdrawal, a
recalibration sweep, a firmware activation? -/
def State.holdNeeded (s : State) : Bool :=
  ((s.getF F.SIL_STATUS_STATE == 2 || s.getF F.SIL_STATUS_STATE == 3) && imageKind s.img.image ≤ 1) ||
    !s.rel.retire.isEmpty || !s.rel.retireBanks.isEmpty || s.rel.withdraw || s.sec.activate ||
    s.islandCount F.PWR_ISL_STATE_RECAL_PENDING != 0

/-- HOLD_PENDING follows the actions that wait; the jobs that waited at the hold are marked (Table EX-2, FLAGS [3]). -/
def State.settleHold (s : State) : State :=
  if s.holdNeeded then s.holdPending
  else if s.getF F.JOB_DEVICE_STATE_HOLD_PENDING = 0 then s
  else
    { s with job.jobs := s.job.jobs.map fun (j : Job) => if j.waits then { j with held := true } else j }.putF
      F.JOB_DEVICE_STATE_HOLD_PENDING 0

/-! ## Operating points and calibration (R37, R340) -/

/-- The operating point of an island: FMIN, FMAX and VMAX of its own entry or its kind's default; with no image, the rated clock
of its kind and 900 mV (log entry 20). -/
def State.point (s : State) (i : Nat) : Nat × Nat × Nat :=
  let es := chunk 12 ((s.section 9 0).length / 12) (s.section 9 0)
  let own := es.find? fun e => leAt e 0 1 == 1 && leAt e 2 2 == i
  let kind := es.find? fun e => leAt e 0 1 == 0 && leAt e 1 1 == islandKind i
  match own, kind with
  | some e, _ => (leAt e 4 2, leAt e 6 2, leAt e 8 2)
  | none, some e => (leAt e 4 2, leAt e 6 2, leAt e 8 2)
  | none, none =>
    let f := match islandKind i with | 1 | 2 | 4 => 2000 | 8 => 800 | _ => 1000
    (f, f, 900)

/-- The index a calibration draws current at (R340 step 1). -/
def State.calIndex (s : State) (i : Nat) : Nat := max 96 (storeGet (fun _ => 0) s.pwr.peak i)

/-- An island calibrated: a frequency FMAX − 25k not below FMIN and a voltage 450 + 5j not above VMAX, both free; the record takes
the temperature, the index and the time; GUARDBAND and RECAL_PENDING clear (R340, R341, Table PWR-5). -/
def State.calibrate (s : State) (i : Nat) : State :=
  let p := s.point i
  let a := s.freeNat
  let b := a.2.freeNat
  let f := p.2.1 - a.1 % ((p.2.1 - p.1) / 25 + 1) * 25
  let v := 450 + b.1 % ((p.2.2 - 450) / 5 + 1) * 5
  let idx := s.calIndex i
  let s := { b.2 with pwr.peak := storeSet (fun _ => 0) b.2.pwr.peak i 0 }
  let s := (s.putF (F.PWR_ISL_CAL_F_MHZ i) f).putF (F.PWR_ISL_CAL_V_MV i) v
  let s := (s.putF (F.PWR_ISL_CAL_COND_TEMP_C i) (s.getF (F.PWR_ISL_STATE_TEMP i))).putF (F.PWR_ISL_CAL_COND_LOAD_INDEX i) idx
  let s := (s.addF (F.PWR_ISL_CAL_COND_CALIBRATIONS i) 1).putP (P.PWR_ISL_CAL_TIME i) s.timeNs
  ((s.putF (F.PWR_ISL_FREQ_TARGET i) f).putF (F.PWR_ISL_STATE_GUARDBAND i) 0).putF (F.PWR_ISL_STATE_RECAL_PENDING i) 0

/-- Does an island have a record its present temperature does not make stale (R341, R352)? -/
def State.calValid (s : State) (i : Nat) : Bool :=
  s.getF (F.PWR_ISL_CAL_F_MHZ i) != 0 && s.getF (F.PWR_ISL_STATE_TEMP i) ≤ s.getF (F.PWR_ISL_CAL_COND_TEMP_C i) + 15

/-- An island brought up from OFF into a state, calibrated when it has no valid record (Table PWR-3). -/
def State.powerOn (s : State) (i st : Nat) : State :=
  if s.pwr.dead.contains i then s
  else if s.getF (F.PWR_ISL_STATE_STATE i) = 0 then (if s.calValid i then s else s.calibrate i).setIsland i st
  else s

/-! ## Cores and banks as the image in force lays them out (R32, R94, R203, R338) -/

/-- The logical core a physical core serves. -/
def State.logicalOf (s : State) (p : Nat) : Option Nat := (List.range s.activeCores).find? fun l => s.physOf l == p

/-- A core's island and status follow its place in the image: in service, spare or retired. -/
def State.layCore (s : State) (p : Nat) : State :=
  match coreState (s.section 3 0) p with
  | 0 =>
    let s := (s.powerOn p 2).setCore p { s.core p with failed := s.pwr.dead.contains p }
    (s.putF (F.JOB_CORE_STATUS_STATE p) 1).putF (F.JOB_CORE_STATUS_LOGICAL p) ((s.logicalOf p).getD 0x7FF)
  | n =>
    let s := s.setIsland p 0
    (s.putF (F.JOB_CORE_STATUS_STATE p) (if n = 1 then 4 else 5)).putF (F.JOB_CORE_STATUS_LOGICAL p) 0x7FF

/-- The LLM bank group of a physical bank. -/
def bankGroup (b : Nat) : Nat := min (b / 2) 15

/-- An LLM bank group is ON while any of its banks is named. -/
def State.layGroup (s : State) (g : Nat) : State :=
  let die := g / 16
  let named := (List.range 32).any fun b => bankGroup (leAt (s.section 3 0) (0x110 + 32 * die + b) 1) == g % 16
  if named then s.powerOn (1088 + g) 1 else s.setIsland (1088 + g) 0

def State.layOut (s : State) : State :=
  ((List.range 64).foldl State.layGroup ((List.range 1088).foldl State.layCore s)).showFree

end Sys2Proof.Machine
end

