-- ==== Sys2Proof/Machine/Placement.lean ====
section
/-! DEFINITION. Placing a step and starting its tile programs (R65, R66, R131, R135 to R138), the drain of a step and its Lull
(R52 to R54, R133). -/

namespace Sys2Proof.Machine

open Sys2Proof

/-- A job fault by an access outside every mapping (R226): the address goes to JOB_CTX_MAP_FAULT_VA. -/
def State.mapFault (s : State) (uid va index logical : Nat) : State :=
  match s.jobOf uid with
  | some j => (s.putP (P.JOB_CTX_MAP_FAULT_VA j.ctx) va).jobFault uid Code.MAP_FAULT index 0 logical
  | none => s

/-- How a structure read at the start of a step ended. -/
inductive Got where
  | ok (bytes : List Byte)
  | bad
  | wait
  deriving DecidableEq, Repr

def State.got (s : State) (ctx va n : Nat) : Got :=
  match s.vFetch ctx va n with
  | .ok bs => .ok bs
  | .wait => .wait
  | .poison _ => .wait
  | _ => .bad

/-- What the device reads at the start of a step: the entry's guard table address and the ranks' programs. -/
inductive StepList where
  | ok (guard : Nat) (entries : Nat) (programs : List Nat)
  | bad
  | wait
  deriving DecidableEq, Repr

/-- The step list's header, entry and rank array (Tables TP-1 and TP-2). -/
def State.stepList (s : State) (j : Job) : StepList :=
  match s.got j.ctx j.program 32 with
  | .bad => .bad
  | .wait => .wait
  | .ok h =>
    let n := leAt h 0 4
    if n = 0 || n > 65536 || leAt h 4 2 ≠ 1 || leAt h 6 2 ≠ 0 || leAt h 16 16 ≠ 0 then .bad
    else
      match s.got j.ctx (j.program + 32 + 16 * (j.done % n)) 16 with
      | .bad => .bad
      | .wait => .wait
      | .ok e =>
        let progs := leAt e 0 8
        let guard := if leAt e 8 8 = 0 then leAt h 8 8 else leAt e 8 8
        if progs % 8 ≠ 0 then .bad
        else
          match s.got j.ctx progs (8 * j.coresWanted) with
          | .bad => .bad
          | .wait => .wait
          | .ok a =>
            let ps := (chunk 8 j.coresWanted a).map leNat
            if ps.all (· % 64 == 0) then .ok guard n ps else .bad

/-- The guard table of a step: its layer entries and the summary address (R131). -/
inductive GuardTable where
  | ok (entries : List (List Byte)) (summary : Nat)
  | range
  | map (va : Nat)
  | wait
  deriving DecidableEq, Repr

def State.guardTable (s : State) (ctx va : Nat) : GuardTable :=
  if va = 0 then .ok [] 0
  else
    match s.vFetch ctx va 32 with
    | .mapFault v => .map v
    | .ok h =>
      let n := leAt h 0 2
      if n > 1024 || leAt h 2 6 ≠ 0 || leAt h 16 16 ≠ 0 then .range
      else
        match s.vFetch ctx (va + 32) (16 * n) with
        | .ok es => .ok (chunk 16 n es) (leAt h 8 8)
        | .mapFault v => .map v
        | _ => .wait
    | _ => .wait

/-- Is a tile-program header within what R138 checks? -/
def headerOk (h : List Byte) : Bool :=
  leAt h 0 2 == 1 && leAt h 2 2 / 2 == 0 && 1 ≤ leAt h 4 4 && leAt h 4 4 ≤ 65534 && leAt h 0x13 13 == 0

/-- A program from its header (Table TP-3). -/
def programOf (j : Job) (va rank : Nat) (h : List Byte) : Program :=
  ⟨j.ctx, j.uid, va, leAt h 4 4, leAt h 8 4, bit (leAt h 2 2) 0, leAt h 0x0C 4, leAt h 0x10 1, leAt h 0x11 1, leAt h 0x12 1,
    (List.range 4).map fun i => ⟨leAt h (0x20 + 8 * i) 4, leAt h (0x24 + 8 * i) 4⟩, rank, [], false, [], none, false⟩

/-- A program starts on a physical core. -/
def State.startCore (s : State) (p logical : Nat) (g : Program) : State :=
  let c := s.core p
  let s := s.setCore p { Core.idle with prog := some g, saved := c.saved, takenFrom := c.takenFrom, failed := c.failed }
  let s := s.putF (F.JOB_CORE_STATUS_STATE p) 2
  let s := s.putF (F.JOB_CORE_STATUS_LOGICAL p) logical
  let s := s.putF (F.JOB_CORE_STATUS_CONTEXT p) g.ctx
  let s := (s.putF (F.JOB_CORE_PROGRAM_NEXT p) 0).putF (F.JOB_CORE_PROGRAM_RANK p) g.rank
  (s.putF (F.JOB_CORE_LFSR_STATE p) (lfsrSeed g.seed)).setIsland p 1

/-- The programs of the ranks started in order; a header that cannot be read or breaks R138 faults the job. -/
def startRanks (uid : Nat) (j : Job) : List (Nat × Nat × Nat × Nat) → State → State
  | [], s => s
  | (rank, va, p, logical) :: t, s =>
    match s.got j.ctx va 64 with
    | .ok h =>
      if headerOk h then startRanks uid j t (s.startCore p logical (programOf j va rank h))
      else s.jobFault uid Code.BAD_PROGRAM 0xFFFF 0 logical
    | _ => s.jobFault uid Code.BAD_PROGRAM 0xFFFF 0 logical

/-- A layer's guard state at the start of a step. -/
def layersOf (entries : List (List Byte)) : Store Layer :=
  (entries.zipIdx.filterMap fun (e, i) =>
    if leAt e 6 1 = 0 then none else some (i, { Layer.fresh with rung := leAt e 6 1, maxRung := 0 }))

/-- The programs of a job's step start on the cores it has (R136, R138). The step must be in place; none: the start waits. -/
def State.startPrograms (s : State) (uid : Nat) : Option State :=
  match s.jobOf uid with
  | none => some s
  | some j =>
    match j.step with
    | none => some s
    | some st =>
      match s.stepList j with
      | .wait => none
      | .bad => some (s.jobFault uid Code.BAD_PROGRAM 0xFFFF 0 (st.cores.headD 0))
      | .ok guard n progs =>
        match s.guardTable j.ctx guard with
        | .wait => none
        | .range => some (s.jobFault uid Code.GUARD_TABLE_BAD 0xFFFF 0 (st.cores.headD 0))
        | .map va => some (s.mapFault uid va 0xFFFF (st.cores.headD 0))
        | .ok es summary =>
          let st := { st with entries := n, guard := es, summary := summary, layers := layersOf es, held := j.held,
                              replayed := j.replayNext }
          let j := { j with phase := .running, startNs := if j.startNs = 0 then s.timeNs else j.startNs,
                            delayNs := j.delayNs + (s.timeNs - j.waitFrom), held := false, step := some st }
          let s := s.setJob j
          let ranks := (List.range progs.length).map fun r => (r, progs.getD r 0, st.phys.getD r 0, st.cores.getD r 0)
          let s := if s.rel.retry.isEmpty && s.rel.retryBanks.isEmpty then s
            else { s with rel.retire := s.rel.retire ++ s.rel.retry, rel.retry := [],
                          rel.retireBanks := s.rel.retireBanks ++ s.rel.retryBanks, rel.retryBanks := [] }.holdPending
          some (startRanks uid j ranks s).showJobs

/-! ## Choosing a job and its cores (R65, R66) -/

/-- Is a core under hardware suspicion by a job, which takes no further program on it in the step (R130)? -/
def Job.suspects (j : Job) (p : Nat) : Bool :=
  !j.hwReplay && match j.suspect with | some x => x.core == p | none => false

/-- Logical cores a job may use that no step holds. -/
def State.freeCores (s : State) (j : Job) : List Nat :=
  (List.range s.activeCores).filter fun l => bit (s.ctx j.ctx).mask l && s.coreFree l && !j.suspects (s.physOf l)

/-- Logical cores of a job's mask that running bulk steps hold, lowest first. -/
def State.bulkCores (s : State) (j : Job) : List Nat :=
  (List.range s.activeCores).filter fun l => bit (s.ctx j.ctx).mask l && !j.suspects (s.physOf l) && s.job.jobs.any fun v =>
    v.phase == .running && (s.ctx v.ctx).class_ == 1 && match v.step with | some st => st.cores.contains l | none => false

/-- The cores a job's step would take: ascending, and those among them taken from bulk steps. -/
def State.coresFor (s : State) (j : Job) : Option (List Nat × List Nat) :=
  let free := (s.freeCores j).take j.coresWanted
  if free.length = j.coresWanted then some (free, [])
  else if (s.ctx j.ctx).class_ ≠ 0 then none
  else
    let taken := (s.bulkCores j).take (j.coresWanted - free.length)
    if free.length + taken.length = j.coresWanted then
      some ((List.range s.activeCores).filter fun l => free.contains l || taken.contains l, taken)
    else none

/-- Does a job stand first of its context's waiting jobs, its context OPEN or CLOSING (R60, R65)? -/
def State.inLine (s : State) (j : Job) : Bool :=
  j.waits && (s.ctxState j.ctx == 1 || s.ctxState j.ctx == 2) &&
    (s.job.jobs.find? fun x => x.ctx == j.ctx && x.waits).map (·.uid) == some j.uid

/-- The job that goes first (R65): saffron before bulk, then the one that has waited longest. -/
def State.firstJob (s : State) : Option Job :=
  let line := s.job.jobs.filter fun j => s.inLine j
  let saffron := line.filter fun j => (s.ctx j.ctx).class_ == 0
  match if saffron.isEmpty then line else saffron with
  | [] => none
  | x :: t => some (t.foldl (fun a j => if j.waitFrom < a.waitFrom then j else a) x)

/-- The job whose step begins: the first in line, when no hold is pending and it has its tier-0 quota and its cores; while it
waits, no job behind it is placed (R56, R65, R223). -/
def State.nextJob (s : State) : Option Job :=
  match s.firstJob with
  | some j =>
    if s.getF F.JOB_DEVICE_STATE_HOLD_PENDING = 0 && !s.overQuota j.ctx 0 (j.coresWanted * 16 * 65536) && (s.coresFor j).isSome then
      some j
    else none
  | none => none

/-- A kept tile counted (R129, R133): the highest rung kept, and a tile that Updraft raised. -/
def State.countEscalated (s : State) (uid layer rung : Nat) (up : Bool) : State :=
  s.mapStep uid fun st =>
    let l := storeGet (fun _ => Layer.fresh) st.layers layer
    { st with layers := storeSet (fun _ => Layer.fresh) st.layers layer
                { l with maxRung := max l.maxRung rung, escalated := l.escalated + (if up then 1 else 0) },
              escalated := st.escalated + (if up then 1 else 0) }

/-- A core's work saved for a saffron step that takes it (R66 steps 2 and 3, R93, R125). A scan keeps its pins; a request the
retrieval engine has not answered is made again when the core resumes (log entry 53). -/
def State.takeCore (s : State) (victim p : Nat) : State :=
  let c := s.core p
  let flags : Nat := c.checks.foldl (fun a k => Nat.lor a k.flags.toNat) (s.reg (R.JOB_CORE_FLAGS p)).toNat
  let mine := s.held.filter (fun i => i.coreOf == some p) ++ (s.kv.pinWaits.map (·.2)).filter fun i => i.coreOf == some p
  let v : SavedCore := ⟨c.scratch, c.acc, BitVec.ofNat 12 flags, s.getF (F.JOB_CORE_LFSR_STATE p), s.getF (F.JOB_CORE_PROGRAM_NEXT p),
    s.getF (F.JOB_CORE_PROGRAM_RANK p), c.prog, c.halo, c.sat, c.flushed, c.epilogue, c.inbound,
    c.scan.filter (fun x => x.stage != 0), mine⟩
  let s := (s.dropScan p none).addF (F.JOB_CORE_GUARD_DROPPED_COUNT p) c.checks.length
  let s := c.checks.foldl (fun s k => s.countEscalated victim k.layer k.rung k.up) s
  let s := s.setCore p { Core.idle with saved := some v, takenFrom := some victim, failed := c.failed }
  let s := { s with held := s.held.filter fun i => i.coreOf != some p }
  (s.setReg (R.JOB_CORE_FLAGS p) 0).putF (F.JOB_CORE_STATUS_STATE p) 3

/-- A bulk step stopped for a saffron step (R66 steps 2 to 4). -/
def State.stopVictim (s : State) (uid : Nat) (takenPhys : List Nat) : State :=
  match s.jobOf uid with
  | some j =>
    match j.step with
    | some st =>
      let s := st.phys.foldl (fun s p =>
        if takenPhys.contains p then s.takeCore uid p
        else (s.putF (F.JOB_CORE_STATUS_STATE p) 3).setIsland p 2) s
      s.setJob { j with phase := .preempted, waitFrom := s.timeNs }
    | none => s
  | none => s

/-- A fresh step of a job on its cores. -/
def State.newStep (s : State) (j : Job) (cores taken : List Nat) : StepRun :=
  ⟨(j.firstStep + j.done) % 2 ^ 48, cores, 0, [], 0, [], [], j.replayNext, false, false, 0, none, false, false, 0, taken,
    cores.map s.physOf⟩

/-! ## The drain (R52, Table EX-1) -/

/-- Is the step of a job drained: every unit that takes part has finished its work? -/
def State.drained (s : State) (j : Job) (st : StepRun) : Bool :=
  j.phase == .running && st.retiredAt.isSome &&
    st.phys.all (fun p => (s.core p).checks.isEmpty && (s.core p).epilogue.isEmpty) &&
    s.cells.all (fun c => !(c.busy && c.job == j.uid)) &&
    s.vid.streams.all (fun v => v.units.all (fun u => u.uid != some j.uid) && !v.closeFor.contains j.uid) &&
    s.job.puts.all (fun q => q.job != j.uid) &&
    s.fab.objs.all (fun o => o.job != j.uid || o.run.isNone) &&
    st.effects.all (fun e => match e with
      | .tierPromote slot _ => (match s.obj slot with | some o => o.resid != .promoting | none => true)
      | _ => true) &&
    s.fab.ports.all (fun e => (e.2.replay ++ e.2.queue).all fun c => c.frame.src != s.deviceId || c.frame.ctx != j.ctx) &&
    s.fab.waiting.all (fun c => c.frame.src != s.deviceId || c.frame.ctx != j.ctx)

/-! ## The Lull (R52 to R54) -/

/-- The step summary of R133 (Table PG-5). -/
def summaryBytes (st : StepRun) : List Byte :=
  (List.range st.guard.length).flatMap fun i =>
    let l := storeGet (fun _ => Layer.fresh) st.layers i
    leBytes 1 l.rung ++ leBytes 1 l.maxRung ++ leBytes 2 (min l.accepted 0xFFFF) ++ leBytes 4 l.checks ++ leBytes 4 l.misses ++
      leBytes 4 l.escalated

/-- Does the Lull of a step of a context bank (R302): its module has a stripe set, and the context a valid bank group? -/
def State.banks (s : State) (ctx : Nat) : Bool := s.getF F.REL_STRIPE_STATUS_STATE != 0 && s.bankGroupOk ctx

/-- Host-made transient objects of a context released at a Lull of any of its jobs (R228). -/
def State.dropHostTransients (s : State) (ctx : Nat) : State :=
  (s.tier.objs.filter fun o => o.owner == ctx && o.byHost && s.transient o).foldl (fun s o => s.freeSlot o.slot) s

/-- The flags, counts and marks of a step's cores copied into the job (R52, R113, R155). -/
def State.snapshot (s : State) (j : Job) (st : StepRun) : Job :=
  let fl := st.phys.foldl (fun a p => Nat.lor a (s.reg (R.JOB_CORE_FLAGS p)).toNat) j.flags.toNat
  let sat := st.phys.foldl (fun a p => a + (s.core p).sat) j.sat
  let flushed := st.phys.foldl (fun a p => a + (s.core p).flushed) j.flushed
  { j with flags := BitVec.ofNat 12 fl, sat := sat, flushed := flushed, escalations := j.escalations + st.escalated,
           emptyConv := j.emptyConv || st.phys.any fun p => (s.core p).emptyConv }

/-- The status of a job that has committed its last step (R71). -/
def doneStatus (j : Job) : Nat :=
  if j.escalations ≠ 0 then Code.OK_ESCALATED else if j.emptyConv then Code.OK_EMPTY else Code.OK

/-- The Lull of a step declared: the commit point. -/
def State.declareLull (s : State) (uid late : Nat) : State :=
  match s.jobOf uid with
  | none => s
  | some j =>
    match j.step with
    | none => s
    | some st =>
      let s := st.effects.reverse.foldl (State.commit j.ctx) s
      let s := s.dropHostTransients j.ctx
      let s := s.lullStreams uid
      let j := s.snapshot j st
      let s := s.lullRecord j st late
      let s := s.clearObjs j.ctx fun o => o.job == uid
      let s := s.releaseCores st
      let j := { j with done := j.done + 1, step := none, phase := .lull, waitFrom := s.timeNs, replayNext := false,
                        suspect := none, hwReplay := false }
      let s := (s.setJob j).undoShow
      (if j.done ≥ j.stepCount then s.endJob j (doneStatus j) else s).showJobs

/-- The summary of a step written before its Lull (R133); an address that is not mapped writable faults the job. -/
def State.writeSummary (s : State) (uid : Nat) : VWrite :=
  match s.jobOf uid with
  | none => .ok s
  | some j =>
    match j.step with
    | none => .ok s
    | some st => if st.summary = 0 then .ok s else s.vWrite j.ctx uid st.summary (summaryBytes st)

end Sys2Proof.Machine
end

