-- ==== Sys2Proof/Machine/Failures.lean ====
section
/-! DEFINITION. Parts that fail (R27, R48, R295 to R298): degraded declarations, the fit of the image, core failures, replays,
DEVICE_RETIRE, and the spare ledger (R292). -/

namespace Sys2Proof.Machine

open Sys2Proof

/-- A SOURCE or unit identifier: kind and index (Table EX-3, R290). -/
def unitId (kind index : Nat) : Nat := kind * 4096 + index

/-! ## The ledger (R292, Table REL-10) -/

/-- A part of a kind moves from one column of the ledger to another. -/
def State.ledgerMove (s : State) (kind : Nat) (fromF toF : Nat → Fld) (n : Nat) : State :=
  (s.putF (fromF kind) (s.getF (fromF kind) - n)).addF (toF kind) n

/-- A spare takes the place of a part in service: the spare is used, the part retired. -/
def State.ledgerSwap (s : State) (kind : Nat) : State :=
  (s.ledgerMove kind F.REL_LEDGER_SPARE_COUNT F.REL_LEDGER_USED_COUNT 1).addF (F.REL_LEDGER_RETIRED_COUNT kind) 1

/-! ## Ports idle (R261) -/

/-- A port reset: electrically idle, nothing held. -/
def State.resetPort (s : State) (p : Nat) : State :=
  let s := { s with fab.ports := storeSet (fun _ => Port.fresh) s.fab.ports p Port.fresh }
  let s := (s.putF (F.LNK_PORT_STATUS_LANES p) 0).putF (F.LNK_PORT_LANES_MASK p) 0
  if s.getF (F.LNK_PORT_STATUS_STATE p) = 3 then s else s.putF (F.LNK_PORT_STATUS_STATE p) 0

/-- Every port held electrically idle. -/
def State.portsIdle (s : State) : State :=
  { (List.range 32).foldl State.resetPort s with fab.waiting := [], fab.inbox := [] }

/-! ## Declarations (R27, R48, R297, R298) -/

/-- DEVICE_DEGRADED declared: the profile shows it before the event. -/
def State.degrade (s : State) (source : Nat) : State :=
  (s.putF F.GLB_PROFILE_DEGRADED 1).log Code.DEVICE_DEGRADED source none 0 0

/-- What a load that ends leaves: DONE, LAST_CODE, the place of a failure, and source 2 (R40, R416). -/
def State.loadReport (s : State) (code : Nat) (fail : Option (Nat × At)) : State :=
  let s := (s.putF F.SIL_STATUS_DONE 1).putF F.SIL_STATUS_LAST_CODE code
  let s := match fail with
    | none => s.setReg R.SIL_FAIL_DETAIL 0
    | some (check, at_) =>
      ((s.putF F.SIL_FAIL_DETAIL_CHECK check).putF F.SIL_FAIL_DETAIL_SECTION at_.1).putF F.SIL_FAIL_DETAIL_ENTRY at_.2
  s.raise 2

/-- The load in progress ends: the loader is IDLE and the image leaves no trace (R40). -/
def State.endLoad (s : State) (code : Nat) (fail : Option (Nat × At)) : State :=
  ({ s with img.image := [] }.putF F.SIL_STATUS_STATE 0 |>.loadReport code fail).settleHold

/-- No image in force: no core has a logical number, and no context, partition or route is laid out (R28, R59). -/
def State.noImage (s : State) : State :=
  let s := (List.range 1088).foldl (fun s p => s.putF (F.JOB_CORE_STATUS_LOGICAL p) 0x7FF) s
  (({ s with img.sections := [], img.header := [] }.putF F.SIL_STATUS_IMAGE_VALID 0).putF F.LNK_DEVICE_ID_ID 0xFFFFF).showFree

/-- DEVICE_RETIRE (R298, R49): FAULTED, ports idle, no image in force, and the loader refuses every load. -/
def State.retireDevice (s : State) (source : Nat) : State :=
  if s.getF F.GLB_PROFILE_RETIRE = 1 then s
  else
    let s := (s.putF F.GLB_PROFILE_RETIRE 1).log Code.DEVICE_RETIRE source none 0 0
    let s := ((s.deviceFault Code.DEVICE_RETIRE).portsIdle).noImage
    if s.getF F.SIL_STATUS_STATE = 0 then (s.putF F.SIL_STATUS_LAST_CODE Code.DEVICE_RETIRE).settleHold
    else s.endLoad Code.DEVICE_RETIRE (some (0, noSection))

/-- The image in force no longer fits (R31): PROFILE_EXCEEDED, and the withdrawal of R48 at the next full Lull. -/
def State.checkFit (s : State) : State :=
  if s.imageValid && !s.check7 ⟨s.img.sections, []⟩ then
    { s.putF F.SIL_STATUS_PROFILE_EXCEEDED 1 with rel.withdraw := true }.settleHold
  else s

/-- A core must be retired and no spare is left (R48). -/
def State.shrinkProfile (s : State) (source : Nat) : State :=
  let s := (s.addF (F.REL_LEDGER_RETIRED_COUNT 0) 1).log Code.SPARE_EXHAUSTED source none 0 0
  let n := s.getF F.GLB_PROFILE_ACTIVE_CORES
  if n < 896 + 16 then s.retireDevice source
  else
    let s := ((s.putF F.GLB_PROFILE_ACTIVE_CORES (n - 16)).putF (F.REL_LEDGER_SPARE_COUNT 0)
      (s.getF (F.REL_LEDGER_SPARE_COUNT 0) + 15)).putF (F.REL_LEDGER_IN_SERVICE_COUNT 0) (n - 16)
    (s.degrade source).checkFit

/-! ## Step replay (R296) -/

/-- A step discarded and to be restarted, or left DISCARDED for the recovery service. -/
def State.replayStep (s : State) (uid source : Nat) : State :=
  match s.jobOf uid with
  | none => s
  | some j =>
    match j.step with
    | none => s
    | some st =>
      let s := s.logFull Code.STEP_REPLAY source (some j.ctx) st.boundGroup (st.number % 2 ^ 32) (st.number / 2 ^ 32)
      let s := s.discardStep uid .discarded
      let s := match s.jobOf uid with
        | some j => s.setJob { j with replayNext := true }
        | none => s
      if st.boundGroup && s.ctxState j.ctx = 1 then s.putF (F.JOB_CTX_STATE_STATE j.ctx) 4 else s

/-! ## Core failure (R146, R295, R296) -/

/-- Spare cores of the image that are free of steps and healthy, in the order R47 tries them: the die's own by index, then the
lowest-numbered die's. -/
def State.sparesFor (s : State) (p : Nat) : List Nat :=
  let die := p / 272
  let free := (List.range 1088).filter fun q =>
    coreState (s.section 3 0) q == 1 && !s.rel.coresGone.contains q && !(s.core q).failed && !s.pwr.dead.contains q &&
      !s.rel.chosen.any (fun c => c.2 == q && c.1 != p) &&
      !s.job.jobs.any fun j => match j.step with | some st => st.phys.contains q | none => false
  free.filter (· / 272 == die) ++ free.filter (· / 272 != die)

/-- May a core's program be replayed on a spare within the step (R146)? -/
def State.replayableOn (s : State) (p : Nat) : Bool :=
  match (s.core p).prog with
  | some g => g.replayable && !g.communicated && !(s.core p).haloHit && !g.retired
  | none => false

/-- A core's program started from instruction 0 on a spare, same SEED and rank. -/
def State.moveProgram (s : State) (uid p q : Nat) (g : Program) : State :=
  let l := s.getF (F.JOB_CORE_STATUS_LOGICAL p)
  let s := s.mapStep uid fun st => { st with phys := st.phys.map fun x => if x == p then q else x }
  let s := s.releaseCore p
  { s with rel.chosen := s.rel.chosen ++ [(p, q)] }.powerOn q 1 |>.startCore q l { g with named := [], arrived := [], retired := false }

/-- A core retired while no patch can move it: the ledger alone records it (R47, R48). -/
def State.retireUnmapped (s : State) (p source : Nat) : State :=
  let s := { s with rel.coresGone := s.rel.coresGone ++ [p] }
  let s := if s.getF (F.REL_LEDGER_SPARE_COUNT 0) = 0 then s.shrinkProfile source
    else s.ledgerMove 0 F.REL_LEDGER_SPARE_COUNT F.REL_LEDGER_RETIRED_COUNT 1
  s.log Code.CORE_RETIRED source none source (0x7FF + 0x7FF * 2048)

/-- A physical core has failed (R295). -/
def State.coreFailed (s : State) (p : Nat) : State :=
  if (s.core p).failed || s.rel.coresGone.contains p then s
  else
    let source := unitId 0xE p
    let l := s.getF (F.JOB_CORE_STATUS_LOGICAL p)
    let spare := (s.sparesFor p).headD 0x7FF
    let job := s.job.jobs.find? fun j => match j.step with | some st => st.phys.contains p | none => false
    let ctx := job.map (·.ctx)
    let s := (s.log Code.CORE_FAILED source ctx source (l + spare * 2048)).raise (208 + p / 272)
    let s := s.setCore p { s.core p with failed := true }
    let s := if s.imageValid then
        (if s.rel.retire.contains p then s else { s with rel.retire := s.rel.retire ++ [p] })
      else s.retireUnmapped p source
    let s := s.settleHold.showFree
    match job with
    | none => s
    | some j =>
      match (s.core p).prog with
      | some g =>
        if s.replayableOn p && spare ≠ 0x7FF && j.phase == .running then (s.moveProgram j.uid p spare g).setIsland p 0
        else s.replayStep j.uid source
      | none => s.replayStep j.uid source

/-! ## Islands that fail (Table REL-6) -/

/-- The flash controller is gone: capacity 0, every tier-3 object LOST. -/
def State.flashGone (s : State) : State :=
  { s.putF F.MEM_FLASH_CAPACITY_GIB 0 with
    tier.objs := s.tier.objs.map fun (o : TierObj) => if o.tier == 3 then { o with resid := .lost } else o }

/-- A port taken out of service. -/
def State.retirePort (s : State) (p source : Nat) : State :=
  if s.getF (F.LNK_PORT_STATUS_STATE p) = 3 then s
  else
    let s := (s.resetPort p).putF (F.LNK_PORT_STATUS_STATE p) 3
    ((s.putF F.GLB_RESOURCES_ACTIVE_PORTS (s.getF F.GLB_RESOURCES_ACTIVE_PORTS - 1)).degrade source).checkFit

/-- A video or ingest engine has failed: VID_ENGINE shows it, and without a spare of its kind there is one engine fewer (R319). -/
def State.engineGone (s : State) (e : Nat) : State :=
  let s := { s with vid.failed := if s.vid.failed.contains e then s.vid.failed else s.vid.failed ++ [e] }
  let s := s.showEngines.engineStops e
  let inService (lo hi : Nat) : Nat := ((List.range 16).filter fun x => lo ≤ x && x < hi && !s.vid.failed.contains x).length
  if e < 9 then
    let n := min 8 (inService 0 9)
    if n < s.getF F.GLB_RESOURCES_ACTIVE_DECODE then
      (((s.log Code.SPARE_EXHAUSTED (unitId 5 e) none 0 0).putF F.GLB_RESOURCES_ACTIVE_DECODE n).degrade (unitId 5 e)).checkFit
    else (s.log Code.SPARE_SWAP (unitId 5 e) none 0 0).ledgerSwap 9
  else if e < 14 then
    let n := min 4 (inService 9 14)
    if n < s.getF F.GLB_RESOURCES_ACTIVE_ENCODE then
      (((s.log Code.SPARE_EXHAUSTED (unitId 5 e) none 0 0).putF F.GLB_RESOURCES_ACTIVE_ENCODE n).degrade (unitId 5 e)).checkFit
    else (s.log Code.SPARE_SWAP (unitId 5 e) none 0 0).ledgerSwap 10
  else s.degrade (unitId 6 (e - 14))

/-- A stack is no longer used (Table REL-6, R207): its pages leave the allocatable count. -/
def State.stackGone (s : State) (st : Nat) : State :=
  let n := s.getF (F.MEM_STACK_PAGES_PAGES st)
  let s := ((s.putF (F.MEM_STACK_STATUS_MODE st) 2).putF (F.MEM_STACK_PAGES_PAGES st) 0).putF F.GLB_HBM_PAGES_ALLOC_PAGES
    (s.getF F.GLB_HBM_PAGES_ALLOC_PAGES - n)
  (s.degrade (unitId 3 st)).checkFit

/-- The unit identifier of an island as a failed part of its kind. -/
def islandSource (i : Nat) : Nat :=
  match islandKind i with
  | 0 => unitId 0xE i
  | 1 => unitId 0xB (i - 1088)
  | 2 => unitId 1 (i - 1152)
  | 3 => unitId 2 (i - 1156)
  | 4 => unitId 3 (i - 1188)
  | 5 => unitId 4 (i - 1196)
  | 6 => unitId 5 (i - 1200)
  | 7 => unitId 6 (i - 1214)
  | 8 => unitId 7 0
  | _ => if i = 1217 then unitId 0xA 0 else if i = 1218 then unitId 0xA 1 else unitId 0xA 3

/-- An island counts as a failed part of its kind (Table REL-6). -/
def State.islandFailed (s : State) (i : Nat) : State :=
  let s := { s with pwr.dead := if s.pwr.dead.contains i then s.pwr.dead else s.pwr.dead ++ [i] }.setIsland i 0
  let src := islandSource i
  match islandKind i with
  | 0 => s.coreFailed i
  | 1 | 2 => s.retireDevice src
  | 3 => s.retirePort (i - 1156) src
  | 4 => s.stackGone (i - 1188)
  | 5 => s.degrade src
  | 6 => s.engineGone (i - 1200)
  | 7 => s.engineGone (i - 1200)
  | 8 => s.flashGone.degrade src
  | _ => if i = 1219 then (if s.rel.onB then s.retireDevice src else s) else s.retireDevice src

end Sys2Proof.Machine
end

