-- ==== Sys2Proof/Machine/LinkOps.lean ====
section
/-! DEFINITION. Operations of the ports and the router (R247 to R262): routing, the wire and Squall, acknowledgement, training. -/

namespace Sys2Proof.Machine

open Sys2Proof

/-! ## Ports -/

def State.port (s : State) (p : Nat) : Port := storeGet (fun _ => Port.fresh) s.fab.ports p

def State.setPort (s : State) (p : Nat) (x : Port) : State :=
  { s with fab.ports := storeSet (fun _ => Port.fresh) s.fab.ports p x }

/-- The die of a port: 6n to 6n + 5 and 24 + 2n, 25 + 2n lie on Qn. -/
def portDie (p : Nat) : Nat := if p < 24 then p / 6 else (p - 24) / 2

/-- Flits a frame takes (R249). -/
def frameFlits (f : Frame) : Nat := (32 + f.payload.length + 59) / 60

/-! ## Routing (R254, R257) -/

/-- What the router does with a frame. -/
inductive Route where
  | here
  | port (p : Nat)
  | wait
  | drop
  /-- An unassigned module forwards nothing (R257 step 2). -/
  | ignore
  deriving DecidableEq, Repr

/-- Flits queued at a port for a class and virtual channel. -/
def State.queueFlits (s : State) (p cls vc : Nat) : Nat :=
  ((s.port p).queue.filter fun c => c.frame.cls == cls && c.frame.vc == vc).foldl (fun a c => a + frameFlits c.frame) 0

def State.chooseRoute (s : State) (c : Carried) : Route :=
  let f := c.frame
  let e := s.routeEntry (c.inPort.getD (6 * c.die)) f.dst
  if s.deviceId = 0xFFFFF then (if f.cls = 3 && f.dst = 0xFFFFF then .here else if c.inPort.isSome then .ignore else .drop)
  else if (c.inPort.isSome && f.hops = 0) || !bit e 15 || (bit e 11 && f.dst ≠ s.deviceId) then .drop
  else if bit e 11 then .here
  else
    let a := bits e 4 0
    let b := bits e 9 5
    let alt := bit e 10
    let busy := (f.cls == 1 || f.cls == 2) && alt && s.portUp b &&
      s.getF F.LNK_ADAPT_THRESHOLD_FLITS < s.queueFlits a f.cls f.vc && s.queueFlits b f.cls f.vc < s.queueFlits a f.cls f.vc
    if s.portUp a then .port (if busy then b else a) else if alt && s.portUp b then .port b else .wait

/-- The context a frame is for: SYNC and REDUCE frames name it (Table COL-3), the others carry the source's (Table LNK-4). -/
def frameCtx (f : Frame) : Nat := if f.typ = 3 || f.typ = 4 then f.fields % 256 else f.ctx

/-- A frame delivered to this module: a DISCARDED context drops and counts it (R60, R308). -/
def State.deliver (s : State) (f : Frame) : State :=
  if s.ctxState (frameCtx f) = 4 && f.cls ≠ 3 && f.cls ≠ 2 then
    { s.addF F.REL_REPLAY_DROPPED_COUNT 1 with
      rel.resuming := if s.rel.resuming.contains (frameCtx f) then s.rel.resuming.erase (frameCtx f) ++ [frameCtx f] else s.rel.resuming }
  else { s with fab.inbox := s.fab.inbox ++ [f] }

/-- ROUTE_INVALID (R257 step 5). -/
def State.dropFrame (s : State) (c : Carried) : State :=
  (s.addF F.LNK_ROUTE_DROPS_COUNT 1).log Code.ROUTE_INVALID
    (match c.inPort with | some p => unitId 2 p | none => unitId 1 c.die) (some c.frame.ctx) 0 0

/-- A port in low power returns to UP on its stored lane settings (R348). -/
def State.wakePort (s : State) (p : Nat) : State :=
  if s.portState p ≠ 5 then s
  else
    let s := s.setPort p { s.port p with lp := 0 }
    (s.putF (F.LNK_PORT_STATUS_STATE p) 2).setIsland (1156 + p) 1

/-- A frame put where the router sends it; `again`: it has been counted as waiting before. -/
def State.route (again : Bool) (s : State) (c : Carried) : State :=
  match s.chooseRoute c with
  | .here => s.deliver c.frame
  | .port p =>
    let s := s.setPort p { s.port p with queue := (s.port p).queue ++ [c] }
    if s.portState p = 5 then (s.emit (.wakePattern p)).wakePort p else s
  | .wait =>
    let s := { s with fab.waiting := s.fab.waiting ++ [c] }
    if again || c.inPort.isSome then s else s.addF F.LNK_PEER_UNREACHABLE_COUNT 1
  | .drop => s.dropFrame c
  | .ignore => s

/-- Frames that wait for a port are looked up again (R257 step 6). -/
def State.rerouteWaiting (s : State) : State :=
  s.fab.waiting.foldl (State.route true) { s with fab.waiting := [] }

/-- A frame injected by a unit of a die of this module, for a context. -/
def State.inject (s : State) (die : Nat) (f : Frame) : State :=
  s.route false ⟨{ f with src := s.deviceId, hops := 8, vc := 0 }, none, die, false⟩

/-! ## The wire (R251, R253, R262) -/

/-- Squall's generator: one draw. -/
def squallNext (x : Nat) : Nat :=
  let x := Nat.xor x (x * 2 ^ 13 % 2 ^ 32)
  let x := Nat.xor x (x / 2 ^ 17)
  Nat.xor x (x * 2 ^ 5 % 2 ^ 32)

/-- A frame goes onto the wire of a port: Squall may drop it, corrupt a flit or send it later (R262). -/
def State.transmit (s : State) (p : Nat) (f : Frame) : State :=
  let flush (s : State) : State :=
    let x := s.port p
    let due := x.deferred.filter fun g => g.cls == f.cls
    due.foldl (fun s g => s.emit (.frame p g)) (s.setPort p { x with deferred := x.deferred.filter fun g => g.cls != f.cls })
  if s.getF (F.DBG_SQ_CONTROL_ENABLE p) = 1 && bit (s.getF (F.DBG_SQ_CONTROL_CLASS_MASK p)) f.cls then
    let a := squallNext (s.port p).squall
    let b := squallNext a
    let c := squallNext b
    let s := s.setPort p { s.port p with squall := c }
    if a < s.getF (F.DBG_SQ_DROP_THRESHOLD p) then (flush s).addF (F.DBG_SQ_INJECTED_COUNT p) 1
    else if b < s.getF (F.DBG_SQ_CORRUPT_THRESHOLD p) then (flush (s.emit (.badFrame p f))).addF (F.DBG_SQ_INJECTED_COUNT p) 1
    else if c < s.getF (F.DBG_SQ_REORDER_THRESHOLD p) then
      let s := flush s
      (s.setPort p { s.port p with deferred := (s.port p).deferred ++ [f] }).addF (F.DBG_SQ_INJECTED_COUNT p) 1
    else flush (s.emit (.frame p f))
  else flush (s.emit (.frame p f))

/-- The frame of a carried frame as it leaves on a port: hops, virtual channel and sequence number (R251, R254, R257). -/
def State.outFrame (s : State) (p : Nat) (c : Carried) (seq : Nat) : Frame :=
  let global := bit (leAt (s.section 1 0) 0x14 4) p
  { c.frame with seq := seq, hops := c.frame.hops - 1, vc := if c.frame.vc = 1 || global then 1 else 0 }

/-- Retransmission of frames of the replay buffer. -/
def State.resend (s : State) (p : Nat) (cs : List Carried) : State :=
  cs.foldl (fun s c => (s.transmit p (s.outFrame p c c.frame.seq)).addF (F.LNK_PORT_RETX_COUNT p) 1) s

/-- A carried frame as it was before its first transmission: its class restored. -/
def Carried.undemoted (c : Carried) : Carried :=
  if bit c.frame.flags 2 then { c with frame := { c.frame with cls := 0, flags := putBits c.frame.flags 2 2 0 } } else c

/-- The frames a port holds looked up again and sent on. -/
def State.rerouteReplay (s : State) (p : Nat) : State :=
  let cs := (s.port p).replay
  (cs.map Carried.undemoted).foldl (State.route true) (s.setPort p { s.port p with replay := [] })

/-- The frames queued at a port looked up again. -/
def State.rerouteQueue (s : State) (p : Nat) : State :=
  let cs := (s.port p).queue
  (cs.map Carried.undemoted).foldl (State.route true) (s.setPort p { s.port p with queue := [] })

/-- Bytes of the replay buffer in use. -/
def replayBytes (x : Port) : Nat := x.replay.foldl (fun a c => a + 64 * frameFlits c.frame) 0

/-! ## Port states (R247, R260) -/

/-- A port leaves UP for a state; the frames of its queue are looked up again. -/
def State.portLeaves (s : State) (p st : Nat) : State :=
  let s := (s.putF (F.LNK_PORT_STATUS_STATE p) st).putF (F.LNK_PORT_STATUS_LANES p) 0
  let s := s.setPort p { s.port p with gotWord := false, wordBad := false, timeouts := 0, holdFrames := false, swap := none, lp := 0 }
  s.rerouteQueue p

/-- LINK_DOWN (R260). -/
def State.linkDown (s : State) (p : Nat) : State :=
  let lanes := s.getF (F.LNK_PORT_STATUS_LANES p)
  let s := s.portLeaves p 0
  ((s.addF (F.LNK_PORT_DOWN_COUNT_DOWNS p) 1).log Code.LINK_DOWN (unitId 2 p) none p lanes).raise 5

/-- The capability word this port sends (Table LNK-2). -/
def State.capWord (s : State) (p : Nat) : Nat :=
  s.lanesLeft p + 7 * 2 ^ 5 + 3 * 2 ^ 8 + 1 * 2 ^ 14 + 3 * 2 ^ 18 +
    s.getF (F.LNK_RED_STATUS_IN_SERVICE (portDie p)) * 2 ^ 20 + 2 ^ 21 + (if (s.port p).wasReset then 2 ^ 22 else 0) +
    s.deviceId * 2 ^ 32

/-- Training begins: the capability word goes out. -/
def State.beginTraining (s : State) (p : Nat) : State :=
  let w := s.capWord p
  let s := (s.putF (F.LNK_PORT_STATUS_STATE p) 1).putP (P.LNK_PORT_CAP_SENT p) w
  (s.setPort p { s.port p with gotWord := false, wordBad := false }).emit (.capability p (BitVec.ofNat 64 w))

/-- May a port's transmitter work: powered, not retired, not held down? -/
def State.portFree (s : State) (p : Nat) : Bool :=
  s.portState p != 3 && s.getF (F.LNK_PORT_CONTROL_DISABLE p) == 0 && s.getF (F.DBG_SQ_CONTROL_HOLD_DOWN p) == 0 &&
    2 ≤ s.devState && s.devState ≤ 4

/-- A port held electrically idle (DISABLE, HOLD_DOWN), or released to train again. -/
def State.holdPort (s : State) (p : Nat) : State :=
  if s.portState p = 3 then s
  else if s.getF (F.LNK_PORT_CONTROL_DISABLE p) = 1 || s.getF (F.DBG_SQ_CONTROL_HOLD_DOWN p) = 1 then
    (if s.portState p = 4 then s else s.portLeaves p 4)
  else if s.portState p = 4 then
    let s := s.putF (F.LNK_PORT_STATUS_STATE p) 0
    if s.portFree p then s.beginTraining p else s
  else s

/-! ## Lanes (R258, R259) -/

/-- The lowest-numbered spare lane of a port: not in use and not failed. -/
def State.spareLane (s : State) (p : Nat) : Option Nat :=
  (List.range 18).find? fun l => !(s.port p).laneMap.contains l && !bit (s.getF (F.LNK_PORT_LANES_FAILED_MASK p)) l

def State.showLanes (s : State) (p : Nat) : State :=
  let m := ((s.port p).laneMap.take (s.getF (F.LNK_PORT_STATUS_LANES p))).foldl (fun a l => Nat.lor a (2 ^ l)) 0
  let spares := ((List.range 18).filter fun l => !(s.port p).laneMap.contains l && !bit (s.getF (F.LNK_PORT_LANES_FAILED_MASK p)) l).length
  (s.putF (F.LNK_PORT_LANES_MASK p) m).putF (F.LNK_PORT_STATUS_SPARES_LEFT p) spares

/-- A physical lane retired. -/
def State.failLane (s : State) (p lane : Nat) : State :=
  s.putF (F.LNK_PORT_LANES_FAILED_MASK p) (Nat.lor (s.getF (F.LNK_PORT_LANES_FAILED_MASK p)) (2 ^ lane))

/-- A lane of a port is degraded or has lost lock: its spare is trained, or with none left the port retrains with fewer lanes. -/
def State.loseLane (s : State) (p lane : Nat) (holds : Bool) : State :=
  let x := s.port p
  match s.spareLane p with
  | some sp => s.setPort p { x with swap := some (lane, sp), holdFrames := x.holdFrames || holds }
  | none =>
    let phys := x.laneMap.getD lane 0
    let s := (s.failLane p phys).setPort p { x with laneMap := x.laneMap.filter (· != phys) }
    let s := (s.portLeaves p 1).beginTraining p
    s.checkFit

end Sys2Proof.Machine
end

