-- ==== Sys2Proof/Machine/BankOps.lean ====
section
/-! DEFINITION. Banking operations (R300 to R306): the stripe set, rows and holders, the banking messages, and the start of a
rebuild. -/

namespace Sys2Proof.Machine

open Sys2Proof

/-! ## Frames of this module -/

/-- A frame of one message injected by a die of this module: its TAG is the next, MSG_LAST set. -/
def State.send (s : State) (die cls dst typ ctx addr fields : Nat) (payload : List Byte) : State :=
  { s with fab.tag := (s.fab.tag + 1) % 2 ^ 32 }.inject die
    ⟨cls, 0, dst, s.deviceId, typ, 0, 8, ctx, addr, s.fab.tag, 1, fields, payload⟩

/-! ## The stripe set (R300, R301) -/

/-- Bytes of a piece of a unit (BANK_PIECE). -/
def State.bankPiece (s : State) : Nat := 1024 / 2 ^ leAt s.stripeSet 6 1

/-- Positions of the other members. -/
def State.stripePeers (s : State) : List Nat :=
  if s.stripeIds.isEmpty then [] else (List.range 9).filter (· != s.stripePos)

/-- State code of the set: 0 NONE, 1 FORMING, 2 FORMED, 3 REBUILDING. -/
def State.stripeState (s : State) : Nat := s.getF F.REL_STRIPE_STATUS_STATE

/-- HBM pages of the BANKED partitions, in ascending partition index (R301). -/
def State.bankedPages (s : State) : List Nat :=
  (s.partitions.filter (·.banked)).flatMap fun p => (List.range p.count).map (· + p.first)

/-- Banked units of this module. -/
def State.bankedUnits (s : State) : Nat := s.bankedPages.length * 512

/-- Device memory address of banked unit `j`. -/
def State.bankedAddr (s : State) (j : Nat) : Nat := s.bankedPages.getD (j / 512) 0 * pageBytes + j % 512 * 4096

/-- The banked unit at a 4 KiB unit of HBM. -/
def State.bankedIndex (s : State) (u : Nat) : Option Nat :=
  (s.bankedPages.findIdx? (· == u / 512)).map fun i => i * 512 + u % 512

/-- The row of unit `j` of the member at position `p`. -/
def rowOf (p j : Nat) : Nat := 9 * (j / 8) + (if j % 8 < p then j % 8 else j % 8 + 1)

/-- The unit of the member at position `p` in a row; none where it holds the row's parity. -/
def unitOfRow (p r : Nat) : Option Nat :=
  let k := r % 9
  if k = p then none else some (8 * (r / 9) + (if k < p then k else k - 1))

/-- Device memory address of a row's parity, where this module is its holder. -/
def State.parityAddr (s : State) (r : Nat) : Option Nat :=
  (s.partitions.find? (·.parity)).map fun p => p.first * pageBytes + r / 9 * 4096

def xorBytes (a b : List Byte) : List Byte := (a.zip b).map fun (x, y) => x ^^^ y

/-! ## Contents (R302, R306) -/

/-- Does a 4 KiB unit hold what the model keeps as records, or ciphertext: the descriptor table, the object table, a tagged page? Its
bytes on the wire are free (log entry 85). -/
def State.unitOpaque (s : State) (u : Nat) : Bool :=
  let page := u * 4096 / pageBytes
  storeGet (fun _ => 511) s.mem.tags page != 511 ||
    match s.partitionOfPage page with
    | some (i, p) =>
      (s.getF F.MEM_KV_CONFIG_ENABLE == 1 && i == s.getF F.MEM_KV_CONFIG_PARTITION &&
          u * 4096 < p.first * pageBytes + 2 ^ s.getF F.MEM_KV_CONFIG_LOG2_DESC * 32) ||
        (s.getF F.MEM_TIER_CONFIG_ENABLE == 1 && i == s.getF F.MEM_TIER_CONFIG_PARTITION &&
          u * 4096 < p.first * pageBytes + 2 ^ s.getF F.MEM_TIER_CONFIG_LOG2_OBJ * 32)
    | none => false

/-- The 4,096 bytes of a unit whose listed bytes are given. -/
def unitOf (st : Store Byte) (u : Nat) : List Byte := storeGetRun zeroByte st (u * 4096) 4096

/-- The banked value of a unit (R306). -/
def State.bankedValue (s : State) (u : Nat) : List Byte :=
  match s.rel.loose.find? (·.1 == u) with
  | some x => unitOf x.2 u
  | none => match s.stepOld u with
    | some old => unitOf old u
    | none => s.hbm (u * 4096) 4096

/-- Bytes of a unit as they go on the wire. -/
def State.wireBytes (s : State) (u : Nat) (bytes : List Byte) : List Byte × State :=
  if s.unitOpaque u then s.freeBytes 4096 else (bytes, s)

/-- A row's parity on this module, its holder, XORed with a unit (R302). -/
def State.xorParity (s : State) (row : Nat) (bytes : List Byte) : State :=
  match s.parityAddr row with
  | some a => s.setHbm a (xorBytes (s.hbm a 4096) bytes)
  | none => s

/-! ## Messages (Table REL-8) -/

/-- A banking message to the member at a position; `poison`: its data carries poison. -/
def State.bankFrame (s : State) (poison : Bool) (dest op step unit : Nat) (data : List Byte) : State :=
  { s with fab.tag := (s.fab.tag + 1) % 2 ^ 32 }.inject 0
    ⟨2, 0, s.stripeIds.getD dest 0, s.deviceId, 5, 0, 8, 0, 0, s.fab.tag, if poison then 3 else 1, 0,
      leBytes 1 op ++ leBytes 1 s.stripePos ++ leBytes 6 step ++ leBytes 4 s.stripeId ++ leBytes 4 unit ++ data⟩

/-- A banking message without poison. -/
def State.bankSend (s : State) (dest op step unit : Nat) (data : List Byte) : State := s.bankFrame false dest op step unit data

/-- A unit's bytes sent piece by piece. -/
def State.bankPieces (s : State) (poison : Bool) (dest op step row : Nat) (bytes : List Byte) : State :=
  let n := s.bankPiece
  (List.range (4096 / n)).foldl
    (fun s i => s.bankFrame poison dest op step (row + i * 2 ^ 25) ((bytes.drop (i * n)).take n)) s

/-! ## Rebuild (R306, R309) -/

/-- The step of the last phase applied, or pending, in the context that banks (REL_CTX_BANK_STEP). -/
def State.lastBanked (s : State) : Nat :=
  match (List.range 256).find? fun c => s.getP (P.REL_CTX_BANK_GROUP c) != 0 with
  | some c => s.getP (P.REL_CTX_BANK_STEP c)
  | none => 0

/-- The rebuild stops: FAILED, logged; the set stays REBUILDING (R309). -/
def State.rebuildFailed (s : State) : State :=
  let s := (s.putF F.REL_REBUILD_STATUS_STATE 3).putF F.REL_REBUILD_STATUS_LAST_CODE Code.REBUILD_FAILED
  s.log Code.REBUILD_FAILED (unitId 1 0) none (s.lastBanked % 2 ^ 32) (s.lastBanked / 2 ^ 32)

/-- Is a peer of the set out of reach? -/
def State.peerAbsent (s : State) : Bool := s.stripePeers.any fun p => !s.reaches (s.stripeIds.getD p 0)

/-- The standby's rebuild starts (R306 step 1); it fails at once where a second member is absent. -/
def State.rebuildStart (s : State) : State :=
  let s := ((s.putF F.REL_STRIPE_STATUS_STATE 3).putF F.REL_REBUILD_STATUS_STATE 1).putF F.REL_REBUILD_STATUS_LAST_CODE 0
  let s := { s.putP P.REL_REBUILD_BYTES 0 with rel.rowsIn := [], rel.rowsDone := 0, rel.ended := [] }
  if s.peerAbsent then s.rebuildFailed else s.stripePeers.foldl (fun s p => s.bankSend p 5 0 0 []) s

/-- The stripe set returns to NONE (R59, R300). -/
def State.stripeNone (s : State) : State :=
  { s with rel.deltas := [], rel.joined := [], rel.formStaged := [], rel.formIn := [], rel.formed := [], rel.phases := [],
           rel.rowsIn := [], rel.rowsDone := 0, rel.ended := [], rel.repairs := [], rel.loose := [] }.setReg R.REL_STRIPE_STATUS 0

end Sys2Proof.Machine
end

