-- ==== Sys2Proof/Machine/Poison.lean ====
section
/-! DEFINITION. What follows an uncorrectable error or a reader's meeting with poison (R199, R215, R243, R304, Table MEM-6). -/

namespace Sys2Proof.Machine

open Sys2Proof

/-- A job fault that no instruction of a job raises: the context's oldest job takes the code; with no job the context is torn down
with it (R61; log entry 37). -/
def State.ctxFault (s : State) (ctx code : Nat) : State :=
  if s.ctxState ctx = 0 || s.ctxState ctx = 3 then s
  else
    match s.job.jobs.find? (·.ctx == ctx) with
    | some j => s.jobFault j.uid code 0 0 0
    | none =>
      (s.setCtx ctx { s.ctx ctx with fault := code, detail := detailWord code 0 0 0 }).putF (F.JOB_CTX_STATE_STATE ctx) 3
        |>.refuseFetches ctx Code.CONTEXT_TORN_DOWN

/-- The context that owns an HBM page as a tier-2 allocation or a resident copy. -/
def State.pageOwner (s : State) (page : Nat) : Option Nat :=
  (s.tier.objs.find? fun o => o.tier == 2 && o.first ≤ page && page < o.first + o.units).map (·.owner)

/-- A banked unit is damaged: its row is asked of the peers (R304); the request is a REBUILD_DATA header without data, for the
manual names no other message (log entry 38). -/
def State.requestUnit (s : State) (u : Nat) : State :=
  match s.bankedIndex u with
  | none => s
  | some j =>
    if s.rel.repairs.contains u then s
    else
      let r := rowOf s.stripePos j
      let s := { s with rel.repairs := s.rel.repairs ++ [u], rel.rowsIn := s.rel.rowsIn.filter (·.row != r) }
      s.stripePeers.foldl (fun s p => s.bankSend p 6 0 r []) s

/-- The page units' page whose contents or summary hold an address. -/
def State.kvPageAt (s : State) (addr : Nat) : Option Nat :=
  (s.kv.pages.find? fun e => e.2.state != 0 &&
    ((e.2.address ≤ addr && addr < e.2.address + kvPageBytes e.2.format) ||
      (e.2.summary ≤ addr + 63 && addr < e.2.summary + 264))).map (·.1)

/-- A damaged page of the KV partition (R199). -/
def State.kvDamage (s : State) (addr : Nat) (banked : Bool) : State :=
  match s.kvPageAt addr with
  | none => s
  | some i =>
    let p := s.kvPage i
    if banked then (s.setKvPage i { p with state := 4 }).requestUnit (addr / 4096)
    else (s.setKvPage i { p with state := 5 }).addF F.MEM_KV_LOST_COUNT 1

/-- Is a partition's data banked now? -/
def State.bankedNow (s : State) (p : Partition) : Bool := p.banked && s.stripeState == 2

/-- Save-area slot of an HBM address: the logical core it belongs to (R68; log entry 39). -/
def State.saveSlot (s : State) (addr : Nat) : Option Nat :=
  let top := leAt (s.section 1 0) 0x0C 4
  let page := addr / pageBytes
  if s.imageValid && top - 640 ≤ page && page < top then some ((addr - (top - 640) * pageBytes) / 1310720) else none

/-- The steps whose saved cores lie in a slot are discarded (Table MEM-6). -/
def State.saveDamage (s : State) (l : Nat) : State :=
  (s.job.jobs.filter fun j => j.phase == .preempted && match j.step with
    | some st => st.cores.contains l && (s.core (s.physOf l)).takenFrom == some j.uid
    | none => false).foldl (fun s j => s.replayStep j.uid (unitId 0xF 0)) s

/-- The outcome of poison at an address by the partition it lies in, before any reader meets it (Table MEM-6). -/
def State.poisonFound (s : State) (addr : Nat) : State :=
  match s.saveSlot addr with
  | some l => s.saveDamage l
  | none =>
    match s.partitionOfPage (addr / pageBytes) with
    | none => s
    | some (i, p) =>
      if p.sharedWeights then s
      else if s.getF F.MEM_KV_CONFIG_ENABLE = 1 && i = s.getF F.MEM_KV_CONFIG_PARTITION then s.kvDamage addr (s.bankedNow p)
      else if s.bankedNow p then s.requestUnit (addr / 4096)
      else if p.persistent then
        match s.pageOwner (addr / pageBytes) with
        | some c => s.ctxFault c Code.REGION_LOST
        | none => s
      else s

/-- A reader counted once as stalled (R215). -/
def State.countStall (s : State) (cmd : Instr) : State :=
  if s.mem.counted.contains cmd then s
  else { s with mem.counted := s.mem.counted ++ [cmd] }.addF F.MEM_POISON_STALLS_COUNT 1

/-- A job's instruction meets a poisoned unit: it stalls, and the unit's partition decides (Table MEM-6). -/
def State.poisonRead (s : State) (cmd : Instr) (uid source addr : Nat) : State :=
  let s := s.countStall cmd
  match s.partitionOfPage (addr / pageBytes) with
  | none => s.replayStep uid source
  | some (i, p) =>
    let kv := s.getF F.MEM_KV_CONFIG_ENABLE == 1 && i == s.getF F.MEM_KV_CONFIG_PARTITION
    if p.sharedWeights || kv || s.bankedNow p then s.poisonFound addr |>.hold cmd
    else if !p.persistent then s.replayStep uid source
    else
      match s.pageOwner (addr / pageBytes), s.jobOf uid with
      | some c, _ => s.ctxFault c Code.REGION_LOST
      | none, some j => s.ctxFault j.ctx Code.REGION_LOST
      | none, none => s

/-- An uncorrectable error of HBM (R215): the unit is poisoned, logged and counted, and its outcome follows. -/
def State.hbmError (s : State) (addr pch : Nat) : State :=
  let a := addr / 64 * 64
  let s := (s.poisonUnit (a / 64)).addF F.MEM_ECC_UE_HBM_COUNT 1
  ((s.log Code.ECC_UNCORRECTABLE (unitId 0xC pch) none 1 a).raise 4).poisonFound a

/-- An uncorrectable error of a core's SRAM (R215, R295): the core is treated as failed. -/
def State.sramError (s : State) (p addr : Nat) : State :=
  let s := s.addF F.MEM_ECC_UE_SRAM_COUNT 1
  ((s.log Code.ECC_UNCORRECTABLE (unitId 0xE p) none 0 addr).raise 4).coreFailed p

end Sys2Proof.Machine
end

