-- ==== Sys2Proof/Machine/Tile.lean ====
section
/-! DEFINITION. How a tile instruction issues (R138 to R144): fetch, legality, limits, and what its execution leaves. -/

namespace Sys2Proof.Machine

open Sys2Proof

/-- `n` bytes of an instruction from byte `off`. -/
def fieldOf (enc : BitVec 256) (off n : Nat) : Nat := enc.toNat / 2 ^ (8 * off) % 2 ^ (8 * n)

/-- How an instruction's execution ends. -/
inductive TileRes where
  /-- Complete, or handed to a unit that completes it: the sequencer goes on. -/
  | done (s : State)
  /-- Held at issue, or waiting: nothing has happened, and the instruction is tried again. -/
  | wait
  /-- A job fault: code and resource kind. -/
  | fault (code kind : Nat)
  /-- MAP_FAULT at an address. -/
  | mapFault (va : Nat)
  /-- The job no longer runs on this core, or a stall has been dealt with: nothing more to do. -/
  | stop (s : State)
  deriving DecidableEq, Repr

/-- What a write in context virtual space means to the instruction that makes it; `k` goes on with the state after it. -/
def VWrite.tile (w : VWrite) (k : State → TileRes) : TileRes :=
  match w with
  | .ok t => k t
  | .mapFault va => .mapFault va
  | .undoFull => .fault Code.UNDO_FULL 0
  | .bankBad => .fault Code.BANK_GROUP_BAD 0
  | .port => .fault Code.KV_PORT_FAULT 0
  | .wait => .wait

/-! ## Limits (R144, Table TP-15) -/

/-- Scratchpad bytes the program may use. -/
def Program.scratchLimit (g : Program) : Nat := min g.scratch 1048576

/-- Accumulator bytes the program may use. -/
def Program.accLimit (g : Program) : Nat := min g.accTiles 16 * 16384

/-- Rows of `bytes` at `addr` and `stride`: the end of the highest. -/
def rowsEnd (addr rows bytes stride : Nat) : Nat := if rows = 0 || bytes = 0 then 0 else addr + (rows - 1) * stride + bytes

/-- The lowest kind of a list of (violated, kind); 0 for none. -/
def lowestKind (l : List (Bool × Nat)) : Nat :=
  l.foldl (fun a x => if x.1 && (a == 0 || x.2 < a) then x.2 else a) 0

/-! ## Flags and counts (R92, R113) -/

/-- Flags of an engine set: 0 matrix, 1 vector, 2 special-function. -/
def State.addFlags (s : State) (p engine : Nat) (f : Flags) : State :=
  s.setReg (R.JOB_CORE_FLAGS p) (BitVec.ofNat 32 (Nat.lor (s.reg (R.JOB_CORE_FLAGS p)).toNat (f.toNat * 16 ^ engine)))

/-- Elements saturated and flushed by a core's program. -/
def State.addCounts (s : State) (p sat flushed : Nat) : State :=
  let c := s.core p
  s.setCore p { c with sat := c.sat + sat, flushed := c.flushed + flushed }

/-- A delivery's flags and counts. -/
def State.addDelivered (s : State) (p engine : Nat) (d : Delivered) : State :=
  (s.addFlags p engine d.flags).addCounts p d.sat d.flushed

/-! ## Issue -/

/-- What the sequencer fetched, judged. -/
structure Judged where
  /-- The row of the opcode table the instruction belongs to; 0 for an illegal opcode or operation. -/
  row : Nat
  /-- R141 holds. -/
  legal : Bool
  /-- Lowest resource kind whose limit it breaks; 0 for none. -/
  ovr : Nat
  deriving DecidableEq, Repr

/-- An instruction's execution applied to the state. -/
def State.tileEnd (s : State) (p uid n l : Nat) (cmd : Instr) (r : TileRes) : State :=
  match r with
  | .done t => t.putF (F.JOB_CORE_PROGRAM_NEXT p) (n + 1)
  | .wait => s.hold cmd
  | .fault code kind => s.jobFault uid code n kind l
  | .mapFault va => s.mapFault uid va n l
  | .stop t => t

/-- The instruction at a core's sequencer issues (R138 to R144). `row` is the row of the command; `judge` reads the encoding. -/
def State.issue (s : State) (p : Nat) (enc : BitVec 256) (cmd : Instr) (row : Nat) (judge : Program → Job → Judged)
    (body : Program → Job → TileRes) : Res :=
  whenPart (p < 1088) <|
    match (s.core p).prog with
    | none => .refused .notDue
    | some g =>
      match s.jobOf g.job with
      | none => .refused .notDue
      | some j =>
        let n := s.getF (F.JOB_CORE_PROGRAM_NEXT p)
        let l := s.getF (F.JOB_CORE_STATUS_LOGICAL p)
        if g.retired then .refused .notDue
        else if j.phase = .preempted then .next (s.hold cmd)
        else if j.phase ≠ .running then .refused .notDue
        else if g.count ≤ n then .next (s.jobFault j.uid Code.ILLEGAL_INSTRUCTION g.count 0 l)
        else
          match s.vFetch g.ctx (g.va + 0x40 + 32 * n) 32 with
          | .wait => .next (s.hold cmd)
          | .poison a => .next (s.poisonRead cmd j.uid (unitId 0xE p) a)
          | .ok bs =>
            if leNat bs ≠ enc.toNat then .refused .notDue
            else
              let v := judge g j
              if v.row ≠ 0 && v.row ≠ row then .refused .otherRow
              else if v.row = 0 || !v.legal then .next (s.jobFault j.uid Code.ILLEGAL_INSTRUCTION n 0 l)
              else if v.ovr ≠ 0 then .next (s.jobFault j.uid Code.RESOURCE_OVERFLOW n v.ovr l)
              else .next (s.tileEnd p j.uid n l cmd (body g j))
          | _ => .next (s.jobFault j.uid Code.BAD_PROGRAM n 0 l)

end Sys2Proof.Machine
end

