-- ==== Sys2Proof/Machine/Operands.lean ====
section
/-! DEFINITION. What the tile instructions share: strided operands and their limits (R144), hazards against pending checks and
collectives (R76, R124, R139), rows read and delivered (R103 to R113), and ports met by LOAD and STORE (R184, R227, R315). -/

namespace Sys2Proof.Machine

open Sys2Proof

/-! ## Strided operands -/

/-- Rows of an operand in the scratchpad or the accumulator file. -/
structure Rows where
  acc : Bool
  addr : Nat
  rows : Nat
  bytes : Nat
  stride : Nat
  deriving DecidableEq, Repr

/-- The end of the highest row. -/
def Rows.stop (r : Rows) : Nat := rowsEnd r.addr r.rows r.bytes r.stride

/-- One run of bytes. -/
def rowOne (acc : Bool) (addr bytes : Nat) : Rows := ⟨acc, addr, 1, bytes, 0⟩

/-- The resource an operand breaks (Table TP-15): kind 1 scratchpad, kind 2 accumulator tiles. -/
def Program.breaks (g : Program) (r : Rows) : Bool × Nat :=
  if r.acc then (g.accLimit < r.stop, 2) else (g.scratchLimit < r.stop, 1)

/-- The lowest resource kind an instruction's operands break. -/
def Program.overRows (g : Program) (l : List Rows) : Nat := lowestKind (l.map g.breaks)

/-- Do two runs of bytes meet? -/
def rangesMeet (a n b m : Nat) : Bool := n ≠ 0 && m ≠ 0 && a < b + m && b < a + n

/-- Does an operand meet a run of bytes of the same store? -/
def Rows.meets (r : Rows) (a n : Nat) : Bool := rangesMeet r.addr (r.stop - r.addr) a n

/-- The bytes of row `i`. -/
def State.rowAt (s : State) (p : Nat) (r : Rows) (i : Nat) : List Byte :=
  if r.acc then s.accBytes p (r.addr + i * r.stride) r.bytes else s.scratch p (r.addr + i * r.stride) r.bytes

/-- A run of bytes written. -/
def State.setStore (s : State) (p : Nat) (acc : Bool) (addr : Nat) (bs : List Byte) : State :=
  if acc then s.setAcc p addr bs else s.setScratch p addr bs

/-! ## Hazards -/

/-- Must an instruction that reads and writes these operands wait for the inbound mesh queue (R76), for a check (R124) or for a
CONV's epilogue that waits for one? -/
def State.checkWait (s : State) (p : Nat) (reads writes : List Rows) : Bool :=
  let c := s.core p
  c.inbound.any (fun e => (reads ++ writes).any fun r => !r.acc && r.meets e.addr e.bytes) ||
  !c.epilogue.isEmpty || c.checks.any fun k =>
    let t := fieldOf k.enc 3 1 % 16 + k.tile
    (writes.any fun w => !w.acc && k.reads.any fun (a, n) => w.meets a n) ||
      (reads ++ writes).any fun r => r.acc && r.meets (t * 16384) 16384

/-- Bytes of a rank's SRC and of its DST in a COLL (Table COL-2) among `n` ranks; REDOP 0xFF delivers every rank's SRC (R280). -/
def collSizes (enc : BitVec 256) (n : Nat) : Nat × Nat :=
  let op := fieldOf enc 1 1
  let count := fieldOf enc 20 4
  let one := rowBytes (fieldOf enc 2 1 % 16) count
  let all := n * one
  if op ≤ 1 && fieldOf enc 26 1 = 0xFF then (if op = 0 then one else all, if op = 0 then all else n * all)
  else match op with
    | 0 => (one, one)
    | 1 => (all, one)
    | 2 => (one, all)
    | 3 => (all, all)
    | _ => (one, one)

/-- Must a LOAD or STORE of a core wait for a piece of DST that a COLL of its own program has still to write (R139, R282)? -/
def State.collWait (s : State) (p va n : Nat) : Bool :=
  s.fab.objs.any fun o => match o.run with
    | some r => r.parts.any fun q => q.core == p && q.todo.any fun x => rangesMeet va n x.addr x.bytes
    | none => false

/-- Has every earlier instruction of a core's program completed (R140, R143)? Its inbound queue,
checks, epilogues, PUTs, collectives and the commands in its cells. -/
def State.coreDrained (s : State) (p : Nat) (g : Program) : Bool :=
  (s.core p).inbound.isEmpty && (s.core p).checks.isEmpty && (s.core p).epilogue.isEmpty && s.job.puts.all (fun q => q.from_ != p) &&
    (s.fab.objs.all fun o => match o.run with | some r => r.parts.all fun q => q.core != p | none => true) &&
    s.cells.all fun c => !(c.busy && c.job == g.job && c.core == p)

/-! ## Conversions (R103 to R113) -/

/-- Are the format codes of a list all formats of Table NUM-1? -/
def fmtsOk (l : List Nat) : Bool := l.all fun c => (fmtOf c).isSome

/-- One row of values converted by the vector unit, with the draws it takes from the core's generator. -/
def State.convRow (s : State) (p src dst mode ovr : Nat) (vs : List FV) : Delivered × State :=
  match roundingOf mode with
  | some .sr =>
    if drawsInto dst then
      let r := lfsrDraws vs.length (s.getF (F.JOB_CORE_LFSR_STATE p))
      (convertRow src dst .sr (ovr == 1) r.1 vs, s.putF (F.JOB_CORE_LFSR_STATE p) r.2)
    else (convertRow src dst .sr (ovr == 1) (vs.map fun _ => 0) vs, s)
  | some m => (convertRow src dst m (ovr == 1) (vs.map fun _ => 0) vs, s)
  | none => (deliveredNil, s)

/-- A row of a STORE: unchanged bytes between equal formats, else a conversion with its flags and counts. -/
def State.storeRow (s : State) (p src dst mode ovr cols : Nat) (bs : List Byte) : List Byte × State :=
  if src = dst then (bs, s)
  else
    let r := s.convRow p src dst mode ovr (decodeRow src cols bs)
    (r.1.bytes, r.2.addDelivered p 1 r.1)

/-- Vector-unit cycles (Table VEC-6). -/
def State.vecBusy (s : State) (p n : Nat) : State := s.addP (P.JOB_CORE_VEC_BUSY p) n

/-! ## Ports met by LOAD and STORE -/

/-- A port of a context that a range meets: its kind, and the range's offset in it where the range starts inside. -/
def State.portMet (s : State) (ctx va n : Nat) : Option (PortKind × Option Nat) :=
  let look (k : PortKind) (base size : Nat) : Option (PortKind × Option Nat) :=
    if base ≠ 0 && rangesMeet va n base size then some (k, if base ≤ va then some (va - base) else none) else none
  (look .page (s.getP (P.JOB_CTX_PAGE_PORT ctx)) (18 * 2 ^ 20)).or
    ((look .tier (s.getP (P.JOB_CTX_TIER_PORT ctx)) pageBytes).or (look .video (s.getP (P.VID_CTX_PORT ctx)) pageBytes))

/-- What misuse of a port ends in: KV_PORT_FAULT for the page port, MAP_FAULT for the others. -/
def portFault (k : PortKind) (va : Nat) : TileRes :=
  match k with
  | .page => .fault Code.KV_PORT_FAULT 0
  | _ => .mapFault va

/-- Bytes of a cell that a command takes. -/
def cellCmdBytes : PortKind → Nat
  | .page => 16
  | _ => 32

/-- Device memory address of `n` bytes of a write slot at an offset of the page port (R184). -/
def State.slotAddr (s : State) (ctx off n : Nat) : Option Nat :=
  if off < 2 ^ 21 then none
  else match s.kvSlot ctx ((off - 2 ^ 21) / 2 ^ 18) with
    | some (_, pg) =>
      let x := (off - 2 ^ 21) % 2 ^ 18
      if x + n ≤ kvPageBytes pg.format then some (pg.address + x) else none
    | none => none

/-- A read of context virtual space by an instruction; `k` goes on with the bytes. -/
def State.readTile (s : State) (cmd : Instr) (p ctx uid va n : Nat) (k : List Byte → State → TileRes) : TileRes :=
  match s.vRead ctx va n with
  | .ok (bs, t) => k bs t
  | .mapFault v => .mapFault v
  | .wait => .wait
  | .poison a => .stop (s.poisonRead cmd uid (unitId 0xE p) a)
  | .port => .mapFault va

/-- A LOAD's row of `n` bytes from context virtual space; `k` goes on with them. -/
def State.loadBytes (s : State) (cmd : Instr) (p : Nat) (g : Program) (uid va n : Nat) (k : List Byte → State → TileRes) : TileRes :=
  match s.portMet g.ctx va n with
  | some (kind, off) =>
    let r := cellCmdBytes kind
    match off with
    | none => portFault kind va
    | some o =>
      if o < 65536 && r ≤ o % 64 && o % 64 + n ≤ r + 16 then
        match s.cell kind g.ctx (o / 64) with
        | some c => if c.busy then .wait else k ((c.result.drop (o % 64 - r)).take n) s
        | none => k (List.replicate n 0) s
      else if kind ≠ .page then portFault kind va
      else match s.slotAddr g.ctx o n with
        | some a =>
          if s.poisoned a n then .stop (s.poisonRead cmd uid (unitId 0xE p) a)
          else
            let r := (s.touch a n false).hbmRead a n
            k r.1 r.2
        | none => portFault kind va
  | none => s.readTile cmd p g.ctx uid va n k

/-- A STORE's row written in context virtual space. `command` is the number of FP32 elements the whole STORE writes when it has the
form of a command (one row, both formats FP32), else 0. -/
def State.storeBytes (s : State) (p : Nat) (g : Program) (uid va command : Nat) (bs : List Byte) (k : State → TileRes) : TileRes :=
  match s.portMet g.ctx va bs.length with
  | some (kind, off) =>
    let n := cellCmdBytes kind
    match off with
    | none => portFault kind va
    | some o =>
      if o < 65536 && o % 64 == 0 && 4 * command == n then
        match s.cell kind g.ctx (o / 64) with
        | some c =>
          if c.busy then .wait
          else k (s.setCell { c with cmd := leNat bs, busy := true, job := uid, core := p })
        | none => k (s.setCell ⟨kind, g.ctx, o / 64, leNat bs, List.replicate 16 0, true, uid, p⟩)
      else if kind ≠ .page then portFault kind va
      else match s.slotAddr g.ctx o bs.length with
        | some a =>
          if s.inBanked a && !s.bankGroupOk g.ctx then .fault Code.BANK_GROUP_BAD 0
          else match s.journal uid a bs.length with
            | none => .fault Code.UNDO_FULL 0
            | some t => k ((t.touch a bs.length true).setHbm a bs)
        | none => portFault kind va
  | none => (s.vWrite g.ctx uid va bs).tile k

/-! ## Rows in order -/

/-- Rows 0 to `n − 1` handled in order, the state handed on. -/
def eachRow (f : Nat → State → (State → TileRes) → TileRes) : List Nat → State → TileRes
  | [], s => .done s
  | i :: t, s => f i s (eachRow f t)

/-- Rows read in order and their contents gathered. -/
def gatherRows (f : Nat → State → (List Byte → State → TileRes) → TileRes) (k : List (List Byte) → State → TileRes) :
    List Nat → List (List Byte) → State → TileRes
  | [], acc, s => k acc.reverse s
  | i :: t, acc, s => f i s fun bs s => gatherRows f k t (bs :: acc) s

/-- Writes of context virtual space in order. -/
def writeAll (ctx uid : Nat) (k : State → TileRes) : List (Nat × List Byte) → State → TileRes
  | [], s => k s
  | (a, bs) :: t, s => (s.vWrite ctx uid a bs).tile fun s => writeAll ctx uid k t s

end Sys2Proof.Machine
end

