-- ==== Sys2Proof/Machine/DataMove.lean ====
section
/-! DEFINITION. LOAD, STORE, HALO, FENCE, CHECK and END (Tables TP-5, TP-6, TP-12, TP-14; R76, R139 to R146, R158). -/

namespace Sys2Proof.Machine

open Sys2Proof

/-- The program of a core changed. -/
def State.setProg (s : State) (p : Nat) (g : Program) : State := s.setCore p { s.core p with prog := some g }

/-- An instruction's row of the opcode table by its opcode alone; 0 for another opcode. -/
def opRow (enc : BitVec 256) (op : Nat) : Nat := if fieldOf enc 0 1 = op then op * 256 else 0

/-! ## LOAD (Table TP-5) -/

def loadLegal (enc : BitVec 256) : Bool :=
  fieldOf enc 1 3 == 0 && fieldOf enc 10 2 == 0 && 1 ≤ fieldOf enc 16 4 && fieldOf enc 16 4 ≤ 1048576 && 1 ≤ fieldOf enc 20 2 &&
    fieldOf enc 22 2 == 0

/-- A LOAD's scratchpad rows. -/
def loadDst (enc : BitVec 256) : Rows := ⟨false, fieldOf enc 12 4, fieldOf enc 20 2, fieldOf enc 16 4, fieldOf enc 28 4⟩

/-- Bytes of virtual space from a LOAD's first byte to its last. -/
def loadSpan (enc : BitVec 256) : Nat := rowsEnd 0 (fieldOf enc 20 2) (fieldOf enc 16 4) (fieldOf enc 24 4)

/-- Rows written at an operand's addresses, in order. -/
def State.writeRows (s : State) (p : Nat) (d : Rows) (bs : List (List Byte)) : State :=
  bs.zipIdx.foldl (fun s (b, i) => s.setStore p d.acc (d.addr + i * d.stride) b) s

/-- The transfer of a LOAD: every row read, then the rows written. -/
def State.loadRows (s : State) (cmd : Instr) (p : Nat) (g : Program) (uid : Nat) (enc : BitVec 256) : TileRes :=
  gatherRows (fun i s k => s.loadBytes cmd p g uid (fieldOf enc 4 8 + i * fieldOf enc 24 4) (fieldOf enc 16 4) k)
    (fun bs s => .done (s.writeRows p (loadDst enc) bs)) (List.range (fieldOf enc 20 2)) [] s

/-- LOAD, or its place in the inbound queue behind a HALO WAIT. -/
def State.loadBody (s : State) (cmd : Instr) (p : Nat) (enc : BitVec 256) (g : Program) (j : Job) : TileRes :=
  let d := loadDst enc
  let c := s.core p
  if s.checkWait p [] [d] || s.collWait p (fieldOf enc 4 8) (loadSpan enc) then .wait
  else if c.inbound.isEmpty then s.loadRows cmd p g j.uid enc
  else if c.inbound.length < 8 then
    .done (s.setCore p { c with inbound := c.inbound ++
      [⟨enc, s.getF (F.JOB_CORE_PROGRAM_NEXT p), d.addr, d.stop - d.addr, fieldOf enc 4 8, loadSpan enc⟩] })
  else .wait

def loadJudge (enc : BitVec 256) (g : Program) : Judged := ⟨opRow enc 1, loadLegal enc, g.overRows [loadDst enc]⟩

/-- LOAD. -/
def execLoad (core : Nat) (enc : BitVec 256) (s : State) : Res :=
  s.issue core enc (.load core enc) 0x100 (fun g _ => loadJudge enc g) (s.loadBody (.load core enc) core enc)

/-! ## STORE (Table TP-6) -/

def storeFmts (enc : BitVec 256) : Nat × Nat := (fieldOf enc 2 1 % 16, fieldOf enc 2 1 / 16)

def storeLegal (enc : BitVec 256) : Bool :=
  let m := fieldOf enc 1 1
  let f := storeFmts enc
  m / 32 == 0 && (roundingOf (bits m 3 2)).isSome && fmtsOk [f.1, f.2] && (!bit m 0 || f.1 == 0) && fieldOf enc 3 1 == 0 &&
    (if bit m 1 then fieldOf enc 10 2 == 0 else fieldOf enc 8 4 == 0) && 1 ≤ fieldOf enc 16 2 && 1 ≤ fieldOf enc 18 2 &&
    (!(isBlockFmt f.1 || isBlockFmt f.2) || fieldOf enc 18 2 % 32 == 0) && fieldOf enc 28 4 == 0

def storeSrc (enc : BitVec 256) : Rows :=
  ⟨bit (fieldOf enc 1 1) 0, fieldOf enc 12 4, fieldOf enc 16 2, rowBytes (storeFmts enc).1 (fieldOf enc 18 2), fieldOf enc 20 4⟩

/-- A STORE's rows in the scratchpad; with DST_MEM only their size and stride mean something. -/
def storeDst (enc : BitVec 256) : Rows :=
  ⟨false, fieldOf enc 4 8, fieldOf enc 16 2, rowBytes (storeFmts enc).2 (fieldOf enc 18 2), fieldOf enc 24 4⟩

def storeJudge (enc : BitVec 256) (g : Program) : Judged :=
  ⟨opRow enc 2, storeLegal enc, g.overRows (if bit (fieldOf enc 1 1) 1 then [storeSrc enc] else [storeSrc enc, storeDst enc])⟩

/-- The rows of a STORE converted in order. -/
def State.storeRows (s : State) (p : Nat) (enc : BitVec 256) : List (List Byte) × State :=
  let m := fieldOf enc 1 1
  let f := storeFmts enc
  ((List.range (fieldOf enc 16 2)).map (s.rowAt p (storeSrc enc))).foldl (fun a bs =>
    let r := a.2.storeRow p f.1 f.2 (bits m 3 2) (bits m 4 4) (fieldOf enc 18 2) bs
    (a.1 ++ [r.1], r.2)) ([], s)

/-- The part of a STORE that has the form of a command: one row of FP32 elements copied unchanged (R184, R227). -/
def storeCommand (enc : BitVec 256) : Nat :=
  if fieldOf enc 16 2 = 1 && storeFmts enc == (0, 0) then fieldOf enc 18 2 else 0

/-- Does a virtual range meet one that a queued LOAD still reads? -/
def State.queueReads (s : State) (p va n : Nat) : Bool := (s.core p).inbound.any fun e => rangesMeet va n e.va e.vbytes

def State.storeBody (s : State) (p : Nat) (enc : BitVec 256) (g : Program) (j : Job) : TileRes :=
  let m := fieldOf enc 1 1
  let d := storeDst enc
  let mem := bit m 1
  if s.checkWait p [storeSrc enc] (if mem then [] else [d]) ||
      (mem && (s.collWait p d.addr (d.stop - d.addr) || s.queueReads p d.addr (d.stop - d.addr))) then .wait
  else
    let r := s.storeRows p enc
    let s := if (storeFmts enc).1 = (storeFmts enc).2 then r.2 else r.2.vecBusy p (d.rows * ceilDiv (fieldOf enc 18 2) 128)
    if mem then
      eachRow (fun i s k => s.storeBytes p g j.uid (d.addr + i * d.stride) (storeCommand enc) (r.1.getD i []) k)
        (List.range d.rows) s
    else .done (s.writeRows p d r.1)

/-- STORE. -/
def execStore (core : Nat) (enc : BitVec 256) (s : State) : Res :=
  s.issue core enc (.store core enc) 0x200 (fun g _ => storeJudge enc g) (s.storeBody core enc)

/-! ## HALO (Table TP-12, R145) -/

/-- The row of a HALO: 0x800 PUT, 0x801 WAIT. -/
def haloRow (enc : BitVec 256) : Nat :=
  if fieldOf enc 0 1 = 8 && fieldOf enc 2 1 < 2 then 0x800 + fieldOf enc 2 1 else 0

def haloLegal (enc : BitVec 256) (cores : Nat) : Bool :=
  fieldOf enc 1 1 / 4 == 0 && fieldOf enc 3 1 == 0 && fieldOf enc 6 2 == 0 && fieldOf enc 18 2 == 0 && fieldOf enc 28 4 == 0 &&
    (if fieldOf enc 2 1 = 0 then
      fieldOf enc 4 2 < cores && 1 ≤ fieldOf enc 12 4 && fieldOf enc 12 4 ≤ 65536 && 1 ≤ fieldOf enc 16 2
    else fieldOf enc 4 2 == 0 && fieldOf enc 8 4 == 0 && 1 ≤ fieldOf enc 12 4 && fieldOf enc 12 4 ≤ 1048576 &&
      fieldOf enc 16 2 == 0 && fieldOf enc 20 8 == 0)

def putSrc (enc : BitVec 256) : Rows := ⟨false, fieldOf enc 8 4, fieldOf enc 16 2, fieldOf enc 12 4, fieldOf enc 20 4⟩

/-- A program's halo buffer. -/
def Program.haloBuf (g : Program) (b : Nat) : HaloDesc := g.halo.getD b ⟨0, 0⟩

/-- Is a halo buffer outside the limits of Table TP-15, kind 4? -/
def Program.haloBreaks (g : Program) (b : Nat) : Bool :=
  min g.halos 4 ≤ b || (let h := g.haloBuf b; h.size ≠ 0 && g.scratchLimit < h.addr + h.size)

def haloJudge (enc : BitVec 256) (g : Program) (j : Job) : Judged :=
  ⟨haloRow enc, haloLegal enc j.coresWanted,
    if fieldOf enc 2 1 = 0 then g.overRows [putSrc enc] else if g.haloBreaks (fieldOf enc 1 1 % 4) then 4 else 0⟩

def State.haloPutBody (s : State) (p : Nat) (enc : BitVec 256) (g : Program) (j : Job) : TileRes :=
  let src := putSrc enc
  if s.checkWait p [src] [] then .wait
  else
    let data := (List.range src.rows).flatMap (s.rowAt p src)
    let put : MeshPut := ⟨j.uid, p, s.getF (F.JOB_CORE_PROGRAM_NEXT p), fieldOf enc 4 2, fieldOf enc 1 1 % 4, fieldOf enc 24 4, data⟩
    .done { s.setProg p { g with communicated := true } with job.puts := s.job.puts ++ [put] }

/-- HALO PUT: the bytes go onto the mesh. -/
def execHaloPut (core : Nat) (enc : BitVec 256) (s : State) : Res :=
  s.issue core enc (.haloPut core enc) 0x800 (haloJudge enc) (s.haloPutBody core enc)

/-- The count of bytes received in a halo buffer. -/
def State.haloCount (s : State) (p b : Nat) : Nat := (s.core p).halo.getD b 0

def State.setHalo (s : State) (p b n : Nat) : State := s.setCore p { s.core p with halo := (s.core p).halo.set b n }

/-- The instructions of the inbound queue that can complete now, in order (R76). -/
def runInbound (p : Nat) : Nat → State → State
  | 0, s => s
  | fuel + 1, s =>
    match (s.core p).inbound, (s.core p).prog with
    | e :: t, some g =>
      let pop (s : State) : State := s.setCore p { s.core p with inbound := t }
      if fieldOf e.enc 0 1 = 8 then
        let b := fieldOf e.enc 1 1 % 4
        if fieldOf e.enc 12 4 ≤ s.haloCount p b then
          runInbound p fuel (pop (s.setHalo p b (s.haloCount p b - fieldOf e.enc 12 4)))
        else s
      else
        let l := s.getF (F.JOB_CORE_STATUS_LOGICAL p)
        match s.loadRows (.load p e.enc) p g g.job e.enc with
        | .done u => runInbound p fuel (pop u)
        | .wait => s
        | .fault code kind => s.jobFault g.job code e.index kind l
        | .mapFault va => s.mapFault g.job va e.index l
        | .stop u => { u with held := u.held.filter (· != .load p e.enc) }
    | _, _ => s

/-- A core's inbound queue served, while its step runs. -/
def State.serveInbound (s : State) (p : Nat) : State :=
  match (s.core p).prog with
  | some g =>
    match s.jobOf g.job with
    | some j => if j.phase = .running then runInbound p 8 s else s
    | none => s
  | none => s

/-- Every core's inbound queue served (an idle step does it; log entry 1). -/
def State.serveAllInbound (s : State) : State :=
  (s.cores.filter fun e => !e.2.inbound.isEmpty).foldl (fun s e => s.serveInbound e.1) s

def State.haloWaitBody (s : State) (p : Nat) (enc : BitVec 256) (g : Program) (_j : Job) : TileRes :=
  let b := fieldOf enc 1 1 % 4
  let h := g.haloBuf b
  let c := s.core p
  if s.checkWait p [] [rowOne false h.addr h.size] || 8 ≤ c.inbound.length then .wait
  else
    let e : Inbound := ⟨enc, s.getF (F.JOB_CORE_PROGRAM_NEXT p), h.addr, h.size, 0, 0⟩
    let s := s.setProg p { g with communicated := true }
    .done ((s.setCore p { s.core p with inbound := c.inbound ++ [e] }).serveInbound p)

/-- HALO WAIT: it completes once the count reaches BYTES; until then it stands in the inbound queue. -/
def execHaloWait (core : Nat) (enc : BitVec 256) (s : State) : Res :=
  s.issue core enc (.haloWait core enc) 0x801 (haloJudge enc) (s.haloWaitBody core enc)

/-- The physical core of a rank of a job's step. -/
def State.rankCore (s : State) (uid rank : Nat) : Option Nat :=
  match s.jobOf uid with
  | some j => match j.step with
    | some st => st.phys[rank]?
    | none => none
  | none => none

/-- Does a core run its program of a job now? -/
def State.runsJob (s : State) (core uid : Nat) : Option Program :=
  match s.jobOf uid, (s.core core).prog with
  | some j, some g => if j.phase = .running && g.job = uid then some g else none
  | _, _ => none

/-- A PUT's bytes reach a core whose program runs (R144, R145). -/
def State.putLands (s : State) (q : MeshPut) (core : Nat) (g : Program) : State :=
  let s := { s with job.puts := s.job.puts.erase q }
  let h := g.haloBuf q.buf
  if g.haloBreaks q.buf || h.size < q.offset + q.data.length then
    s.jobFault q.job Code.RESOURCE_OVERFLOW q.index 4 (s.getF (F.JOB_CORE_STATUS_LOGICAL q.from_))
  else
    let s := s.setScratch core (h.addr + q.offset) q.data
    let s := s.setHalo core q.buf (s.haloCount core q.buf + q.data.length)
    (s.setCore core { s.core core with haloHit := true }).serveInbound core

/-- HALO_DATA_ARRIVE: the oldest PUT to a core arrives; a core that is taken, stopped or not started keeps it waiting (R145,
R146). -/
def execHaloDataArrive (core : Nat) (s : State) : Res :=
  match s.job.puts.find? (fun q => s.rankCore q.job q.dest == some core) with
  | some q =>
    match s.runsJob core q.job with
    | some g => .next (s.putLands q core g)
    | none => .next (s.hold (.haloDataArrive core))
  | none => .refused .notDue

/-! ## FENCE, CHECK and END (Table TP-14) -/

/-- The row of a SYNC: 0xA00 + OP. -/
def syncRow (enc : BitVec 256) : Nat :=
  if fieldOf enc 0 1 = 0xA && fieldOf enc 1 1 < 4 then 0xA00 + fieldOf enc 1 1 else 0

/-- FENCE: complete when every earlier instruction is. -/
def execFence (core : Nat) (enc : BitVec 256) (s : State) : Res :=
  s.issue core enc (.fence core enc) 0xA03 (fun _ _ => ⟨syncRow enc, fieldOf enc 2 30 == 0, 0⟩)
    (fun g _ => if s.coreDrained core g then .done (s.setProg core { g with communicated := true }) else .wait)

/-- CHECK: complete when no check is pending on the named tiles. -/
def execCheck (core : Nat) (enc : BitVec 256) (s : State) : Res :=
  let mask := fieldOf enc 4 2
  s.issue core enc (.check core enc) 0xB00 (fun _ _ => ⟨opRow enc 0xB, fieldOf enc 1 3 == 0 && fieldOf enc 6 26 == 0, 0⟩)
    (fun _ _ => if (s.core core).checks.all fun k => mask != 0 && !bit mask (fieldOf k.enc 3 1 % 16 + k.tile) then .done s else .wait)

/-- Have all programs of a job's step retired? -/
def State.allRetired (s : State) (uid : Nat) : Bool :=
  match (s.jobOf uid).bind (·.step) with
  | some st => st.phys.all fun q => match (s.core q).prog with | some h => h.retired | none => false
  | none => false

/-- A program retired; the step's last one starts the Lull's clock (R140, R55). -/
def State.retireProgram (s : State) (p uid : Nat) (g : Program) : State :=
  let s := s.setProg p { g with retired := true }
  if s.allRetired uid then (s.mapStep uid fun st => { st with retiredAt := some s.timeNs }).streamsRetired uid else s

/-- END: the program retires once every earlier instruction has completed; the step's last one with rows of a picture missing faults
(R317). -/
def execEndProgram (core : Nat) (enc : BitVec 256) (s : State) : Res :=
  s.issue core enc (.endProgram core enc) 0xC00 (fun _ _ => ⟨opRow enc 0xC, fieldOf enc 1 31 == 0, 0⟩)
    (fun g j =>
      if !s.coreDrained core g then .wait
      else if (s.setProg core { g with retired := true }).allRetired j.uid && s.rowsMissing j.uid then
        .fault Code.VIDEO_ROWS_MISSING 0
      else .done (s.retireProgram core j.uid g))

end Sys2Proof.Machine
end

