-- ==== Sys2Proof/Machine/Matrix.lean ====
section
/-! DEFINITION. What MMA and CONV ask of the matrix engine, and the precision guard around them: operands, windows (R147 to R158),
guard descriptors and sidecars (R115 to R119, R132), rungs (R126), tiles (R78 to R89) and references (R121). -/

namespace Sys2Proof.Machine

open Sys2Proof

/-- 0xFFFF_FFFF: an absent source. -/
def noSrc : Nat := 0xFFFFFFFF

/-! ## Window descriptors (Tables CNV-1 and CNV-2) -/

/-- A dimension of a window. -/
structure Dim where
  input : Nat
  ksize : Nat
  stride : Nat
  dil : Nat
  lo : Nat
  hi : Nat
  deriving DecidableEq, Repr

/-- A window descriptor as a CONV reads it. -/
structure Window where
  op : Nat
  dims : Nat
  countPad : Bool
  c : Nat
  chBase : Nat
  outStart : Nat
  pix : Nat
  row : Nat
  plane : Nat
  d : Dim
  h : Dim
  w : Dim
  deriving DecidableEq, Repr

def dimOf (b : List Byte) (i : Nat) : Dim :=
  let o := 0x20 + 8 * i
  ⟨leAt b o 2, leAt b (o + 2) 1, leAt b (o + 3) 1, leAt b (o + 4) 1, leAt b (o + 5) 1, leAt b (o + 6) 1⟩

def windowOf (b : List Byte) : Window :=
  ⟨leAt b 0 1, leAt b 1 1, bit (leAt b 2 1) 0, leAt b 4 2, leAt b 6 2, leAt b 8 4, leAt b 0x10 4, leAt b 0x14 4, leAt b 0x18 4,
    dimOf b 0, dimOf b 1, dimOf b 2⟩

/-- Is a used dimension in range, and does an unused one read as R148 asks? -/
def dimOk (used : Bool) (x : Dim) : Bool :=
  if used then 1 ≤ x.input && 1 ≤ x.ksize && 1 ≤ x.stride && 1 ≤ x.dil else x == ⟨1, 1, 1, 1, 0, 0⟩

/-- Is a descriptor of an unrolled CONV within Tables CNV-1 and CNV-2, for IN_FMT and the CONV's K (R147, R148)? -/
def windowOk (b : List Byte) (inFmt k : Nat) : Bool :=
  let w := windowOf b
  w.op < 3 && 1 ≤ w.dims && w.dims ≤ 3 && leAt b 2 1 < (if w.op = 2 then 2 else 1) && leAt b 3 1 == 0 && 1 ≤ w.c &&
    (!isBlockFmt inFmt || w.c % 32 == 0) && (if w.op = 0 then w.chBase == 0 else w.chBase < w.c) && leAt b 0x0C 4 == 0 &&
    leAt b 0x1C 4 == 0 && leAt b 0x38 8 == 0 && leAt b 0x27 1 == 0 && leAt b 0x2F 1 == 0 && leAt b 0x37 1 == 0 &&
    dimOk (w.dims == 3) w.d && dimOk (2 ≤ w.dims) w.h && dimOk true w.w && k == w.c * w.d.ksize * w.h.ksize * w.w.ksize

/-- The output extent of a dimension (R150). -/
def Dim.out (x : Dim) : Nat :=
  if x.dil * (x.ksize - 1) + 1 ≤ x.input + x.lo + x.hi then
    (x.input + x.lo + x.hi - x.dil * (x.ksize - 1) - 1) / x.stride + 1
  else 0

/-- Is row `m` present (R150)? -/
def Window.present (w : Window) (m : Nat) : Bool := w.outStart + m < w.d.out * w.h.out * w.w.out

/-- The input coordinate of tap `t` of output coordinate `o`; none where it is padding (R151). -/
def Dim.tap (x : Dim) (o t : Nat) : Option Nat :=
  let i := o * x.stride + t * x.dil
  if x.lo ≤ i && i - x.lo < x.input then some (i - x.lo) else none

/-- The pixel vectors of a present row's taps in tap order: their offsets from IN, none for padding (R149, R151, R152). -/
def Window.taps (w : Window) (m : Nat) : List (Option Nat) :=
  let p := w.outStart + m
  let o2 := p % w.w.out
  let o1 := p / w.w.out % w.h.out
  let o0 := p / w.w.out / w.h.out
  (List.range w.d.ksize).flatMap fun td => (List.range w.h.ksize).flatMap fun th => (List.range w.w.ksize).map fun tw =>
    match w.d.tap o0 td, w.h.tap o1 th, w.w.tap o2 tw with
    | some a, some b, some c => some (a * w.plane + b * w.row + c * w.pix)
    | _, _, _ => none

/-- Offsets of the pixel vectors fetched for rows `lo` to `hi − 1`. -/
def Window.fetched (w : Window) (lo hi : Nat) : List Nat :=
  ((List.range hi).filter fun m => lo ≤ m && w.present m).flatMap fun m => (w.taps m).filterMap id

/-- Is any row of a CONV present (R155)? -/
def Window.anyPresent (w : Window) (m : Nat) : Bool := (List.range m).any w.present

/-- The most pixel vectors a K_t slice of a row draws on: T of R153. -/
def Window.span (w : Window) (kt k : Nat) : Nat :=
  if kt % w.c = 0 then kt / w.c
  else if w.c % kt = 0 then 1
  else (List.range (ceilDiv k kt)).foldl (fun a b => max a ((min k (b * kt + kt) - 1) / w.c - b * kt / w.c + 1)) 1

/-! ## Plans -/

/-- Where an MMA's activation rows come from. -/
inductive RowSrc where
  | stored (addr stride : Nat)
  | window (w : Window) (addr : Nat)
  deriving DecidableEq, Repr

/-- What an MMA or CONV asks of the matrix engine. -/
structure Plan where
  aFmt : Nat
  wFmt : Nat
  /-- Promotion interval. -/
  p : Nat
  overwrite : Bool
  first : Nat
  rows : RowSrc
  w : Nat
  m : Nat
  k : Nat
  guard : Nat
  conv : Bool
  /-- Address of the window descriptor. -/
  desc : Nat
  deriving DecidableEq, Repr

def mmaPlan (enc : BitVec 256) : Plan :=
  let f := fieldOf enc 1 1
  let m := fieldOf enc 2 1
  ⟨f % 16, f / 16, promotionOf (m % 4), bit m 2, fieldOf enc 3 1 % 16, .stored (fieldOf enc 4 4) (fieldOf enc 12 4),
    fieldOf enc 8 4, fieldOf enc 16 2, fieldOf enc 18 2, fieldOf enc 20 4, false, 0⟩

/-- The bytes of a CONV's window descriptor. -/
def State.convDesc (s : State) (p : Nat) (enc : BitVec 256) : List Byte := s.scratch p (fieldOf enc 12 4) 64

def State.convPlan (s : State) (p : Nat) (enc : BitVec 256) : Plan :=
  let f := fieldOf enc 1 1
  let m := fieldOf enc 2 1
  let b := s.convDesc p enc
  ⟨f % 16, f / 16, promotionOf (m % 4), bit m 2, fieldOf enc 3 1 % 16,
    if bit m 7 then .stored (fieldOf enc 4 4) (leAt b 0x0C 4) else .window (windowOf b) (fieldOf enc 4 4),
    fieldOf enc 8 4, fieldOf enc 24 2, fieldOf enc 26 2, fieldOf enc 20 4, true, fieldOf enc 12 4⟩

/-- The plan of an encoding held by a check. -/
def State.planOf (s : State) (p : Nat) (enc : BitVec 256) : Plan :=
  if fieldOf enc 0 1 = 4 then s.convPlan p enc else mmaPlan enc

/-- The class of the array (R78): the wider operand's. -/
def Plan.cls (x : Plan) : Nat := max (classOf x.aFmt) (classOf x.wFmt)

/-- Output tiles. -/
def Plan.tiles (x : Plan) : Nat := ceilDiv x.m 64

/-- Rows of output tile `t`. -/
def Plan.tileRows (x : Plan) (t : Nat) : Nat := min 64 (x.m - 64 * t)

/-- Accumulator bytes an MMA uses, partial tiles included (R85, R89). -/
def Plan.accRows (x : Plan) : Rows :=
  rowOne true (x.first * 16384) (x.tiles * (if needsPartial x.cls x.p then 2 else 1) * 16384)

/-- Bytes of the weight operand in a format, laid out in tiles of the MMA's own class (R142; log entry 42). -/
def Plan.weightBytes (x : Plan) (fmt : Nat) : Nat := ceilDiv x.k (depthOf x.cls) * weightTileBytes fmt (depthOf x.cls)

/-- Scratchpad rows of an activation operand at an address in a format, for MMA rows `lo` to `hi − 1`. -/
def Plan.actRows (x : Plan) (addr fmt lo hi : Nat) : List Rows :=
  match x.rows with
  | .stored _ st => [⟨false, addr + lo * st, hi - lo, rowBytes fmt x.k, st⟩]
  | .window w _ => (w.fetched lo hi).map fun o => rowOne false (addr + o) (rowBytes fmt w.c)

def Plan.actAddr (x : Plan) : Nat :=
  match x.rows with
  | .stored a _ => a
  | .window _ a => a

/-! ## Operand values -/

/-- Where an operand is read: address, format, and whether it is narrowed to BF16 on the operand path (R126). -/
structure Src where
  addr : Nat
  fmt : Nat
  narrow : Bool
  deriving DecidableEq, Repr

/-- The format the array sees. -/
def Src.seen (x : Src) : Nat := if x.narrow then 1 else x.fmt

/-- An FP32 master narrowed to BF16, to nearest even (R126; log entry 44). -/
def narrowBf16 (v : FV) : FV := decodeFloat fmtBF16 (narrow fmtBF16 .rne false 0 v).code

def Src.values (x : Src) (l : List FV) : List FV := if x.narrow then l.map narrowBf16 else l

/-- Activation row `m`: K elements (R142, R152). -/
def State.actRow (s : State) (p : Nat) (x : Plan) (a : Src) (m : Nat) : List FV :=
  a.values (match x.rows with
    | .stored _ st => decodeRow a.fmt x.k (s.scratch p (a.addr + m * st) (rowBytes a.fmt x.k))
    | .window w _ =>
      if w.present m then (w.taps m).flatMap fun t => match t with
        | some o => decodeRow a.fmt w.c (s.scratch p (a.addr + o) (rowBytes a.fmt w.c))
        | none => List.replicate w.c fvZero
      else List.replicate x.k fvZero)

/-- The 64 weight columns of K elements each (R142). -/
def State.weightCols (s : State) (p : Nat) (x : Plan) (w : Src) : List (List FV) :=
  let kt := depthOf x.cls
  let cb := rowBytes w.fmt kt
  (List.range 64).map fun n => w.values (((List.range (ceilDiv x.k kt)).flatMap fun b =>
    decodeRow w.fmt kt (s.scratch p (w.addr + b * 64 * cb + n * cb) cb)).take x.k)

/-! ## Guard descriptors (Tables PG-1 and PG-2) -/

structure Guard where
  layer : Nat
  sidecar : Bool
  keep : Bool
  base : Nat
  side : Nat
  aMaster : Nat
  wMaster : Nat
  a8 : Nat
  w8 : Nat
  a16 : Nat
  w16 : Nat
  aMFmt : Nat
  wMFmt : Nat
  a8Fmt : Nat
  w8Fmt : Nat
  deriving DecidableEq, Repr

def guardOf (b : List Byte) : Guard :=
  ⟨leAt b 0 2 % 1024, bit (leAt b 2 2) 0, bit (leAt b 2 2) 1, leAt b 4 4, leAt b 8 4, leAt b 0x0C 4, leAt b 0x10 4, leAt b 0x14 4,
    leAt b 0x18 4, leAt b 0x1C 4, leAt b 0x20 4, leAt b 0x24 1 % 16, leAt b 0x24 1 / 16, leAt b 0x25 1 % 16, leAt b 0x25 1 / 16⟩

/-- An 8-bit-class code of Table NUM-1. -/
def is8bit (c : Nat) : Bool := 2 ≤ c && c ≤ 7

/-- Is a guard descriptor in range (R132, R154; log entry 42)? -/
def guardOk (b : List Byte) (x : Plan) : Bool :=
  let g := guardOf b
  leAt b 0 2 < 1024 && leAt b 2 2 < 4 && leAt b 0x26 26 == 0 && (g.aMaster == noSrc || g.aMFmt < 2) &&
    (g.wMaster == noSrc || g.wMFmt < 2) && (g.a8 == noSrc || is8bit g.a8Fmt) && (g.w8 == noSrc || is8bit g.w8Fmt) &&
    match x.rows with
    | .window _ _ => g.aMaster == noSrc && g.a8 == noSrc && g.a16 == noSrc
    | .stored _ _ => true

/-- A sidecar header: rank, U, V. -/
structure Sidecar where
  code : Nat
  rank : Nat
  u : Nat
  v : Nat
  deriving DecidableEq, Repr

def sidecarOf (b : List Byte) : Sidecar := ⟨leAt b 0 1, sidecarRank (leAt b 0 1), leAt b 4 4, leAt b 8 4⟩

def sidecarOk (b : List Byte) (k : Nat) : Bool := leAt b 0 1 < 3 && leAt b 1 1 == 0 && leAt b 2 2 == k && leAt b 0x0C 4 == 0

def State.guardBytes (s : State) (p : Nat) (x : Plan) : List Byte := s.scratch p x.guard 64

/-- The guard of a plan; none without a descriptor. -/
def State.guardAt (s : State) (p : Nat) (x : Plan) : Option Guard :=
  if x.guard = noSrc then none else some (guardOf (s.guardBytes p x))

/-- The sidecar of a guard. -/
def State.sidecarAt (s : State) (p : Nat) (g : Guard) : Option Sidecar :=
  if g.sidecar then some (sidecarOf (s.scratch p g.side 16)) else none

/-! ## Layers (R131, Table PG-4) -/

/-- A layer's settings: tolerance, interval, random, accept at top, escalation count, start rung, seed. -/
structure LayerSet where
  tol : Nat
  n : Nat
  random : Bool
  accept : Bool
  esc : Nat
  start : Nat
  seed : Nat
  deriving DecidableEq, Repr

/-- Is a guard-table entry in range? -/
def layerOk (b : List Byte) : Bool :=
  !bit (leAt b 0 2) 15 && bits (leAt b 0 2) 14 7 != 255 && (leAt b 2 2 == 0 || (8 ≤ leAt b 2 2 && leAt b 2 2 ≤ 1024)) &&
    leAt b 4 1 < 4 && leAt b 6 1 < 3 && leAt b 7 1 == 0 && leAt b 0x0C 4 == 0

def layerOf (b : List Byte) : LayerSet :=
  ⟨leAt b 0 2, leAt b 2 2, bit (leAt b 4 1) 0, bit (leAt b 4 1) 1, leAt b 5 1, leAt b 6 1, leAt b 8 4⟩

/-- A job's step. -/
def State.stepOf (s : State) (uid : Nat) : Option StepRun := (s.jobOf uid).bind (·.step)

/-- The guard-table entry of a layer in a job's step. -/
def State.layerEntry (s : State) (uid layer : Nat) : Option (List Byte) := (s.stepOf uid).bind fun st => st.guard[layer]?

/-- A layer's settings; the defaults of R131 where it has no entry. -/
def State.layerSet (s : State) (uid layer : Nat) : LayerSet :=
  match s.layerEntry uid layer with
  | some b => layerOf b
  | none => ⟨s.getF F.JOB_GUARD_DEFAULTS_DEFAULT_TOL, s.getF F.JOB_GUARD_DEFAULTS_DEFAULT_N, false, false,
      s.getF F.JOB_GUARD_DEFAULT_K_K, 0, 0⟩

/-- A layer's state in a job's step. -/
def State.layerState (s : State) (uid layer : Nat) : Layer :=
  match s.stepOf uid with
  | some st => storeGet (fun _ => Layer.fresh) st.layers layer
  | none => Layer.fresh

def State.setLayer (s : State) (uid layer : Nat) (f : Layer → Layer) : State :=
  s.mapStep uid fun st =>
    { st with layers := storeSet (fun _ => Layer.fresh) st.layers layer (f (storeGet (fun _ => Layer.fresh) st.layers layer)) }

/-- Does a layer entry, guard descriptor or sidecar header break its table (R132)? -/
def State.guardBad (s : State) (p uid : Nat) (x : Plan) : Bool :=
  match s.guardAt p x with
  | none => false
  | some g =>
    !guardOk (s.guardBytes p x) x || (g.sidecar && !sidecarOk (s.scratch p g.side 16) x.k) ||
      match s.layerEntry uid g.layer with | some b => !layerOk b | none => false

/-! ## Rungs (R126) -/

/-- The sources of both operands at a rung (log entry 45). -/
def srcsAt (x : Plan) (g : Option Guard) (r : Nat) : Src × Src :=
  let own : Src × Src := (⟨x.actAddr, x.aFmt, false⟩, ⟨x.w, x.wFmt, false⟩)
  let pick (o : Src) (v8 f8 v16 m fm : Nat) : Src :=
    if r = 1 && classOf o.fmt = 0 && v8 ≠ noSrc then ⟨v8, f8, false⟩
    else if r = 2 && classOf o.fmt < 2 then
      (if v16 ≠ noSrc then ⟨v16, 1, false⟩ else if m ≠ noSrc then ⟨m, fm, fm == 0⟩ else o)
    else o
  match g with
  | none => own
  | some g => (pick own.1 g.a8 g.a8Fmt g.a16 g.aMaster g.aMFmt, pick own.2 g.w8 g.w8Fmt g.w16 g.wMaster g.wMFmt)

/-- The lowest rung above `r` at which an operand changes; none at the top. -/
def nextRung (x : Plan) (g : Option Guard) (r : Nat) : Option Nat :=
  ((List.range 3).find? fun q => r < q && srcsAt x g q != srcsAt x g r)

/-- The highest rung up to `want` that is not skipped, from the MMA's class. -/
def effectiveRung (x : Plan) (g : Option Guard) (want : Nat) : Nat :=
  (List.range 3).foldl (fun r q => if r < q && q ≤ want && srcsAt x g q != srcsAt x g r then q else r) x.cls

/-! ## Sidecars (R116 to R118) -/

/-- The r columns of U over K. -/
def State.sideU (s : State) (p k : Nat) (h : Sidecar) : List (List FV) :=
  (List.range h.rank).map fun j => (List.range k).map fun i =>
    decodeFloat fmtBF16 (leNat (s.scratch p (h.u + 2 * h.rank * i + 2 * j) 2))

/-- The 64 columns of V over r. -/
def State.sideV (s : State) (p : Nat) (h : Sidecar) : List (List FV) :=
  (List.range 64).map fun n => (List.range h.rank).map fun j => decodeFloat fmtBF16 (leNat (s.scratch p (h.v + 128 * j + 2 * n) 2))

/-- The projection words of every row at the given sources, kept ones where R118 reuses them. -/
def State.projection (s : State) (p : Nat) (x : Plan) (g : Guard) (h : Sidecar) (a : Src) : Projection × Bool :=
  let fresh : Projection := ⟨x.actAddr, x.m, x.k, h.code, h.u, []⟩
  match (s.core p).proj with
  | some q =>
    if g.keep && { q with rows := [] } == fresh then (q, false)
    else ({ fresh with rows := (List.range x.m).map fun m => projRow (s.actRow p x a m) (s.sideU p x.k h) }, true)
  | none => ({ fresh with rows := (List.range x.m).map fun m => projRow (s.actRow p x a m) (s.sideU p x.k h) }, true)

/-! ## Tiles (R80 to R89) -/

/-- Output tile `t` computed at given sources: its bytes and flags. `prior` is what the tile held; `proj` the projection words of
its rows where a correction is applied. -/
def State.runTile (s : State) (p : Nat) (x : Plan) (ab : Src × Src) (t : Nat) (prior : List Byte)
    (proj : Option (List (List Nat) × List (List FV))) : List Byte × Flags :=
  let window := ab.1.seen == 1 || ab.2.seen == 1
  let cols := s.weightCols p x ab.2
  let row (i : Nat) : List FV × List Nat × List (Option FV) :=
    (s.actRow p x ab.1 (64 * t + i),
      if x.overwrite then List.replicate 64 0 else wordsOf ((prior.drop (256 * i)).take 256),
      match proj with
      | some (ps, v) => (corrRow (ps.getD i []) v).map some
      | none => List.replicate 64 none)
  mmaRows x.p window cols ((List.range (x.tileRows t)).map row)

/-- Accumulator address and bytes of the rows of output tile `t`. -/
def Plan.tileAt (x : Plan) (t : Nat) : Nat × Nat := ((x.first + t) * 16384, x.tileRows t * 256)

def State.tileBytes (s : State) (p : Nat) (x : Plan) (t : Nat) : List Byte :=
  s.accBytes p (x.tileAt t).1 (x.tileAt t).2

/-- Partial tiles read as zero once the MMA is complete (R89). -/
def State.clearPartial (s : State) (p : Nat) (x : Plan) : State :=
  if needsPartial x.cls x.p then
    let c := s.core p
    s.setCore p { c with acc := storeClear c.acc ((x.first + x.tiles) * 16384) (x.tiles * 16384) }
  else s

/-- The engine's cycle counters for one run of `m` rows at given formats (R81, R95, R153), and the cycles it occupies. -/
def State.engineCycles (s : State) (p : Nat) (x : Plan) (ab : Src × Src) (m : Nat) : State × Nat :=
  let cls := max (classOf ab.1.seen) (classOf ab.2.seen)
  let kt := depthOf cls
  let l := weightLoad ab.2.seen kt
  let b := ceilDiv x.k kt
  let r := rowCost cls x.p
  let r' := match x.rows with
    | .window w _ => max r (ceilDiv (w.span kt x.k) 2)
    | .stored _ _ => r
  let total := l + (b - 1) * max (r' * m) l + r' * m + 80 + (if x.conv then 8 else 0)
  let s := s.addP (P.JOB_CORE_MMA_BUSY p) (b * m)
  let s := s.addP (P.JOB_CORE_WSTALL p) ((b - 1) * (l - r' * m))
  (s.addP (P.JOB_CORE_PSTALL p) ((r - 1) * m * b), total)

/-- The window counters of a CONV's rows `lo` to `hi − 1` (R159). -/
def State.windowCounts (s : State) (p : Nat) (x : Plan) (lo hi : Nat) : State :=
  match x.rows with
  | .window w _ =>
    let taps := ((List.range hi).filter fun m => lo ≤ m && w.present m).flatMap w.taps
    let n := (taps.filterMap id).length
    (s.addP (P.JOB_CORE_CONV_VECTORS p) n).addF (F.JOB_CORE_CONV_PADDED_COUNT p) (taps.length - n)
  | .stored _ _ => s

/-! ## Ranges read (R76, R124, R144) -/

/-- The sources of a guard descriptor that are present, with their formats: activations and weights. -/
def Guard.sources (g : Guard) : List (Bool × Nat × Nat) :=
  [(true, g.aMaster, g.aMFmt), (false, g.wMaster, g.wMFmt), (true, g.a8, g.a8Fmt), (false, g.w8, g.w8Fmt), (true, g.a16, 1),
    (false, g.w16, 1)].filter fun x => x.2.1 != noSrc

/-- The guard descriptor and sidecar of a plan as scratchpad runs. -/
def State.guardRuns (s : State) (p : Nat) (x : Plan) : List Rows :=
  match s.guardAt p x with
  | none => []
  | some g =>
    rowOne false x.guard 64 :: match s.sidecarAt p g with
      | none => []
      | some h => [rowOne false g.side 16, rowOne false h.u (2 * h.rank * x.k), rowOne false h.v (128 * h.rank)]

/-- Runs of the sources at a rung for rows `lo` to `hi − 1`. -/
def Plan.srcRuns (x : Plan) (ab : Src × Src) (lo hi : Nat) : List Rows :=
  x.actRows ab.1.addr ab.1.fmt lo hi ++ [rowOne false ab.2.addr (x.weightBytes ab.2.fmt)]

/-- Runs of every source a descriptor names. -/
def Plan.allRuns (x : Plan) (g : Option Guard) (lo hi : Nat) : List Rows :=
  match g with
  | none => []
  | some g => g.sources.flatMap fun (act, a, f) =>
      if act then x.actRows a f lo hi else [rowOne false a (x.weightBytes f)]

/-- Layer-tile indexes selected for verification among an MMA's tiles (R120). -/
def State.selected (s : State) (p uid : Nat) (x : Plan) : List Nat :=
  match s.guardAt p x with
  | none => []
  | some g =>
    let l := s.layerSet uid g.layer
    (List.range x.tiles).filter fun t => tileSelected l.random l.n l.seed (g.base + t)

/-- The rung an MMA's first attempt runs at. -/
def State.firstRung (s : State) (p uid : Nat) (x : Plan) : Nat :=
  match s.guardAt p x with
  | none => x.cls
  | some g => effectiveRung x (some g) (max x.cls (s.layerState uid g.layer).rung)

/-- Everything an MMA reads in the scratchpad: its operands, the descriptor and sidecar, and with a selected tile every source the
descriptor names. -/
def State.planReads (s : State) (p uid : Nat) (x : Plan) : List Rows :=
  let g := s.guardAt p x
  (if x.conv then [rowOne false x.desc 64] else []) ++ x.srcRuns (srcsAt x g (s.firstRung p uid x)) 0 x.m ++ s.guardRuns p x ++
    (if (s.selected p uid x).isEmpty then [] else x.allRuns g 0 x.m)

/-- The ranges a check of tile `t` reads. -/
def State.checkReads (s : State) (p uid : Nat) (x : Plan) (t : Nat) : List (Nat × Nat) :=
  let g := s.guardAt p x
  let lo := 64 * t
  let hi := lo + x.tileRows t
  ((if x.conv then [rowOne false x.desc 64] else []) ++ x.srcRuns (srcsAt x g (s.firstRung p uid x)) lo hi ++ s.guardRuns p x ++
    x.allRuns g lo hi).map fun r => (r.addr, r.stop - r.addr)

/-! ## Running an MMA -/

/-- A run of the engine over some tiles, each with the flags it would give. -/
def State.runTiles (s : State) (p : Nat) (x : Plan) (ab : Src × Src) (proj : Option (List (List Nat) × List (List FV))) :
    List Nat → List (Nat × List Byte × Flags)
  | [] => []
  | t :: ts =>
    let r := s.runTile p x ab t (s.tileBytes p x t) (proj.map fun (ps, v) => (ps.drop (64 * t), v))
    (t, r.1, r.2) :: s.runTiles p x ab proj ts

/-- Flags and bookkeeping of one tile as the MMA leaves it: kept at once, or held by the check unit. -/
def State.tileDone (s : State) (p uid : Nat) (enc : BitVec 256) (x : Plan) (g : Option Guard) (rung : Nat) (up : Bool)
    (r : Nat × List Byte × Flags) : State :=
  let shadow := if x.overwrite then [] else s.tileBytes p x r.1
  let reads := s.checkReads p uid x r.1
  let picked := (s.selected p uid x).contains r.1
  let s := s.setAcc p (x.tileAt r.1).1 r.2.1
  match g with
  | none => s.addFlags p 0 r.2.2
  | some g =>
    if picked then
      let c := s.core p
      s.setCore p { c with checks := c.checks ++ [⟨enc, r.1, reads, rung, shadow, false, r.2.2, g.layer, up⟩] }
    else (s.addFlags p 0 r.2.2).countEscalated uid g.layer rung up

/-- The matrix engine's run of an MMA or an unrolled or expanded CONV. -/
def State.runMma (s : State) (p uid : Nat) (enc : BitVec 256) (x : Plan) : State :=
  let g := s.guardAt p x
  let rung := s.firstRung p uid x
  let ab := srcsAt x g rung
  let side := g.bind fun g => (s.sidecarAt p g).map fun h => (h, s.projection p x g h ab.1)
  let proj := side.map fun (h, q) => (q.1.rows, s.sideV p h)
  let tiles := s.runTiles p x ab proj (List.range x.tiles)
  let up := match g with
    | some g => x.cls < rung && (s.layerSet uid g.layer).start < rung
    | none => false
  let c := s.engineCycles p x ab x.m
  let s := match side with
    | some (h, q) =>
      let s := c.1.setCore p { c.1.core p with proj := some q.1 }
      s.addP (P.JOB_CORE_SIDESTALL p) (sideCycles q.2 x.m x.k h.rank - c.2)
    | none => c.1
  let s := tiles.foldl (fun s r => s.tileDone p uid enc x g rung up r) s
  (s.windowCounts p x 0 x.m).clearPartial p x

/-! ## MMA (Table TP-7) -/

def aligned64 (n : Nat) : Bool := n % 64 == 0

def mmaLegal (enc : BitVec 256) : Bool :=
  let x := mmaPlan enc
  1 ≤ x.aFmt && x.aFmt ≤ 9 && 1 ≤ x.wFmt && x.wFmt ≤ 9 && fieldOf enc 2 1 / 8 == 0 && fieldOf enc 3 1 / 16 == 0 &&
    aligned64 x.actAddr && aligned64 x.w && 1 ≤ x.m && x.m ≤ 1024 && 1 ≤ x.k && (x.guard == noSrc || aligned64 x.guard) &&
    fieldOf enc 24 8 == 0

/-- The resource an MMA's operands break: kinds 1, 2 and 5 of Table TP-15. A descriptor out of range breaks R132 instead. -/
def State.planOver (s : State) (p uid : Nat) (x : Plan) (g : Program) : Nat :=
  if s.guardBad p uid x then
    g.overRows (x.accRows :: rowOne false x.guard 64 :: (match s.guardAt p x with
      | some h => if h.sidecar then [rowOne false h.side 16] else []
      | none => []) ++ x.srcRuns (srcsAt x none x.cls) 0 x.m)
  else
    let proj := match (s.guardAt p x).bind (s.sidecarAt p) with
      | some h => decide (32768 < x.m * h.rank)
      | none => false
    lowestKind ((proj, 5) :: (x.accRows :: s.planReads p uid x).map g.breaks)

/-- Must an MMA wait: for a hazard, or for the check unit's room (R124)? -/
def State.mmaWait (s : State) (p uid : Nat) (x : Plan) : Bool :=
  s.checkWait p (s.planReads p uid x) [x.accRows] ||
    (!(s.selected p uid x).isEmpty && 4 ≤ (s.core p).checks.length)

def State.mmaBody (s : State) (p : Nat) (enc : BitVec 256) (j : Job) : TileRes :=
  let x := mmaPlan enc
  if s.guardBad p j.uid x then .fault Code.GUARD_TABLE_BAD 0
  else if s.mmaWait p j.uid x then .wait
  else .done (s.runMma p j.uid enc x)

/-- MMA. -/
def execMma (core : Nat) (enc : BitVec 256) (s : State) : Res :=
  s.issue core enc (.mma core enc) 0x300
    (fun g j => ⟨opRow enc 3, mmaLegal enc, if mmaLegal enc then s.planOver core j.uid (mmaPlan enc) g else 0⟩)
    (fun _ j => s.mmaBody core enc j)

end Sys2Proof.Machine
end

