-- ==== Sys2Proof/Machine/VectorMath.lean ====
section
/-! DEFINITION. The arithmetic of the vector unit (R160 to R168, 09_vector_special.md) on rows of FP32 words, and pooling
(R156, 08_convolution.md). -/

namespace Sys2Proof.Machine

open Sys2Proof

/-- A source element widened into FP32 (R160, R107): its word and the flags of a widening that overflows or rounds. -/
def widenSource (v : FV) : Nat × Flags :=
  match v with
  | .nan => (0x7FC00000, 0)
  | _ => deliverIeee fmtFP32 v

/-- A row of source elements as words, with the flags of their widening. -/
def widenRow (vs : List FV) : List Nat × Flags :=
  let l := vs.map widenSource
  (l.map (·.1), l.foldl (fun a x => a ||| x.2) 0)

/-- A word delivered as it is, a NaN as the canonical NaN (R98). -/
def fpCopy (a : Nat) : Nat × Flags := if fvIsNan (fp a) then (0x7FC00000, flagNV) else (a, 0)

/-- A row of results and the OR of their flags. -/
def collect (l : List (Nat × Flags)) : List Nat × Flags := (l.map (·.1), l.foldl (fun a x => a ||| x.2) 0)

/-! ## Lane order (R161) -/

/-- Pairs of neighbours combined: one of the seven levels. -/
def pairUp {α : Type} (f : α → α → α) : List α → List α
  | a :: b :: t => f a b :: pairUp f t
  | l => l

def pairUpN {α : Type} (f : α → α → α) : Nat → List α → List α
  | 0, l => l
  | n + 1, l => pairUpN f n (pairUp f l)

/-- The elements of lane `i`: those at columns i, i + 128, … -/
def laneOf {α : Type} (l : List α) (i : Nat) : List α :=
  (l.zipIdx.filter fun (_, c) => c % 128 == i).map (·.1)

/-- A reduction in lane order: each lane folded in increasing column, then the lanes pairwise. -/
def laneReduce {α β : Type} (start : α → β) (step : β → α → β) (comb : β → β → β) (l : List α) : Option β :=
  let lanes := (List.range (min 128 l.length)).filterMap fun i =>
    match laneOf l i with
    | [] => none
    | x :: t => some (t.foldl step (start x))
  (pairUpN comb 7 lanes).head?

/-- A flagged binary operation lifted to words that carry their flags. -/
def flagged (op : Nat → Nat → Nat × Flags) (a b : Nat × Flags) : Nat × Flags :=
  let r := op a.1 b.1
  (r.1, r.2 ||| a.2 ||| b.2)

/-- ROWSUM: Σ a in lane order. -/
def rowSum (l : List Nat) : Nat × Flags :=
  (laneReduce fpCopy (fun a x => flagged fpAdd a (x, 0)) (flagged fpAdd) l).getD (0, 0)

/-- ROWMAX: the largest element. -/
def rowMax (l : List Nat) : Nat × Flags :=
  (laneReduce fpCopy (fun a x => flagged fpMax a (x, 0)) (flagged fpMax) l).getD (0, 0)

/-- A lane of the Welford procedure: count, mean, sum of squared deviations, all FP32, and the flags so far (R164). -/
structure Welford where
  n : Nat
  mu : Nat
  m2 : Nat
  fl : Flags
  deriving DecidableEq, Repr

/-- The FP32 word of a small natural number. -/
def fpOfNat (n : Nat) : Nat := (fpOut (.fin false n 0)).1

/-- One element into a lane. -/
def welfordAdd (w : Welford) (x : Nat) : Welford :=
  let n := fpAdd w.n 0x3F800000
  let d := fpSub x w.mu
  let q := fpDiv d.1 n.1
  let mu := fpAdd w.mu q.1
  let y := fpSub x mu.1
  let m2 := fpFma d.1 y.1 w.m2
  ⟨n.1, mu.1, m2.1, w.fl ||| n.2 ||| d.2 ||| q.2 ||| mu.2 ||| y.2 ||| m2.2⟩

/-- Two lanes combined. -/
def welfordComb (a b : Welford) : Welford :=
  let n := fpAdd a.n b.n
  let d := fpSub b.mu a.mu
  let t1 := fpMul d.1 b.n
  let t2 := fpDiv t1.1 n.1
  let mu := fpAdd a.mu t2.1
  let u1 := fpAdd a.m2 b.m2
  let u2 := fpMul d.1 d.1
  let u3 := fpMul a.n b.n
  let u4 := fpMul u2.1 u3.1
  let u5 := fpDiv u4.1 n.1
  let m2 := fpAdd u1.1 u5.1
  ⟨n.1, mu.1, m2.1, a.fl ||| b.fl ||| n.2 ||| d.2 ||| t1.2 ||| t2.2 ||| mu.2 ||| u1.2 ||| u2.2 ||| u3.2 ||| u4.2 ||| u5.2 ||| m2.2⟩

def welfordZero : Welford := ⟨0, 0, 0, 0⟩

/-- ROWSTAT: mean, variance, rstd (R164). -/
def rowStat (scalar : Nat) (l : List Nat) : List Nat × Flags :=
  if l.any (fun x => fvIsNan (fp x) || fvIsInf (fp x)) then ([0x7FC00000, 0x7FC00000, 0x7FC00000], flagNV)
  else
    let w := (laneReduce (welfordAdd welfordZero) welfordAdd welfordComb l).getD welfordZero
    let var := fpDiv w.m2 w.n
    let e := fpAdd var.1 scalar
    let r := (sfuFn 3 e.1).getD (0x7FC00000, flagNV)
    ([w.mu, var.1, r.1], w.fl ||| var.2 ||| e.2 ||| r.2)

/-! ## The soft maximum (R165 to R168) -/

/-- Is a score in range: |s| ≤ 700, or −∞ (R166)? -/
def inRange (s : Nat) : Bool :=
  match fp s with
  | .inf n => n
  | .fin n m e => !dyLt ⟨700, 0⟩ (fvDy (fvAbs (.fin n m e)))
  | .nan => false

def isNegInf (s : Nat) : Bool := fp s == .inf true

/-- An FP32 word as an extended-format code: exact. -/
def extOfFp (w : Nat) : Nat := extOut (fp w)

/-- Was the exponential rounded? Every finite argument but zero gives an irrational result. -/
def expInexact (c : Nat) : Bool :=
  match ext c with
  | .fin _ m _ => m != 0
  | _ => false

/-- What SOFTMAX makes of a row: delivered words, the log-sum-exp word, vector flags, special-function flags,
does it raise SOFTMAX_RANGE, was it recomputed. -/
structure SoftRow where
  out : List Nat
  lse : Nat
  vec : Flags
  sfu : Flags
  range : Bool
  again : Bool
  deriving DecidableEq, Repr

/-- The ordinary computation from the arguments of the exponentials. -/
def softCore (args : List Nat) : List Nat × Nat × Flags × Flags :=
  let es := args.map extExp
  let sum := (laneReduce (fun x => x) extAdd extAdd es).getD 0
  let ps := es.map fun e => fpOut (ext (extDiv e sum))
  (ps.map (·.1), sum, ps.foldl (fun a x => a ||| x.2) flagNX,
    if args.any expInexact then flagNX else 0)

/-- SOFTMAX of one row of scores (R166, R167, Table VEC-2). -/
def softRow (scores : List Nat) (scoreFlags : Flags) : SoftRow :=
  let nan : Nat := 0x7FC00000
  if scores.any (fun s => fvIsNan (fp s)) then
    ⟨scores.map fun _ => nan, nan, scoreFlags ||| flagNV, 0, false, false⟩
  else if scores.any (fun s => fp s == .inf false) then
    ⟨scores.map fun _ => nan, nan, scoreFlags ||| flagNV, 0, true, false⟩
  else if scores.all isNegInf then
    ⟨scores.map fun _ => 0, 0xFF800000, scoreFlags, 0, false, false⟩
  else if scores.all inRange then
    let r := softCore (scores.map extOfFp)
    let l := fpOut (ext (extLn r.2.1))
    ⟨r.1, l.1, scoreFlags ||| r.2.2.1 ||| l.2, r.2.2.2 ||| flagNX, false, false⟩
  else
    let m := scores.foldl (fun a s => (fpMax a s).1) 0xFF800000
    let r := softCore (scores.map fun s => extSub (extOfFp s) (extOfFp m))
    let l := fpOut (ext (extAdd (extOfFp m) (extLn r.2.1)))
    ⟨r.1, l.1, scoreFlags ||| r.2.2.1 ||| l.2 ||| flagNV, r.2.2.2 ||| flagNX, true, true⟩

/-- SOFTMAX_LSE of one element: exp(s − lse) formed in the internal format (R168). -/
def softLse (s lse : Nat) : Nat × Flags × Flags :=
  let d := extSub (extOfFp s) (extOfFp lse)
  let p := fpOut (ext (extExp d))
  (p.1, p.2, if expInexact d then flagNX else 0)

/-! ## Pooling (Table CNV-4) -/

/-- The pool of the in-bounds taps of one channel: OPERATION 1 the largest, 2 the average. -/
def poolTaps (op divisor : Nat) (taps : List Nat) : Nat × Flags :=
  if taps.isEmpty then (0, 0)
  else if taps.any (fun x => fvIsNan (fp x)) then (0x7FC00000, flagNV)
  else if op = 1 then
    (taps.foldl (fun a x => (fpMax a x).1) 0xFF800000, 0)
  else
    let s := (taps.drop 1).foldl (fun a x => flagged fpAdd a (x, 0)) (taps.headD 0, 0)
    let d := fpDiv s.1 (fpOfNat divisor)
    (d.1, s.2 ||| d.2)

end Sys2Proof.Machine
end

