-- ==== Sys2Proof/Machine/Attention.lean ====
section
/-! DEFINITION. ATTN_SCAN and the retrieval engine (Tables TP-11 and KV-7, R173, R174, R188 to R199). -/

namespace Sys2Proof.Machine

open Sys2Proof

/-! ## The encoding and the list header -/

def attnRow (enc : BitVec 256) : Nat := if fieldOf enc 0 1 = 7 then 0x700 + bits (fieldOf enc 1 1) 2 2 else 0

def attnHeads (enc : BitVec 256) : Nat := 2 ^ (fieldOf enc 1 1 % 4)
def attnBack (enc : BitVec 256) : Bool := bit (fieldOf enc 1 1) 2
def attnRows (enc : BitVec 256) : Nat := fieldOf enc 24 2
def attnPages (enc : BitVec 256) : Nat := fieldOf enc 26 2
def attnList (enc : BitVec 256) : Nat := fieldOf enc 16 8

def attnLegal (enc : BitVec 256) : Bool :=
  fieldOf enc 1 1 < 8 && fieldOf enc 1 1 % 4 != 3 && fieldOf enc 2 1 == 0 && fieldOf enc 3 1 < 16 &&
    1 ≤ attnRows enc && attnRows enc ≤ 1024 && 1 ≤ attnPages enc && attnPages enc ≤ 512 && fieldOf enc 28 4 == 0 &&
    (!attnBack enc || fieldOf enc 3 1 == 0)

/-- Row statistics: an FP32 word for each row of each head (R174). -/
def attnStats (enc : BitVec 256) : Rows := rowOne false (fieldOf enc 12 4) (4 * (attnHeads enc * attnRows enc))

def attnJudge (enc : BitVec 256) (g : Program) : Judged := ⟨attnRow enc, attnLegal enc, g.overRows [attnStats enc]⟩

/-- Fields of a list header (Table KV-7). -/
def hdrSelect (h : List Byte) : Bool := bit (leAt h 2 1) 0
def hdrCausal (h : List Byte) : Bool := bit (leAt h 2 1) 1
def hdrWrite (h : List Byte) : Bool := bit (leAt h 2 1) 2
def hdrRead (h : List Byte) : Bool := bit (leAt h 2 1) 3
def hdrFmt (h : List Byte) : Nat := leAt h 3 1
def hdrStore (h : List Byte) : Nat := leAt h 0x18 8

/-- Is LAMBDA a BF16 value from 0 to 1? -/
def lambdaOk (c : Nat) : Bool :=
  match decodeFloat fmtBF16 c with
  | .fin n m e => m == 0 || (!n && !dyLt ⟨1, 0⟩ (fvDy (.fin n m e)))
  | _ => false

/-- Is a list header within Table KV-7 and R195 for the instruction? QBLOCK and SELECTED may keep their values in the copy that
SELECTED receives (R191; log entry 54). -/
def hdrOk (enc : BitVec 256) (h : List Byte) : Bool :=
  let sel := hdrSelect h
  leAt h 0 2 == 1 && leAt h 2 1 < 16 && 1 ≤ hdrFmt h && hdrFmt h ≤ 9 && leAt h 8 4 + attnRows enc ≤ 2 ^ 25 &&
    leAt h 0x0C 1 < 16 && leAt h 0x0D 1 < 16 && leAt h 0x0C 1 + leAt h 0x0D 1 ≤ attnPages enc && leAt h 0x0F 1 == 0 &&
    (if sel then 1 ≤ leAt h 0x0E 1 && leAt h 0x0E 1 ≤ 64 && 1 ≤ leAt h 0x10 4 && leAt h 0x10 4 ≤ 1048576 && !attnBack enc
      else leAt h 0x0E 1 == 0 && leAt h 0x10 4 == 0) &&
    lambdaOk (leAt h 0x14 2) && leAt h 0x16 2 == 0 && leAt h 0x30 16 == 0

/-- The header as SELECTED receives it (R191). -/
def hdrCopy (h : List Byte) : List Byte :=
  h.take 2 ++ leBytes 1 (leAt h 2 1 - 1) ++ (h.drop 3).take 11 ++ [0] ++ (h.drop 15).take 1 ++ [0, 0, 0, 0] ++ h.drop 20

/-- The null page. -/
def nullPage : Nat := 0xFFFFFFFF

def State.setScan (s : State) (p : Nat) (x : Scan) : State := s.setCore p { s.core p with scan := some x }

/-- The virtual ranges of a scan that R139 orders. -/
def attnRanges (enc : BitVec 256) (h : List Byte) : List (Nat × Nat) :=
  let n := if hdrSelect h then leAt h 0x10 4 else attnPages enc
  (attnList enc, 64 + 4 * n) :: (if hdrStore h = 0 then [] else [(hdrStore h, attnHeads enc * attnPages enc * attnRows enc * 256)]) ++
    (if hdrSelect h then (leAt h 0x20 8, 256 * leAt h 0x0E 1) ::
      (if leAt h 0x28 8 = 0 then [] else [(leAt h 0x28 8, 64 + 4 * attnPages enc)]) else [])

/-! ## The list's pages (R180, R195, R199) -/

/-- What the entries of a list come to. -/
inductive ListPages where
  | ok
  | bad
  | lost
  | poisoned
  deriving DecidableEq, Repr

/-- The entries that are not the null page. -/
def realIds (ids : List Nat) : List Nat := ids.filter (· != nullPage)

/-- Is an entry one a context may not pin? -/
def State.entryBad (s : State) (ctx fmt id : Nat) : Bool :=
  match s.kvNamed id with
  | none => true
  | some (_, q) => s.kvHeld ctx id == 0 || q.state == 1 || q.state == 3 || (q.sealPending && q.owner != ctx) || q.format != fmt

/-- The FORMAT of the first page of a list. -/
def State.listFmt (s : State) (ids : List Nat) : Nat :=
  match realIds ids with
  | id :: _ => (s.kvPage (id % 2 ^ 24)).format
  | [] => 0

def State.judgeList (s : State) (ctx : Nat) (ids : List Nat) : ListPages :=
  let st (n : Nat) : Bool := (realIds ids).any fun id => (s.kvPage (id % 2 ^ 24)).state == n
  if (realIds ids).any (s.entryBad ctx (s.listFmt ids)) then .bad
  else if st 5 then .lost
  else if st 4 then .poisoned
  else .ok

/-- The first page of a list without room for its pins (R180). -/
def State.pinShort (s : State) (ids : List Nat) : Option Nat :=
  ((realIds ids).map (· % 2 ^ 24)).find? fun i => 65535 < (s.kvPage i).pins + ((realIds ids).filter (· % 2 ^ 24 == i)).length

/-- The list resolved: its pages pinned, and SELECTED written (R191). A pin without room waits at the page unit. -/
def State.attnPin (s : State) (cmd : Instr) (p : Nat) (g : Program) (uid : Nat) (x : Scan) : TileRes :=
  match s.judgeList g.ctx x.ids with
  | .bad => .fault Code.KV_LIST_BAD 0
  | .lost => .fault Code.KV_PAGE_LOST 0
  | .poisoned => .stop ((s.setScan p x).countStall cmd |>.hold cmd)
  | .ok =>
    match s.pinShort x.ids with
    | some i =>
      let s := (s.setScan p x).addF (F.MEM_KVU_PIN_WAITS_COUNT (i % 4)) 1
      .stop { s with kv.pinWaits := s.kv.pinWaits ++ [(i, cmd)] }
    | none =>
      let go (s : State) : TileRes :=
        .stop (((realIds x.ids).foldl (fun s id => s.kvPin (id % 2 ^ 24)) (s.setScan p { x with stage := 2 })).hold cmd)
      let sel := leAt x.hdr 0x28 8
      if hdrSelect x.hdr && sel ≠ 0 then
        (s.vWrite g.ctx uid sel (hdrCopy x.hdr ++ x.ids.flatMap (leBytes 4))).tile go
      else go s

/-- A scan begins: its header and entries read, retrieval asked for in select mode (R191). -/
def State.attnStart (s : State) (cmd : Instr) (p : Nat) (enc : BitVec 256) (g : Program) (uid : Nat) : TileRes :=
  let va := attnList enc
  if s.kvPart.isNone || va % 64 ≠ 0 then .fault Code.KV_LIST_BAD 0
  else
    s.readTile cmd p g.ctx uid va 64 fun h s =>
      if !hdrOk enc h then .fault Code.KV_LIST_BAD 0
      else if (attnRanges enc h).any fun (a, n) => s.collWait p a n then .wait
      else
        let n := if hdrSelect h then leAt h 0x10 4 else attnPages enc
        s.readTile cmd p g.ctx uid (va + 64) (4 * n) fun es s =>
          let ids := wordsOf es
          if hdrSelect h then
            s.readTile cmd p g.ctx uid (leAt h 0x20 8) (256 * leAt h 0x0E 1) fun qb s =>
              let s := s.setScan p ⟨attnPages enc, h, ids, qb, [], 0⟩
              .stop ({ s with kv.asked := s.kv.asked ++ [p] }.hold cmd)
          else s.attnPin cmd p g uid ⟨attnPages enc, h, [], [], ids, 1⟩

/-! ## Operands, once D is known (R174, R191) -/

def up64 (n : Nat) : Nat := (n + 63) / 64 * 64

def attnQ (enc : BitVec 256) (h : List Byte) (d : Nat) : Rows :=
  ⟨false, fieldOf enc 4 4, attnHeads enc * attnRows enc, rowBytes (hdrFmt h) d, up64 (rowBytes (hdrFmt h) d)⟩

def attnOut (enc : BitVec 256) (d : Nat) : Rows :=
  if attnBack enc then rowOne false (fieldOf enc 8 4) (attnHeads enc * attnPages enc * attnRows enc * 512)
  else ⟨false, fieldOf enc 8 4, attnHeads enc * attnRows enc, 2 * d, up64 (2 * d)⟩

/-- The accumulator tiles of a forward scan. -/
def attnAcc (enc : BitVec 256) (d : Nat) : Rows :=
  rowOne true (fieldOf enc 3 1 * 16384) (attnHeads enc * ceilDiv (attnRows enc) 64 * ceilDiv d 64 * 16384)

/-- What a scan reads and what it writes. -/
def attnUses (enc : BitVec 256) (h : List Byte) (d : Nat) : List Rows × List Rows :=
  if attnBack enc then ([attnQ enc h d, attnStats enc], [attnOut enc d])
  else ([attnQ enc h d], [attnOut enc d, attnStats enc, attnAcc enc d])

/-! ## Scores and statistics (R192, R193) -/

/-- The format of a row sum: the extended format with a 15-bit exponent. -/
def fmtWide : FloatFmt := ⟨15, 23, 16383, 32766, 0x7FFFFF, true, true, 0x3FFFC00000⟩

/-- A term added to a row sum. -/
def wideAdd (sum e : Nat) : Nat := (deliverIeee fmtWide (fvAdd (decodeFloat fmtWide sum) (ext e))).1

/-- ln of a row sum in the extended format, within 2⁻¹⁴ (R168; log entry 4). -/
def wideLn (c : Nat) : Nat :=
  match decodeFloat fmtWide c with
  | .fin n m e =>
    if m = 0 || n then infCode fmtExt true
    else
      let d := lnApprox (fvDy (.fin n m e))
      let free := Config.extLn (2 ^ 40 + c) % 2 ^ 35
      if extWithin free d ⟨1, -14⟩ then free else extOut (dyFv false d)
  | _ => fmtExt.nanCode

/-- A row's log-sum-exp from its unmasked scores in order, its vector flags, and whether SOFTMAX_RANGE is raised. -/
def attnStat (ws : List Nat) : Nat × Flags × Bool :=
  if ws.any (fun w => fvIsNan (fp w)) then (0x7FC00000, flagNV, false)
  else if ws.any (fun w => fp w == .inf false) then (0x7FC00000, flagNV, true)
  else if ws.all isNegInf then (0xFF800000, 0, false)
  else if ws.all inRange then
    let sum := ws.foldl (fun a w => wideAdd a (extExp (extOfFp w))) 0
    ((fpOut (ext (wideLn sum))).1, 0, false)
  else
    let m := extOfFp (ws.foldl (fun a w => (fpMax a w).1) 0xFF800000)
    let sum := ws.foldl (fun a w => wideAdd a (extExp (extSub (extOfFp w) m))) 0
    ((fpOut (ext (extAdd m (wideLn sum)))).1, flagNV, true)

/-- p = exp(s − lse) in the internal format, rounded to BF16 (R192, R197). -/
def attnProb (s lse : Nat) : Nat := (narrow fmtBF16 .rne true 0 (ext (extExp (extSub (extOfFp s) (extOfFp lse))))).code

/-- A page of the list as the scan reads it: key rows and value rows, of FILL positions. -/
structure PageData where
  first : Nat
  fill : Nat
  keys : List (List FV)
  vals : List (List FV)
  deriving DecidableEq, Repr

/-- The contents of a page; the value rows are cut to FILL rounded up to 32 (R192). -/
def State.pageData (s : State) (q : KvPage) : PageData :=
  let d := kvDim q.format
  let f := kvFmt q.format
  ⟨q.firstPos, q.fill,
    (List.range q.fill).map fun i => decodeRow f d (s.hbm (q.address + i * kvKRow q.format) (kvKRow q.format)),
    (List.range d).map fun i =>
      (decodeRow f 256 (s.hbm (q.address + kvKBytes q.format + i * kvVRow q.format) (kvVRow q.format))).take ((q.fill + 31) / 32 * 32)⟩

/-- The list's pages in order; none for a null entry. -/
def State.listData (s : State) (ids : List Nat) : List (Option PageData) :=
  ids.map fun id => if id = nullPage then none else some (s.pageData (s.kvPage (id % 2 ^ 24)))

/-- The scores of a row at a page's positions: none where masked; and the matrix flags of the key products. -/
def pageScores (window causal : Bool) (scale pos : Nat) (q : List FV) : Option PageData → List (Option Nat) × Flags
  | none => (List.replicate 256 none, 0)
  | some x =>
    let es := x.keys.map fun k => mmaElement 32 window none 0 q k
    let ss := es.zipIdx.map fun (e, i) => if causal && pos < x.first + i then none else some (fpMul scale e.1).1
    (ss ++ List.replicate (256 - x.fill) none, es.foldl (fun a e => a ||| e.2) 0)

/-- The probabilities of a page's 256 positions as BF16 codes; a row of −∞ scores alone has none (Table VEC-2). -/
def pageProbs (back : Bool) (lse : Nat) (ss : List (Option Nat)) : List Nat :=
  ss.map fun s => match s with
    | none => 0
    | some w => if !back && isNegInf lse then 0 else attnProb w lse

/-- One dimension of a row of p·V over the pages of the list: the first page overwrites (R192). -/
def valueChain (d : Nat) : List (Option PageData × List Nat) → Nat × Flags
  | l => (l.foldl (fun (a : Nat × Flags) x => match x.1 with
      | none => a
      | some y =>
        let ps := (x.2.take ((y.fill + 31) / 32 * 32)).map (decodeFloat fmtBF16)
        let r := mmaElement 32 true none a.1 ps (y.vals.getD d [])
        (r.1, a.2 ||| r.2)) (0, 0))

/-- What a forward scan makes of one query row: accumulator words, log-sum-exp, probabilities by page, matrix flags, vector flags,
SOFTMAX_RANGE raised. -/
structure AttnOut where
  words : List Nat
  lse : Nat
  probs : List (List Nat)
  mat : Flags
  vec : Flags
  range : Bool
  deriving DecidableEq, Repr

def attnRowOut (window causal : Bool) (scale pos dim : Nat) (pages : List (Option PageData)) (q : List FV) : AttnOut :=
  let ss := pages.map (pageScores window causal scale pos q)
  let st := attnStat (ss.flatMap fun x => x.1.filterMap id)
  let ps := ss.map fun x => pageProbs false st.1 x.1
  let vs := (List.range dim).map fun d => valueChain d (pages.zip ps)
  ⟨vs.map (·.1), st.1, ps, (ss.map (·.2) ++ vs.map (·.2)).foldl (fun a f => a ||| f) 0, st.2.1, st.2.2⟩

/-! ## What a scan leaves -/

/-- Is a step a replay (R198)? -/
def State.isReplay (s : State) (uid : Nat) : Bool := match s.stepOf uid with | some st => st.replayed | none => false

/-- The key and value products' cycles in the counters (R194), and the reads of the pages. -/
def State.attnCycles (s : State) (p : Nat) (enc : BitVec 256) (h : List Byte) (passes : Nat) (values : Bool) (q : KvPage) : State :=
  let d := kvDim q.format
  let f := kvFmt q.format
  let key := mmaCycles f (max (classOf (hdrFmt h)) (classOf f)) 32 (attnRows enc) d
  let val := mmaCycles f 2 32 (attnRows enc) ((q.fill + 31) / 32 * 32)
  let nk := attnHeads enc * passes * ceilDiv q.fill 64
  let nv := if values then attnHeads enc * ceilDiv d 64 else 0
  let s := s.addP (P.JOB_CORE_MMA_BUSY p) (nk * key.2.1 + nv * val.2.1)
  let s := s.addP (P.JOB_CORE_WSTALL p) (nk * key.2.2.1 + nv * val.2.2.1)
  let s := s.addP (P.JOB_CORE_PSTALL p) (nk * key.2.2.2 + nv * val.2.2.2)
  let s := s.touch q.address (kvKBytes q.format) false
  if values then s.touch q.address (kvPageBytes q.format) false else s

/-- The descriptors of a list's pages. -/
def State.listPages (s : State) (ids : List Nat) : List KvPage := (realIds ids).map fun id => s.kvPage (id % 2 ^ 24)

/-- The query rows in order: the rows of head 0, then of head 1, … -/
def State.attnQRows (s : State) (p : Nat) (enc : BitVec 256) (h : List Byte) (d : Nat) : List (List FV) :=
  (List.range (attnHeads enc * attnRows enc)).map fun i => decodeRow (hdrFmt h) d (s.rowAt p (attnQ enc h d) i)

/-- A row of accumulator words in the tiles of its head (R191); the columns beyond D are free (log entry 55). -/
def State.putAccRow (s : State) (p : Nat) (enc : BitVec 256) (d r : Nat) (ws : List Nat) : State :=
  let n := ceilDiv d 64
  let i := r % attnRows enc
  let pad := s.freeBytes (4 * (64 * n - d))
  let bs := ws.flatMap (leBytes 4) ++ pad.1
  let tile := fieldOf enc 3 1 + (r / attnRows enc * ceilDiv (attnRows enc) 64 + i / 64) * n
  (List.range n).foldl (fun s c => s.setAcc p ((tile + c) * 16384 + i % 64 * 256) ((bs.drop (256 * c)).take 256)) pad.2

/-- One row of a forward scan delivered: tiles, OUT, STATS, flags (R192 steps 2 to 4). -/
def State.putAttnRow (s : State) (p : Nat) (enc : BitVec 256) (d r : Nat) (o : AttnOut) : State :=
  let b := convertRow 0 1 .rne false (o.words.map fun _ => 0) (o.words.map fp)
  let s := (s.putAccRow p enc d r o.words).setScratch p ((attnOut enc d).addr + r * (attnOut enc d).stride) b.bytes
  let s := s.setScratch p (fieldOf enc 12 4 + 4 * r) (leBytes 4 o.lse)
  let s := (s.addFlags p 0 o.mat).addFlags p 1 (b.flags ||| o.vec)
  if o.range then s.addF (F.JOB_CORE_SOFTMAX_RANGE_COUNT p) 1 else s

/-- The E4M3 bytes of a page's probabilities in the score store (R192 step 5). -/
def storeProbs (ps : List Nat) : List Byte :=
  ps.map fun c => BitVec.ofNat 8 (narrow fmtE4M3 .rne false 0 (decodeFloat fmtBF16 c)).code

/-- The score store's address of head h, entry j, row i (R197): `r` is h × Q_ROWS + i. -/
def scoreAddr (enc : BitVec 256) (base r j : Nat) : Nat :=
  base + ((r / attnRows enc * attnPages enc + j) * attnRows enc + r % attnRows enc) * 256

/-- The scan is complete: its pins are released. -/
def State.attnDone (s : State) (p : Nat) (x : Scan) : State :=
  (s.setCore p { s.core p with scan := none }).unpinScan (some x)

/-- A list of null pages only: every position masked, D not known. -/
def State.attnEmpty (s : State) (p : Nat) (enc : BitVec 256) : State :=
  s.setScratch p (fieldOf enc 12 4) ((List.range (attnHeads enc * attnRows enc)).flatMap fun _ => leBytes 4 0xFF800000)

/-- A forward scan with its pages pinned (R192). -/
def State.attnForward (s : State) (p : Nat) (enc : BitVec 256) (g : Program) (uid : Nat) (x : Scan) : TileRes :=
  let h := x.hdr
  let d := kvDim (s.listFmt x.ids)
  let pages := s.listData x.ids
  let none' := (realIds x.ids).isEmpty
  let outs := if none' then [] else (s.attnQRows p enc h d).zipIdx.map fun (q, r) =>
    attnRowOut (hdrFmt h == 1) (hdrCausal h) (leAt h 4 4) (leAt h 8 4 + r % attnRows enc) d pages q
  let store : List (Nat × List Byte) :=
    if hdrWrite h && hdrStore h ≠ 0 && !s.isReplay uid then
      (List.range (attnHeads enc * attnRows enc)).flatMap fun r => (List.range x.ids.length).map fun j =>
        (scoreAddr enc (hdrStore h) r j, storeProbs (match outs[r]? with
          | some o => o.probs.getD j (List.replicate 256 0)
          | none => List.replicate 256 0))
    else []
  let s := if none' then s.attnEmpty p enc else outs.zipIdx.foldl (fun s (o, r) => s.putAttnRow p enc d r o) s
  let s := (s.listPages x.ids).foldl (fun s q => s.attnCycles p enc h 2 true q) s
  writeAll g.ctx uid (fun s => .done (s.attnDone p x)) store s

/-- The FP32 word of a row's statistic. -/
def State.attnLse (s : State) (p : Nat) (enc : BitVec 256) (r : Nat) : Nat := leNat (s.scratch p (fieldOf enc 12 4 + 4 * r) 4)

/-- A row of a page's BF16 probabilities at OUT (R196). -/
def State.putProbs (s : State) (p : Nat) (enc : BitVec 256) (r j : Nat) (ps : List Nat) : State :=
  s.setScratch p (scoreAddr enc 0 r j * 2 + fieldOf enc 8 4) (ps.flatMap (leBytes 2))

/-- A backward scan that recomputes (R197). -/
def State.attnRecompute (s : State) (p : Nat) (enc : BitVec 256) (x : Scan) : State :=
  let h := x.hdr
  let d := kvDim (s.listFmt x.ids)
  let pages := s.listData x.ids
  let rows := (s.attnQRows p enc h d).zipIdx.map fun (q, r) =>
    (pages.map (pageScores (hdrFmt h == 1) (hdrCausal h) (leAt h 4 4) (leAt h 8 4 + r % attnRows enc) q), s.attnLse p enc r)
  let t := rows.zipIdx.foldl (fun s (o, r) =>
    o.1.zipIdx.foldl (fun s (e, j) => (s.putProbs p enc r j (pageProbs true o.2 e.1)).addFlags p 0 e.2) s) s
  (s.listPages x.ids).foldl (fun s q => s.attnCycles p enc h 1 false q) t

/-- Is a position masked, from the descriptors alone? -/
def State.maskAt (s : State) (causal : Bool) (pos id i : Nat) : Bool :=
  id == nullPage || (let q := s.kvPage (id % 2 ^ 24); q.fill ≤ i || (causal && pos < q.firstPos + i))

/-- A backward scan that reads the score store (R197). -/
def State.attnFromStore (s : State) (cmd : Instr) (p : Nat) (enc : BitVec 256) (g : Program) (uid : Nat) (x : Scan) : TileRes :=
  let n := attnHeads enc * attnRows enc
  let cells := (List.range n).flatMap fun r => (List.range x.ids.length).map fun j => (r, j)
  gatherRows (fun c s k =>
      let rj := cells.getD c (0, 0)
      s.readTile cmd p g.ctx uid (scoreAddr enc (hdrStore x.hdr) rj.1 rj.2) 256 k)
    (fun bs s => .done ((bs.zip cells).foldl (fun s (b, r, j) =>
      s.putProbs p enc r j (b.zipIdx.map fun (y, i) =>
        if s.maskAt (hdrCausal x.hdr) (leAt x.hdr 8 4 + r % attnRows enc) (x.ids.getD j nullPage) i then 0
        else (widen fmtBF16 .rne 0 (decodeFloat fmtE4M3 y.toNat)).code)) s |>.attnDone p x))
    (List.range cells.length) [] s

/-! ## The instruction -/

/-- A scan whose pages are pinned runs, unless a page has been damaged meanwhile (R199) or an operand must wait. -/
def State.attnRun (s : State) (cmd : Instr) (p : Nat) (enc : BitVec 256) (g : Program) (uid : Nat) (x : Scan) : TileRes :=
  let st (n : Nat) : Bool := (realIds x.ids).any fun id => (s.kvPage (id % 2 ^ 24)).state == n
  let d := kvDim (s.listFmt x.ids)
  let u := if (realIds x.ids).isEmpty then (if attnBack enc then ([attnStats enc], [attnOut enc d]) else ([], [attnStats enc]))
    else attnUses enc x.hdr d
  let ovr := g.overRows (u.1 ++ u.2)
  if st 5 then .fault Code.KV_PAGE_LOST 0
  else if ovr ≠ 0 then .fault Code.RESOURCE_OVERFLOW ovr
  else if st 4 then .stop (s.countStall cmd |>.hold cmd)
  else if s.checkWait p u.1 u.2 || (attnRanges enc x.hdr).any fun (a, n) => s.collWait p a n then .wait
  else if !attnBack enc then s.attnForward p enc g uid x
  else if hdrRead x.hdr && hdrStore x.hdr ≠ 0 && !s.isReplay uid then s.attnFromStore cmd p enc g uid x
  else .done ((s.attnRecompute p enc x).attnDone p x)

def State.attnBody (s : State) (cmd : Instr) (p : Nat) (enc : BitVec 256) (g : Program) (j : Job) : TileRes :=
  match (s.core p).scan with
  | none => s.attnStart cmd p enc g j.uid
  | some x =>
    if x.stage = 0 then .wait
    else if x.stage = 1 then s.attnPin cmd p g j.uid x
    else s.attnRun cmd p enc g j.uid x

/-- ATTN_SCAN forward. -/
def execAttnScanForward (core : Nat) (enc : BitVec 256) (s : State) : Res :=
  s.issue core enc (.attnScanForward core enc) 0x700 (fun g _ => attnJudge enc g) (s.attnBody (.attnScanForward core enc) core enc)

/-- ATTN_SCAN backward. -/
def execAttnScanBackward (core : Nat) (enc : BitVec 256) (s : State) : Res :=
  s.issue core enc (.attnScanBackward core enc) 0x701 (fun g _ => attnJudge enc g) (s.attnBody (.attnScanBackward core enc) core enc)

/-! ## Retrieval (R188 to R190) -/

/-- The correctly rounded length of a folded query row (R188). -/
def queryNorm (q : List Nat) : Nat :=
  let sum := q.foldl (fun a w => fvAdd a (fvMul (fp w) (fp w))) fvZero
  match sum with
  | .fin _ m e =>
    if m = 0 then 0
    else
      let odd : Bool := e % 2 != 0
      let mm := (if odd then 2 * m else m) * 2 ^ 64
      let ee : Int := (if odd then e - 1 else e) - 64
      let r := isqrt mm
      (fpOut (.fin false (2 * r + (if r * r = mm then 0 else 1)) (ee / 2 - 1))).1
  | .inf _ => 0x7F800000
  | .nan => 0x7FC00000

/-- The score of a summary against the rows of a query block. -/
def retScore (lambda : Nat) (rows : List (List Nat)) (mean : List Nat) (maxNorm : Nat) : Nat :=
  let one (q : List Nat) : Nat :=
    let dot := (q.zip mean).foldl (fun a (x, y) => (fpFma x y a).1) 0
    (fpAdd dot (fpMul (fpMul lambda (queryNorm q)).1 maxNorm).1).1
  match rows.map one with
  | [] => 0x7FC00000
  | a :: t => t.foldl (fun a b => (fpMax a b).1) a

def bf16Words (bs : List Byte) : List Nat := (chunk 2 (bs.length / 2) bs).map fun b => leNat b * 2 ^ 16

/-- A candidate's score; none where it is skipped before it is scored. -/
def State.candScore (s : State) (ctx lambda : Nat) (rows : List (List Nat)) (id : Nat) : Option Nat :=
  match s.kvNamed id with
  | some (_, q) =>
    if q.state = 2 && !(q.sealPending && q.owner != ctx) && 1 ≤ q.fill then
      let m := s.hbm q.summary 264
      some (retScore lambda rows (bf16Words (m.take 256)) (leAt m 256 4))
    else none
  | none => none

/-- Does score a come before score b in descending order, equal scores not? -/
def scoreAbove (a b : Nat) : Bool := fvLess (fp b) (fp a) && !(fvIsZero (fp a) && fvIsZero (fp b))

/-- A candidate put into the descending order of scores, after those it equals (R189). -/
def insertScore (x : Nat × Nat) : List (Nat × Nat) → List (Nat × Nat)
  | [] => [x]
  | y :: t => if scoreAbove x.2 y.2 then x :: y :: t else y :: insertScore x t

/-- The selected candidate indices, ascending (R189): `elig` holds (index, score) in list order. -/
def selectPages (k head tail : Nat) (elig : List (Nat × Nat)) : List Nat :=
  let n := elig.length
  let forced := (elig.zipIdx.filter fun (_, i) => i < head || n - tail ≤ i).map (·.1.1)
  let rest := elig.filter fun e => !forced.contains e.1
  let best := ((rest.foldl (fun l e => insertScore e l) []).take (k - forced.length)).map (·.1)
  (elig.map (·.1)).filter fun i => forced.contains i || best.contains i

/-- A retrieval request served (R188 to R190). -/
def State.retrieve (s : State) (core ctx : Nat) (x : Scan) : State :=
  let die := core / 272
  let rows := (chunk 256 (leAt x.hdr 0x0E 1) x.qblock).map bf16Words
  let lambda := leAt x.hdr 0x14 2 * 2 ^ 16
  let scores := x.cands.map (s.candScore ctx lambda rows)
  let elig := scores.zipIdx.filterMap fun (c, i) => match c with
    | some w => if fvIsNan (fp w) then none else some (i, w)
    | none => none
  let sel := selectPages x.pages (leAt x.hdr 0x0C 1) (leAt x.hdr 0x0D 1) elig
  let ids := sel.map fun i => x.cands.getD i nullPage
  let s := s.addP (P.MEM_RET_SCANNED die) (scores.filter (·.isSome)).length
  let s := s.addF (F.MEM_RET_SKIPPED_COUNT die) (x.cands.length - elig.length)
  let s := match s.kvPart with
    | some q => x.cands.foldl (fun (s : State) id =>
        s.chargeBytes (q.first * pageBytes + id % 2 ^ s.getF F.MEM_KV_CONFIG_LOG2_DESC * 32) 296) s
    | none => s
  { s with kv.asked := s.kv.asked.erase core }.setScan core
    { x with ids := ids ++ List.replicate (x.pages - ids.length) nullPage, stage := 1 }

/-- RETRIEVAL_COMPLETE: the request of a core, the oldest of its die's engine, is answered. -/
def execRetrievalComplete (core : Nat) (s : State) : Res :=
  if s.kv.asked.find? (fun c => c / 272 == core / 272) ≠ some core then .refused .notDue
  else
    match (s.core core).scan, (s.core core).prog with
    | some x, some g => .next (s.retrieve core g.ctx x)
    | _, _ => .refused .notDue

end Sys2Proof.Machine
end

