-- ==== Sys2Proof/Machine/Sync.lean ====
section
/-! DEFINITION. Groups, barrier objects and SYNC (R265 to R271, R277, R279, 14_collectives_sync.md). -/

namespace Sys2Proof.Machine

open Sys2Proof

/-! ## The tree (R266) -/

/-- The parent's position under root position `t`; none at the root. -/
def treeParent (m f t pos : Nat) : Option Nat :=
  let q := (pos + m - t % m) % m
  if q = 0 then none else some ((t + (q - 1) / f) % m)

/-- The children's positions under root position `t`. -/
def treeChildren (m f t pos : Nat) : List Nat :=
  let q := (pos + m - t % m) % m
  (((List.range f).map fun i => f * q + 1 + i).filter (· < m)).map fun c => (t + c) % m

/-- Ranks of a group: n of R266. -/
def SyncObj.size (o : SyncObj) : Nat := o.members * o.ranks.length

/-- The group rank of a step rank of this member. -/
def SyncObj.groupRank (o : SyncObj) (r : Nat) : Nat := o.self * o.ranks.length + o.ranks.idxOf r

/-! ## Objects -/

def State.syncAt (s : State) (ix : Nat) : Option SyncObj := s.fab.objs.find? (·.index == ix)

def State.setSync (s : State) (o : SyncObj) : State :=
  { s with fab.objs := s.fab.objs.map fun x => if x.index == o.index then o else x }

/-- The object a step has bound to an identifier. -/
def State.boundTo (s : State) (ctx uid ident : Nat) : Option SyncObj :=
  s.fab.objs.find? fun o => o.ctx == ctx && o.job == uid && o.ident == ident

/-- The lowest-numbered free object. -/
def State.freeObj? (s : State) : Nat := ((List.range 4096).find? fun i => s.fab.objs.all (·.index != i)).getD 4095

/-- Class of a context's collective frames: saffron 0, bulk 1 (R270). -/
def State.frameClass (s : State) (ctx : Nat) : Nat := (s.ctx ctx).class_

/-- The port the routing table names from a die toward a device; none for this module. -/
def State.portToward (s : State) (die dst : Nat) : Option Nat :=
  let e := s.routeEntry (6 * die) dst
  if bit e 15 && !bit e 11 then some (bits e 4 0) else none

/-- A SYNC frame to a member. -/
def State.sendSync (s : State) (o : SyncObj) (kind parity : Nat) (can : Bool) (dest : Nat × Nat) (payload : List Byte) : State :=
  s.send (o.index / 1024) (s.frameClass o.ctx) dest.1 4 o.ctx 0
    (dest.2 + o.ident * 2 ^ 8 + kind * 2 ^ 24 + parity * 2 ^ 26 + (if can then 2 ^ 27 else 0)) payload

/-! ## Binding (R267, R268) -/

/-- The two IDs of a member-list entry. -/
def memberOf (e : Nat) : Nat × Nat := (e % 2 ^ 20, e / 2 ^ 20 % 256)

/-- Does a descriptor break R267 for the issuing core's rank? -/
def State.groupBad (s : State) (ctx uid ident desc rank : Nat) (d : List Byte) : Bool :=
  desc % 64 != 0 || !groupForm false d || !bit (leAt d 0x20 128) rank ||
    (1 < leAt d 8 4 && s.fab.objs.any fun o => o.ctx == ctx && o.ident == ident && o.job != uid && 1 < o.members)

/-- A clear object for a group. -/
def objOf (index ctx uid ident desc : Nat) (d : List Byte) (parent : Option (Nat × Nat × Nat)) (children : List (Nat × Nat × Nat)) :
    SyncObj :=
  ⟨index, ctx, uid, ident, desc, leAt d 8 4, leAt d 0x0C 1, leAt d 0x10 4, leAt d 0x14 4, leAt d 4 4, bit (leAt d 2 2) 0,
    leAt d 0x18 8, maskRanks (leAt d 0x20 128), parent, children, 0, [], [], false, true, none, 0, false, 0, [], [], false, 0, none,
    false⟩

/-- A step that has bound a group of several members restarts only with its peers (R296). -/
def State.noteGroup (s : State) (uid members : Nat) : State :=
  if 1 < members then s.mapStep uid fun st => { st with boundGroup := true } else s

/-- The identifier bound: descriptor and entries read, an object taken. -/
def State.bindObj (s : State) (cmd : Instr) (p ident desc : Nat) (g : Program) (j : Job) (k : SyncObj → State → TileRes) : TileRes :=
  let cores := match j.step with | some st => st.cores.length | none => 0
  if 2 * cores ≤ (s.fab.objs.filter (·.job == j.uid)).length then .fault Code.RESOURCE_OVERFLOW 3
  else
    s.readTile cmd p g.ctx j.uid desc 160 fun d s =>
      if s.groupBad g.ctx j.uid ident desc g.rank d then .fault Code.SYNC_GROUP_BAD 0
      else
        let list := leAt d 0x18 8
        let m := leAt d 8 4
        let near := (treeParent m (leAt d 0x0C 1) 0 (leAt d 0x14 4)).toList ++ treeChildren m (leAt d 0x0C 1) 0 (leAt d 0x14 4)
        gatherRows (fun i s k => s.readTile cmd p g.ctx j.uid (list + 4 * (leAt d 0x14 4 :: near).getD i 0) 4 k)
          (fun es s =>
            let ms := es.map fun e => memberOf (leNat e)
            if leNat (es.headD []) ≠ s.deviceId + g.ctx * 2 ^ 20 then .fault Code.SYNC_GROUP_BAD 0
            else
              let far := near.zip (ms.drop 1)
              let o := objOf s.freeObj? g.ctx j.uid ident desc d
                (if leAt d 0x14 4 = 0 then none else far.head?) (if leAt d 0x14 4 = 0 then far else far.drop 1)
              k o (({ s with fab.objs := s.fab.objs ++ [o] }.syncShow g.ctx).noteGroup j.uid m))
          (List.range (near.length + 1)) [] s

/-- The object a SYNC names, bound if it is the identifier's first use in the step. -/
def State.withObj (s : State) (cmd : Instr) (p : Nat) (enc : BitVec 256) (g : Program) (j : Job)
    (k : SyncObj → State → TileRes) : TileRes :=
  let ident := fieldOf enc 4 2
  match s.boundTo g.ctx j.uid ident with
  | some o => if o.desc ≠ fieldOf enc 8 8 || !o.ranks.contains g.rank then .fault Code.SYNC_GROUP_BAD 0 else k o s
  | none => s.bindObj cmd p ident (fieldOf enc 8 8) g j k

/-! ## Phases (R269, R270) -/

/-- The first group condition of Table COL-4 that holds at this member: 3 no REDUCE, 4 a unit out of service, 5 no free window, 6 a port
without REDUCTION; 0 for none. -/
def State.groupCondition (s : State) (o : SyncObj) : Nat :=
  if !o.reduce then 3
  else if (List.range 4).any fun n => s.getF (F.LNK_RED_STATUS_IN_SERVICE n) == 0 then 4
  else if (List.range 4).any fun n => s.getF (F.LNK_RED_STATUS_WINDOWS_FREE n) == 0 then 5
  else if (o.parent.toList ++ o.children).any fun x => match s.portToward (o.index / 1024) x.2.1 with
    | some q => s.getF (F.LNK_PORT_STATUS_REDUCTION q) == 0
    | none => false
  then 6 else 0

/-- The first local ARRIVE of the first phase: a window taken on each die, and the conditions judged (R277, R279). -/
def State.openPhase (s : State) (o : SyncObj) : SyncObj × State :=
  let c := s.groupCondition o
  let o := { o with canReduce := o.canReduce && c == 0, condition := c }
  if o.reduce && c ≠ 4 && c ≠ 5 then
    ({ o with windows := true },
      (List.range 4).foldl (fun s n => s.putF (F.LNK_RED_STATUS_WINDOWS_FREE n) (s.getF (F.LNK_RED_STATUS_WINDOWS_FREE n) - 1))
        { s with fab.winTaken := s.fab.winTaken.map (· + 1) })
  else (o, s)

/-- A phase completed at this member: RELEASE passed on, the fallback settled in the first (R270, R277, R279). -/
def State.completePhase (s : State) (o : SyncObj) (can : Bool) : State :=
  let first : Bool := o.phase == 0
  let s := o.children.foldl (fun s c => s.sendSync o 1 (o.phase % 2) (first && can) c.2 []) s
  let s := if first && !can then s.dropWindows o else s
  s.setSync { o with phase := o.phase + 1, arrived := [], childArrived := [], arriveSent := false,
                     decided := if first then some can else o.decided, windows := o.windows && !(first && !can) }

/-- What follows an arrival: ARRIVE to the parent, or at the root the release. -/
def State.advanceSync (s : State) (o : SyncObj) : State :=
  if o.arrived.length = o.ranks.length && o.childArrived.length = o.children.length then
    match o.parent with
    | none => s.completePhase o o.canReduce
    | some x =>
      if o.arriveSent then s.setSync o
      else (s.sendSync o 0 (o.phase % 2) (o.phase == 0 && o.canReduce) x.2 []).setSync { o with arriveSent := true }
  else s.setSync o

/-- A local rank arrives. -/
def State.arriveLocal (s : State) (o : SyncObj) (rank : Nat) : State :=
  let r := if o.phase = 0 && o.arrived.isEmpty then s.openPhase o else (o, s)
  r.2.advanceSync { r.1 with arrived := r.1.arrived ++ [rank] }

/-! ## SYNC (Table TP-14) -/

def syncLegal (enc : BitVec 256) : Bool := fieldOf enc 2 2 == 0 && fieldOf enc 6 2 == 0 && fieldOf enc 16 16 == 0

/-- Would naming an identifier go beyond the program's barrier slots (Table TP-15, kind 3)? -/
def Program.slotOver (g : Program) (ident : Nat) : Nat :=
  if !g.named.contains ident && min g.barriers 255 ≤ g.named.length then 3 else 0

def syncJudge (enc : BitVec 256) (g : Program) : Judged := ⟨syncRow enc, syncLegal enc, g.slotOver (fieldOf enc 4 2)⟩

/-- A program has named an identifier. -/
def Program.name (g : Program) (ident : Nat) : Program :=
  { g with named := if g.named.contains ident then g.named else g.named ++ [ident], communicated := true }

/-- The phase of a program's last arrival on an identifier noted. -/
def Program.note (g : Program) (ident phase : Nat) : Program :=
  { g with arrived := (ident, phase) :: g.arrived.filter fun e => e.1 != ident }

/-- ARRIVE: counted, or waiting at issue for the phase in which the rank has arrived already. -/
def State.arriveBody (s : State) (cmd : Instr) (p : Nat) (enc : BitVec 256) (g : Program) (j : Job) : TileRes :=
  s.withObj cmd p enc g j fun o s =>
    if o.arrived.contains g.rank then .wait
    else .done ((s.setProg p ((g.name o.ident).note o.ident o.phase)).arriveLocal o g.rank)

/-- WAIT: complete when the phase of the rank's last arrival has completed. -/
def State.waitBody (s : State) (cmd : Instr) (p : Nat) (enc : BitVec 256) (g : Program) (j : Job) : TileRes :=
  s.withObj cmd p enc g j fun o s =>
    match g.arrived.find? fun e => e.1 == o.ident with
    | some e => if e.2 < o.phase then .done (s.setProg p (g.name o.ident)) else .wait
    | none => .done (s.setProg p (g.name o.ident))

/-- Has an object completed a phase? -/
def State.phaseOver (s : State) (ctx uid ident phase : Nat) : Bool :=
  match s.boundTo ctx uid ident with
  | some o => phase < o.phase
  | none => true

/-- ARRIVE_WAIT: the arrival happens once; the instruction completes with the phase. -/
def State.arriveWaitBody (s : State) (cmd : Instr) (p : Nat) (enc : BitVec 256) (g : Program) (j : Job) : TileRes :=
  let n := s.getF (F.JOB_CORE_PROGRAM_NEXT p)
  s.withObj cmd p enc g j fun o s =>
    match g.await with
    | some (i, ph) =>
      if i = n then (if ph < o.phase then .done (s.setProg p { g with await := none }) else .wait)
      else .wait
    | none =>
      if o.arrived.contains g.rank then .wait
      else
        let g' := (g.name o.ident).note o.ident o.phase
        let t := (s.setProg p g').arriveLocal o g.rank
        if t.phaseOver g.ctx j.uid o.ident o.phase then .done t
        else .stop ((t.setProg p { g' with await := some (n, o.phase) }).hold cmd)

/-- ARRIVE. -/
def execArrive (core : Nat) (enc : BitVec 256) (s : State) : Res :=
  s.issue core enc (.arrive core enc) 0xA00 (fun g _ => syncJudge enc g) (s.arriveBody (.arrive core enc) core enc)

/-- WAIT. -/
def execWait (core : Nat) (enc : BitVec 256) (s : State) : Res :=
  s.issue core enc (.wait core enc) 0xA01 (fun g _ => syncJudge enc g) (s.waitBody (.wait core enc) core enc)

/-- ARRIVE_WAIT. -/
def execArriveWait (core : Nat) (enc : BitVec 256) (s : State) : Res :=
  s.issue core enc (.arriveWait core enc) 0xA02 (fun g _ => syncJudge enc g) (s.arriveWaitBody (.arriveWait core enc) core enc)

end Sys2Proof.Machine
end

