-- ==== Sys2Proof/Machine/Coll.lean ====
section
/-! DEFINITION. COLL (R272 to R282, 14_collectives_sync.md): the reduction path, the fallback, direct transfers, completion. -/

namespace Sys2Proof.Machine

open Sys2Proof

/-! ## The encoding (Tables TP-13 and COL-2) -/

def collRow (enc : BitVec 256) : Nat := if fieldOf enc 0 1 = 9 && fieldOf enc 1 1 < 5 then 0x900 + fieldOf enc 1 1 else 0

def collOp (enc : BitVec 256) : Nat := fieldOf enc 1 1
/-- DATA_FMT and TRANSPORT_FMT. -/
def collFmts (enc : BitVec 256) : Nat × Nat := (fieldOf enc 2 1 % 16, fieldOf enc 2 1 / 16)
def collCount (enc : BitVec 256) : Nat := fieldOf enc 20 4
def collRedop (enc : BitVec 256) : Nat := fieldOf enc 26 1
def collReduces (enc : BitVec 256) : Bool := collOp enc < 2
def collCustom (enc : BitVec 256) : Bool := collReduces enc && collRedop enc == 0xFF

def collLegal (enc : BitVec 256) : Bool :=
  let f := collFmts enc
  let red := collReduces enc
  fieldOf enc 3 1 < 8 && (roundingOf (fieldOf enc 3 1 % 4)).isSome && fieldOf enc 10 2 == 0 && fieldOf enc 18 2 == 0 &&
    fieldOf enc 27 5 == 0 && fmtsOk [f.1, f.2] && 1 ≤ collCount enc && (!(isBlockFmt f.1 || isBlockFmt f.2) || collCount enc % 32 == 0) &&
    (if red then (collRedop enc < 3 || collRedop enc == 0xFF) && f.1 ≤ 9 && f.2 ≤ 9 else collRedop enc == 0 && f.1 == f.2)

def collJudge (enc : BitVec 256) (g : Program) : Judged := ⟨collRow enc, collLegal enc, g.slotOver (fieldOf enc 24 2)⟩

/-! ## Values on the way (R276) -/

/-- Rounding of a COLL's encodings: SR is carried out as RNE. -/
def collMode (enc : BitVec 256) : Rounding := if fieldOf enc 3 1 % 4 = 1 then .rtz else .rne

/-- Words encoded in a format, a row padded with zeros to whole blocks. -/
def encodeWords (enc : BitVec 256) (dst : Nat) (ws : List Nat) : Delivered :=
  let n := if isBlockFmt dst then (ws.length + 31) / 32 * 32 else ws.length
  let vs := ws.map fp ++ List.replicate (n - ws.length) fvZero
  convertRow 0 dst (collMode enc) (bit (fieldOf enc 3 1) 2) (vs.map fun _ => 0) vs

/-- A row of `n` elements of a format as FP32 words (R107). -/
def decodeWords (fmt n : Nat) (bs : List Byte) : List Nat := (decodeRow fmt n bs).map fun v => (widenSource v).1

/-- A row re-encoded from one format to another; equal formats carry the bytes. -/
def recode (enc : BitVec 256) (src dst n : Nat) (bs : List Byte) : Delivered :=
  if src = dst then ⟨bs, 0, 0, 0⟩
  else
    let vs := decodeRow src n bs
    convertRow src dst (collMode enc) (bit (fieldOf enc 3 1) 2) (vs.map fun _ => 0) vs

/-- REDOP on two words (R276). -/
def combineWords (redop a b : Nat) : Nat :=
  (if redop = 0 then fpAdd a b else if redop = 1 then fpMax a b else fpMin a b).1

/-- An input put into the accumulators from element `off`; the first input is taken as it is, a NaN as the canonical one. -/
def mergeInput (redop off : Nat) (vs : List Nat) (acc : List (Option Nat)) : List (Option Nat) :=
  acc.zipIdx.map fun (x, i) =>
    if off ≤ i && i < off + vs.length then
      (match x with
        | some a => some (combineWords redop a (vs.getD (i - off) 0))
        | none => some (fpCopy (vs.getD (i - off) 0)).1)
    else x

/-- Known words put at element `off`. -/
def mergeKnown (off : Nat) (vs : List Nat) (res : List (Option Nat)) : List (Option Nat) :=
  res.zipIdx.map fun (x, i) => if off ≤ i && i < off + vs.length then some (vs.getD (i - off) 0) else x

/-- All the words of a list, when each is known. -/
def allKnown (l : List (Option Nat)) : Option (List Nat) := if l.all (·.isSome) then some (l.filterMap id) else none

/-! ## Runs -/

/-- Elements of the vector that the reduction or the ring works on. -/
def collVector (enc : BitVec 256) (n : Nat) : Nat := if collOp enc = 0 then collCount enc else n * collCount enc

/-- Does a COLL take the main reduction path? -/
def CollRun.main (r : CollRun) : Bool := collReduces r.enc && !r.fallback
/-- Does it run the ring? -/
def CollRun.ring (r : CollRun) : Bool := collReduces r.enc && r.fallback && !collCustom r.enc

/-- The pieces of 1,024 elements of a vector. -/
def piecesOfVector (v : Nat) : List CollPiece :=
  (List.range (ceilDiv v 1024)).map fun i =>
    let n := min 1024 (v - 1024 * i)
    ⟨i, List.replicate n none, [], List.replicate n none, false⟩

/-- Bytes of one segment of DST in a direct transfer, and how many segments there are. -/
def directShape (enc : BitVec 256) (n : Nat) : Nat × Nat :=
  let one := rowBytes (collFmts enc).1 (collCount enc)
  if collCustom enc then (if collOp enc = 0 then one else n * one, n)
  else if collOp enc = 4 then (one, 1) else (one, n)

/-- The pieces of a rank's DST: 1,024 elements each, counted from the start of each segment (R282). -/
def dstPieces (enc : BitVec 256) (o : SyncObj) (direct : Bool) (dst : Nat) : List DstPiece :=
  let df := (collFmts enc).1
  let step := rowBytes df 1024
  if direct then
    let sh := directShape enc o.size
    (List.range sh.2).flatMap fun q => (List.range (ceilDiv sh.1 step)).map fun i =>
      let b := min step (sh.1 - step * i)
      ⟨dst + q * sh.1 + step * i, b, b, 0, 0⟩
  else
    (List.range (ceilDiv (collCount enc) 1024)).map fun i =>
      let n := min 1024 (collCount enc - 1024 * i)
      ⟨dst + step * i, rowBytes df n, rowBytes df n, 1024 * i, n⟩

/-- The element of the vector at which a rank's DST begins. -/
def dstBase (o : SyncObj) (r : CollRun) (q : CollPart) : Nat := if r.op = 1 then o.groupRank q.rank * collCount r.enc else 0

/-- Result words of a range of the vector, when every one is known. -/
def CollRun.known (r : CollRun) (e n : Nat) : Option (List Nat) :=
  let ps := (r.pieces.drop (e / 1024)).take (n / 1024 + 2)
  allKnown (((ps.flatMap (·.res)).drop (e % 1024)).take n)

/-- Bytes written somewhere subtracted from the pieces of DST they fall in. -/
def landBytes (a n : Nat) (l : List DstPiece) : List DstPiece :=
  (l.map fun x =>
    let lo := max a x.addr
    let hi := min (a + n) (x.addr + x.bytes)
    { x with left := x.left - (hi - lo) }).filter fun x => x.left != 0

/-- The saturated and flushed elements of a COLL's encodings, counted at a core's program (R276). -/
def State.collCounts (s : State) (core : Nat) (d : Delivered) : State := s.addCounts core d.sat d.flushed

/-- What one part of a run can write now: its pieces of DST whose words are all known. -/
def partReady (o : SyncObj) (r : CollRun) (q : CollPart) : List (Nat × Delivered) :=
  q.todo.filterMap fun x => match r.known (dstBase o r q + x.elem) x.count with
    | some ws => some (x.addr, encodeWords r.enc (collFmts r.enc).1 ws)
    | none => none

/-- Results that are known written to the DST of the local ranks: the run, the counts made, and the writes, one for each byte
(R275, R282). -/
def State.deliverWords (s : State) (o : SyncObj) (r : CollRun) : CollRun × State × List (Nat × List Byte) :=
  let ready := r.parts.map fun q => (q.core, partReady o r q)
  let s := ready.foldl (fun s (c, l) => l.foldl (fun s x => s.collCounts c x.2) s) s
  let parts := r.parts.map fun q =>
    { q with todo := q.todo.filter fun x => (r.known (dstBase o r q + x.elem) x.count).isNone }
  ({ r with parts := parts }, s, ((ready.flatMap fun x => x.2).map fun x => (x.1, x.2.bytes)).eraseDups)

/-! ## Frames -/

/-- Payload bytes of a frame toward a device: the settled MAX_FRAME of the port named for it (R278). -/
def State.maxFrame (s : State) (die dst : Nat) : Nat :=
  match s.portToward die dst with
  | some q => 256 * 2 ^ s.getF (F.LNK_PORT_STATUS_MAX_FRAME q)
  | none => 2048

/-- A message: frames under one TAG, the last with MSG_LAST. -/
def State.sendMsg (s : State) (die cls dst typ ctx fields : Nat) (cuts : List (Nat × List Byte)) : State :=
  let tag := s.fab.tag
  let s := { s with fab.tag := (tag + 1) % 2 ^ 32 }
  let n := cuts.length
  cuts.zipIdx.foldl (fun s ((a, bs), i) =>
    s.inject die ⟨cls, 0, dst, s.deviceId, typ, 0, 8, ctx, a, tag, if i + 1 = n then 1 else 0, fields, bs⟩) s

/-- Bytes cut into frames at rising addresses; an empty message is one frame. -/
def cutBytes (limit addr : Nat) (bs : List Byte) : List (Nat × List Byte) :=
  if bs.isEmpty then [(addr, [])]
  else (chunk limit (ceilDiv bs.length limit) bs).zipIdx.map fun (b, i) => (addr + limit * i, b)

/-- A WRITE message to a member. -/
def State.sendWrite (s : State) (o : SyncObj) (core : Nat) (dest : Nat × Nat) (addr : Nat) (bs : List Byte) : State :=
  let n := s.maxFrame (core / 272) dest.1
  s.sendMsg (core / 272) (s.frameClass o.ctx) dest.1 0 o.ctx 0 (cutBytes n addr bs)

/-- Elements of a frame's share of a piece: a multiple of 64 within the limit. -/
def shareOf (tf limit : Nat) : Nat := max 64 (limit / rowBytes tf 64 * 64)

/-- A piece's elements sent to a member in REDUCE frames (R278, Table COL-3). ADDRESS is where the element would lie if DST held the
whole vector (log entry 58). -/
def State.sendPiece (s : State) (o : SyncObj) (r : CollRun) (down : Bool) (dest : Nat × Nat) (i : Nat) (ws : List Nat) : State :=
  let f := collFmts r.enc
  let die := i % 4
  let n := shareOf f.2 (s.maxFrame die dest.1)
  let dst := match r.parts with | q :: _ => q.dst | [] => 0
  let cuts := (chunk n (ceilDiv ws.length n) ws).zipIdx.map fun (w, c) =>
    (dst + rowBytes f.1 (1024 * i) + rowBytes f.1 (n * c), (encodeWords r.enc f.2 w).bytes)
  s.sendMsg die (s.frameClass o.ctx) dest.1 3 o.ctx
    (dest.2 + f.2 * 2 ^ 8 + collRedop r.enc * 2 ^ 12 + (if down then 2 ^ 14 else 0) + r.serial * 2 ^ 16) cuts

/-- Positions of a member and of everything below it in the barrier tree. -/
def subtree (m f : Nat) : Nat → Nat → List Nat
  | 0, _ => []
  | fuel + 1, pos => pos :: (treeChildren m f 0 pos).flatMap (subtree m f fuel)

/-- Does a piece concern a child: always in an all-reduce, in a reduce-scatter only where a rank below it owns an element (R275)? -/
def pieceFor (o : SyncObj) (r : CollRun) (i child : Nat) : Bool :=
  r.op == 0 || (subtree o.members o.fanout 24 child).any fun pos =>
    let c := o.ranks.length
    let n := collCount r.enc
    rangesMeet (1024 * i) 1024 (pos * c * n) (c * n)

/-- A piece passed down to the children it concerns. -/
def State.passDown (s : State) (o : SyncObj) (r : CollRun) (i : Nat) (ws : List Nat) : State :=
  (o.children.filter fun c => pieceFor o r i c.1).foldl (fun s c => s.sendPiece o r true c.2 i ws) s

/-! ## The reduction path (R274 to R277) -/

/-- The parts not yet combined into a piece, combined. -/
def feedPiece (r : CollRun) (p : CollPiece) : CollPiece :=
  r.parts.foldl (fun p q =>
    if p.got.any (·.1 == 2 * q.rank) then p
    else { p with acc := mergeInput (collRedop r.enc) 0 ((q.vals.drop (1024 * p.index)).take p.acc.length) p.acc,
                  got := p.got ++ [(2 * q.rank, p.acc.length)] }) p

/-- Has a piece every input: each local rank's and each child's? -/
def pieceFull (o : SyncObj) (p : CollPiece) : Bool :=
  o.ranks.all (fun r => p.got.contains (2 * r, p.acc.length)) &&
    o.children.all fun c => p.got.contains (2 * c.1 + 1, p.acc.length)

/-- One piece advanced: what is open is combined; what is full is sent on, to the parent or, at the root, down. `base` is BASE of each
die. -/
def State.stepPiece (s : State) (o : SyncObj) (r : CollRun) (base : List Nat) (p : CollPiece) : CollPiece × List Nat × State :=
  let die := p.index % 4
  let k := p.index / 4
  let p := if !p.sentOn && k < base.getD die 0 + 128 then feedPiece r p else p
  let full := !p.sentOn && pieceFull o p
  let ws := p.acc.filterMap id
  let s := if full && (o.parent.isNone || k < r.parentBase.getD die 0 + 128) then s.addP (P.LNK_RED_PIECES die) 1 else s
  let out : CollPiece × State :=
    if !full then (p, s)
    else match o.parent with
      | none =>
        let d := encodeWords r.enc (collFmts r.enc).2 ws
        let res := decodeWords (collFmts r.enc).2 ws.length d.bytes
        let s := s.collCounts ((r.parts.map (·.core)).headD 0) d
        ({ p with res := res.map some, sentOn := true }, s.passDown o r p.index res)
      | some x =>
        if k < r.parentBase.getD die 0 + 128 then
          let s := s.collCounts ((r.parts.map (·.core)).headD 0) (encodeWords r.enc (collFmts r.enc).2 ws)
          ({ p with sentOn := true }, s.sendPiece o r false x.2 p.index ws)
        else (p, s)
  (out.1, if out.1.sentOn && base.getD die 0 = k then base.set die (k + 1) else base, out.2)

def State.stepPieces (s : State) (o : SyncObj) (r : CollRun) (base : List Nat) :
    List CollPiece → List CollPiece × List Nat × State
  | [] => ([], base, s)
  | p :: t =>
    let a := s.stepPiece o r base p
    let b := State.stepPieces a.2.2 o r a.2.1 t
    (a.1 :: b.1, b.2)

/-- BASE of each die: the lowest k whose result has not been sent on (R277). -/
def CollRun.base (r : CollRun) : List Nat :=
  (List.range 4).map fun d =>
    match r.pieces.find? fun p => p.index % 4 == d && !p.sentOn with
    | some p => p.index / 4
    | none => ceilDiv (r.pieces.length - d) 4

/-- CREDIT frames to the children (R277): four BASE values and the SERIAL. -/
def State.sendCredits (s : State) (o : SyncObj) (r : CollRun) : State :=
  o.children.foldl (fun s c => s.sendSync o 2 0 false c.2 (r.base.flatMap (leBytes 4) ++ leBytes 2 r.serial)) s

/-- The pieces of a run on the main path taken as far as they go. -/
def State.runPieces (s : State) (o : SyncObj) (r : CollRun) : CollRun × State × List (Nat × List Byte) :=
  let a := s.stepPieces o r [0, 0, 0, 0] r.pieces
  let r' := { r with pieces := a.1 }
  let s := if r'.base = r.base then a.2.2 else a.2.2.sendCredits o r'
  s.deliverWords o r'

/-! ## Direct transfers (R280 step 2, R281) -/

/-- The bytes a source rank's segment gives a destination rank, and the segment's place in DST. -/
def segmentFor (o : SyncObj) (r : CollRun) (src : Nat) (bytes : List Byte) (dst : Nat) : Option (Nat × List Byte) :=
  let sh := directShape r.enc o.size
  if r.op = 4 then (if src = o.root then some (0, bytes) else none)
  else if r.op = 3 then some (src * sh.1, (bytes.drop (dst * sh.1)).take sh.1)
  else some (src * sh.1, bytes)

/-- Writes of the local ranks' data into the DST of local ranks. -/
def localWrites (o : SyncObj) (r : CollRun) : List (Nat × List Byte) :=
  (r.parts.flatMap fun d => r.parts.filterMap fun q =>
    (segmentFor o r (o.groupRank q.rank) q.src (o.groupRank d.rank)).map fun x => (d.dst + x.1, x.2)).eraseDups

/-- Bytes that a member writes into local DSTs noted as landed. -/
def CollRun.land (r : CollRun) (ws : List (Nat × List Byte)) : CollRun :=
  { r with parts := r.parts.map fun q => { q with todo := ws.foldl (fun t x => landBytes x.1 x.2.length t) q.todo } }

/-- The root position of a broadcast (R266). -/
def SyncObj.bcastRoot (o : SyncObj) : Nat := o.root / o.ranks.length

/-- Positions a member sends to in a direct transfer. -/
def directTo (o : SyncObj) (r : CollRun) : List Nat :=
  if r.op = 4 then treeChildren o.members o.fanout o.bcastRoot o.self else (List.range o.members).filter (· != o.self)

/-- This member's data sent to the other members: the ranks of one member are taken to lie at the same DST as on this one. -/
def State.directSend (s : State) (o : SyncObj) (r : CollRun) : State :=
  if r.op = 4 && o.bcastRoot ≠ o.self then s
  else
    (directTo o r).foldl (fun s pos =>
      let msgs := (r.parts.flatMap fun q => r.parts.filterMap fun d =>
        (segmentFor o r (o.groupRank q.rank) q.src (pos * o.ranks.length + o.ranks.idxOf d.rank)).map fun x => (q.core, d.dst + x.1, x.2)).eraseDups
      msgs.foldl (fun s m => s.sendWrite o m.1 (r.members.getD pos (0, 0)) m.2.1 m.2.2) s) s

/-! ## The ring (R280 step 3) -/

/-- First element and length of ring segment `g`. -/
def ringSeg (r : CollRun) (n g : Nat) : Nat × Nat :=
  if r.op = 1 then (g * collCount r.enc, collCount r.enc)
  else
    let l := ceilDiv (collCount r.enc) n
    (g * l, min l (collCount r.enc - g * l))

/-- The segment whose token is at rank `rho` in step `t`: an all-reduce starts segment g at a rank this manual leaves open, a
reduce-scatter ends it at its owner. -/
def ringAt (r : CollRun) (n t rho : Nat) : Nat :=
  let start := (rho + 2 * n - t) % n
  if r.op = 1 then (start + n - 1) % n else (start + n - Config.ringStart % n) % n

/-- Steps of the ring. -/
def ringLast (r : CollRun) (n : Nat) : Nat := if r.op = 1 then n - 1 else 2 * n - 2

/-- Result words put into the pieces of the vector from element `e`. -/
def CollRun.putWords (r : CollRun) (e : Nat) (ws : List Nat) : CollRun :=
  { r with pieces := r.pieces.map fun p =>
      if rangesMeet e ws.length (1024 * p.index) p.res.length then
        let lo := max e (1024 * p.index)
        { p with res := mergeKnown (lo - 1024 * p.index) ((ws.drop (lo - e)).take (1024 * p.index + p.res.length - lo)) p.res }
      else p }

/-- A token at rank `rho` in step `t` with the words it arrived with: combined while it goes round first, final afterwards; then on to
the next rank, on this member or the next. -/
def State.ringWalk (o : SyncObj) : Nat → Nat → Nat → List Nat → CollRun × State → CollRun × State
  | 0, _, _, _, x => x
  | fuel + 1, t, rho, ws, (r, s) =>
    let n := o.size
    let c := o.ranks.length
    let seg := ringSeg r n (ringAt r n t rho)
    let tf := (collFmts r.enc).2
    match r.parts.find? fun q => o.groupRank q.rank == rho with
    | none => (r, s)
    | some q =>
      let own := (q.vals.drop seg.1).take seg.2
      let v : List Nat × State :=
        if t = 0 then (own.map fun w => (fpCopy w).1, s)
        else if t < n then
          let d := encodeWords r.enc tf ((ws.zip own).map fun (a, b) => combineWords (collRedop r.enc) a b)
          (decodeWords tf seg.2 d.bytes, s.collCounts q.core d)
        else (ws, s)
      let r := if n ≤ t + 1 then r.putWords seg.1 v.1 else r
      if t < ringLast r n then
        let next := (rho + 1) % n
        if next / c = o.self then State.ringWalk o fuel (t + 1) next v.1 (r, v.2)
        else (r, v.2.sendWrite o q.core (r.members.getD (next / c) (0, 0)) (q.dst + rowBytes (collFmts r.enc).1 seg.1)
          (encodeWords r.enc tf v.1).bytes)
      else (r, v.2)

/-- The ring starts: each local rank's token, the last rank's first. -/
def State.ringStart (s : State) (o : SyncObj) (r : CollRun) : CollRun × State :=
  ((List.range o.ranks.length).reverse).foldl (fun x j => State.ringWalk o (2 * o.size) 0 (o.self * o.ranks.length + j) [] x) (r, s)

/-- Messages of the ring that a member receives in all. -/
def ringTotal (o : SyncObj) (r : CollRun) : Nat := if o.members = 1 then 0 else ringLast r o.size

/-- Complete messages of the ring taken in order of arrival (log entry 59). -/
def State.ringTake (o : SyncObj) : Nat → CollRun × State → CollRun × State
  | 0, x => x
  | fuel + 1, (r, s) =>
    match r.msgs with
    | [] => (r, s)
    | (_, fs) :: rest =>
      let t := r.ringIn + 1
      let rho := o.self * o.ranks.length
      let seg := ringSeg r o.size (ringAt r o.size t rho)
      let tf := (collFmts r.enc).2
      let len := (encodeWords r.enc tf (List.replicate seg.2 0)).bytes.length
      let got := fs.foldl (fun a f => a + f.2.length) 0
      if got < len then (r, s)
      else
        let base := fs.foldl (fun a f => min a f.1) (fs.headD (0, [])).1
        let bytes := (fs.foldl (fun st f => storeSetRun zeroByte st (f.1 - base) f.2) ([] : Store Byte))
        let ws := decodeWords tf seg.2 (storeGetRun zeroByte bytes 0 len)
        State.ringTake o fuel (State.ringWalk o (2 * o.size) t rho ws ({ r with msgs := rest, ringIn := t }, s))

/-! ## A run as a whole -/

/-- Is a run complete at this member: every local rank has issued it, DST is complete and nothing is left to send (R282)? -/
def runDone (o : SyncObj) (r : CollRun) : Bool :=
  r.parts.length == o.ranks.length && r.parts.all (·.todo.isEmpty) &&
    (if r.main then r.pieces.all (·.sentOn) else r.ready && (!r.ring || r.ringIn == ringTotal o r))

/-- A run kept in its object, or ended: the group's next SERIAL follows. -/
def State.keepRun (s : State) (ix : Nat) (r : CollRun) : State :=
  match s.syncAt ix with
  | some o =>
    if runDone o r then s.setSync { o with run := none, serial := (o.serial + 1) % 2 ^ 16 } else s.setSync { o with run := some r }
  | none => s

/-- The writes made for a run, and the run kept. -/
def finishRun (o : SyncObj) (x : CollRun × State × List (Nat × List Byte)) : TileRes :=
  writeAll o.ctx o.job (fun s => .done (s.keepRun o.index x.1)) x.2.2 x.2.1

/-- READY has completed: the data goes (R280, R281). -/
def State.runReady (s : State) (o : SyncObj) (r : CollRun) : TileRes :=
  let r := { r with ready := true }
  if r.ring then
    let x := s.ringStart o r
    let y := State.ringTake o (2 * o.size) x
    finishRun o (y.2.deliverWords o y.1)
  else
    let ws := localWrites o r
    finishRun o (r.land ws, s.directSend o r, ws)

/-- A READY phase completed at this member, and passed on to the children. -/
def State.readyOver (s : State) (o : SyncObj) : TileRes :=
  let s := o.children.foldl (fun s c => s.sendSync o 3 (o.readyPhase % 2) false c.2 []) s
  let o := { o with readyPhase := o.readyPhase + 1, readyRanks := [], readyChildren := [], readySent := false }
  match o.run with
  | some r => (s.setSync o).runReady o r
  | none => .done (s.setSync o)

/-- What follows an arrival in the READY phase. -/
def State.advanceReady (s : State) (o : SyncObj) : TileRes :=
  if o.readyRanks.length = o.ranks.length && o.readyChildren.length = o.children.length then
    match o.parent with
    | none => s.readyOver o
    | some x =>
      if o.readySent then .done (s.setSync o)
      else .done ((s.sendSync o 3 (o.readyPhase % 2) false x.2 []).setSync { o with readySent := true })
  else .done (s.setSync o)

/-! ## Issue -/

/-- Do two ranks issue the same COLL: equal but for SRC and DST (R273)? -/
def sameColl (a b : BitVec 256) : Bool :=
  fieldOf a 0 4 == fieldOf b 0 4 && fieldOf a 20 12 == fieldOf b 20 12

/-- The first condition of Table COL-4 that holds for a COLL; 0 for none. -/
def fallbackWhy (o : SyncObj) (enc : BitVec 256) : Nat :=
  if !collReduces enc then 0
  else if collCustom enc then 1
  else if 6 ≤ (collFmts enc).2 then 2
  else if o.decided = some false then (if o.condition = 0 then 7 else o.condition)
  else 0

/-- REDUCTION_UNAVAILABLE and the count of a COLL that takes the fallback (R279). -/
def State.tellFallback (s : State) (o : SyncObj) (why : Nat) : State :=
  let s := s.addF (F.JOB_CTX_COLL_FALLBACK_COUNT o.ctx) 1
  if o.fallbackTold then s
  else
    (s.log Code.REDUCTION_UNAVAILABLE (unitId 1 (o.index / 1024)) (some o.ctx) (o.ident + why * 2 ^ 16) 0).raise 5

/-- A run begun by the first local rank that issues it. -/
def newRun (o : SyncObj) (enc : BitVec 256) (members : List (Nat × Nat)) (why : Nat) : CollRun :=
  ⟨collOp enc, o.serial, enc, [], why != 0, members, if collReduces enc && !collCustom enc then piecesOfVector (collVector enc o.size) else [],
    [0, 0, 0, 0], false, 0, []⟩

/-- A local rank's part: SRC encoded for transport (R276). -/
def partOf (o : SyncObj) (r : CollRun) (rank core dst : Nat) (src : List Byte) : CollPart × Delivered :=
  let f := collFmts r.enc
  let n := collCount r.enc
  let direct := !(r.main || r.ring)
  let segs := if direct then [] else (chunk (rowBytes f.1 n) (if r.op = 0 then 1 else o.size) src).map (recode r.enc f.1 f.2 n)
  (⟨rank, core, src, segs.flatMap fun d => decodeWords f.2 n d.bytes, dst, dstPieces r.enc o direct dst⟩,
    segs.foldl deliveredAppend deliveredNil)

/-- Pieces of a new part that wait for the window, counted at their unit (R277). -/
def State.countWaits (s : State) (r : CollRun) (rank : Nat) : State :=
  (r.pieces.filter fun p => !p.sentOn && !p.got.any (·.1 == 2 * rank)).foldl
    (fun s p => s.addF (F.LNK_RED_CREDIT_WAITS_COUNT (p.index % 4)) 1) s

/-- A part joins the run of its group. -/
def State.joinRun (s : State) (o : SyncObj) (r : CollRun) (rank core dst : Nat) (src : List Byte) : TileRes :=
  let x := partOf o r rank core dst src
  let s := s.collCounts core x.2
  let r := { r with parts := r.parts ++ [x.1] }
  if r.main then
    let y := s.runPieces o r
    finishRun o (y.1, y.2.1.countWaits y.1 rank, y.2.2)
  else s.advanceReady { o with run := some r, readyRanks := o.readyRanks ++ [rank] }

/-- The entries of every member, read by the first rank that issues a transfer that goes to members directly. -/
def State.readMembers (s : State) (cmd : Instr) (p uid : Nat) (o : SyncObj) (direct : Bool) (k : List (Nat × Nat) → State → TileRes) :
    TileRes :=
  if direct && 1 < o.members then
    s.readTile cmd p o.ctx uid o.memberList (4 * o.members) fun bs s => k ((wordsOf bs).map memberOf) s
  else k [] s

/-- COLL: it waits for the group's first phase and for the COLL before it, reads SRC and joins the collective (R273). -/
def State.collBody (s : State) (cmd : Instr) (p : Nat) (enc : BitVec 256) (g : Program) (j : Job) : TileRes :=
  let ident := fieldOf enc 24 2
  match s.boundTo g.ctx j.uid ident with
  | none => .fault Code.SYNC_GROUP_BAD 0
  | some o =>
    let sz := collSizes enc o.size
    let src := fieldOf enc 4 8
    let dst := fieldOf enc 12 8
    let why := fallbackWhy o enc
    let reads := collOp enc != 4 || o.groupRank g.rank == o.root
    if !g.named.contains ident then .fault Code.SYNC_GROUP_BAD 0
    else if o.phase = 0 || s.collWait p src sz.1 || s.collWait p dst sz.2 || s.queueReads p dst sz.2 then .wait
    else
      let go (o : SyncObj) (r : CollRun) (s : State) : TileRes :=
        let s := s.setProg p { g with communicated := true }
        if reads then s.readTile cmd p g.ctx j.uid src sz.1 fun bs s => s.joinRun o r g.rank p dst bs
        else s.joinRun o r g.rank p dst []
      match o.run with
      | some r =>
        if r.parts.any (·.rank == g.rank) || r.parts.length = o.ranks.length then .wait
        else if !sameColl r.enc enc then .fault Code.COLL_MISMATCH 0
        else go o r s
      | none =>
        s.readMembers cmd p j.uid o (!collReduces enc || why != 0) fun ms s =>
          let s := if why = 0 then s else s.tellFallback o why
          let r := newRun o enc ms why
          let o := { o with run := some r, fallbackTold := o.fallbackTold || why != 0 }
          go o r (s.setSync o)

/-- ALL_REDUCE. -/
def execAllReduce (core : Nat) (enc : BitVec 256) (s : State) : Res :=
  s.issue core enc (.allReduce core enc) 0x900 (fun g _ => collJudge enc g) (s.collBody (.allReduce core enc) core enc)

/-- REDUCE_SCATTER. -/
def execReduceScatter (core : Nat) (enc : BitVec 256) (s : State) : Res :=
  s.issue core enc (.reduceScatter core enc) 0x901 (fun g _ => collJudge enc g) (s.collBody (.reduceScatter core enc) core enc)

/-- ALL_GATHER. -/
def execAllGather (core : Nat) (enc : BitVec 256) (s : State) : Res :=
  s.issue core enc (.allGather core enc) 0x902 (fun g _ => collJudge enc g) (s.collBody (.allGather core enc) core enc)

/-- ALL_TO_ALL. -/
def execAllToAll (core : Nat) (enc : BitVec 256) (s : State) : Res :=
  s.issue core enc (.allToAll core enc) 0x903 (fun g _ => collJudge enc g) (s.collBody (.allToAll core enc) core enc)

/-- BROADCAST. -/
def execBroadcast (core : Nat) (enc : BitVec 256) (s : State) : Res :=
  s.issue core enc (.broadcast core enc) 0x904 (fun g _ => collJudge enc g) (s.collBody (.broadcast core enc) core enc)

end Sys2Proof.Machine
end

