-- ==== Sys2Proof/Machine/Conv.lean ====
section
/-! DEFINITION. CONV in its four forms: unrolled, expanded, and pooling (Table TP-8, R147 to R159). -/

namespace Sys2Proof.Machine

open Sys2Proof

/-! ## Legality and limits -/

/-- OPERATION of the window descriptor a CONV names. -/
def State.convOp (s : State) (p : Nat) (enc : BitVec 256) : Nat := leAt (s.convDesc p enc) 0 1

/-- The row of a CONV: 0x400 unrolled, 0x401 expanded, 0x402 max pool, 0x403 average pool; 0 where OPERATION makes it illegal. -/
def State.convCode (s : State) (p : Nat) (enc : BitVec 256) : Nat :=
  if fieldOf enc 0 1 ≠ 4 then 0
  else
    let op := s.convOp p enc
    if bit (fieldOf enc 2 1) 7 then (if op = 0 then 0x401 else 0)
    else if op = 0 then 0x400 else if op = 1 then 0x402 else if op = 2 then 0x403 else 0

/-- The encoding alone is legal. -/
def convEncLegal (enc : BitVec 256) : Bool :=
  let f := fieldOf enc 1 1
  let m := fieldOf enc 2 1
  1 ≤ f % 16 && f % 16 ≤ 9 && 1 ≤ f / 16 && f / 16 ≤ 9 && (roundingOf (bits m 5 4)).isSome && fmtsOk [fieldOf enc 3 1 / 16] &&
    aligned64 (fieldOf enc 4 4) && aligned64 (fieldOf enc 8 4) && aligned64 (fieldOf enc 12 4) &&
    (fieldOf enc 20 4 == noSrc || aligned64 (fieldOf enc 20 4)) && 1 ≤ fieldOf enc 24 2 && fieldOf enc 24 2 ≤ 1024 &&
    1 ≤ fieldOf enc 26 2 && fieldOf enc 28 4 == 0

/-- A pooling CONV's own rules (R156). -/
def poolLegal (enc : BitVec 256) : Bool :=
  let f := fieldOf enc 1 1
  let m := fieldOf enc 2 1
  fieldOf enc 8 4 == 0 && f / 16 == f % 16 && m % 4 == 0 && bit m 2 && fieldOf enc 20 4 == noSrc && !bit m 7

/-- A CONV with the descriptor it names is legal (R147, R148, R156, R157). -/
def State.convLegal (s : State) (p : Nat) (enc : BitVec 256) : Bool :=
  convEncLegal enc &&
    (bit (fieldOf enc 2 1) 7 || windowOk (s.convDesc p enc) (fieldOf enc 1 1 % 16) (fieldOf enc 26 2)) &&
    (s.convOp p enc == 0 || poolLegal enc)

/-- Is a CONV empty: no row present (R155)? An expanded CONV never is. -/
def Plan.empty (x : Plan) : Bool :=
  match x.rows with
  | .window w _ => !w.anyPresent x.m
  | .stored _ _ => false

/-- The rows an epilogue writes: packed at OUT (log entry 49). -/
def convOut (enc : BitVec 256) : Rows :=
  let n := rowBytes (fieldOf enc 3 1 / 16) 64
  ⟨false, fieldOf enc 16 4, fieldOf enc 24 2, n, n⟩

/-- Does a CONV store its tiles to OUT? -/
def hasEpilogue (enc : BitVec 256) : Bool := bit (fieldOf enc 2 1) 3

/-- The resource a CONV breaks. A descriptor outside the scratchpad limit is an overflow before it is read. -/
def State.convOver (s : State) (p : Nat) (enc : BitVec 256) (uid : Nat) (g : Program) : Nat :=
  let x := s.convPlan p enc
  let desc := rowOne false x.desc 64
  let out := if hasEpilogue enc then [convOut enc] else []
  if (g.breaks desc).1 then 1
  else if x.empty then g.overRows (desc :: s.guardRuns p x)
  else if s.convOp p enc = 0 then
    lowestKind [(s.planOver p uid x g ≠ 0, s.planOver p uid x g), (g.overRows out ≠ 0, g.overRows out)]
  else g.overRows (desc :: rowOne true (x.first * 16384) (x.tiles * 16384) :: x.actRows x.actAddr x.aFmt 0 x.m ++ out)

/-- How the sequencer judges a CONV. -/
def State.convJudge (s : State) (p : Nat) (enc : BitVec 256) (g : Program) (j : Job) : Judged :=
  let out := (g.breaks (rowOne false (fieldOf enc 12 4) 64)).1
  ⟨s.convCode p enc, if out then convEncLegal enc else s.convLegal p enc,
    if convEncLegal enc then s.convOver p enc j.uid g else 0⟩

/-! ## The epilogue (R103, R153) -/

/-- The finished tiles stored to OUT by the vector unit. -/
def State.runEpilogue (s : State) (p : Nat) (enc : BitVec 256) : State :=
  let d := convOut enc
  let first := fieldOf enc 3 1 % 16
  let m := fieldOf enc 2 1
  let rows := (List.range d.rows).map fun i => decodeRow 0 64 (s.accBytes p (first * 16384 + 256 * i) 256)
  let r := rows.foldl (fun a vs =>
    let r := a.2.convRow p 0 (fieldOf enc 3 1 / 16) (bits m 5 4) (bits m 6 6) vs
    (a.1 ++ [r.1.bytes], r.2.addDelivered p 1 r.1)) (([] : List (List Byte)), s)
  (r.2.writeRows p d r.1).vecBusy p d.rows

/-- Epilogues of a core that wait for no check any more. -/
def State.serveEpilogue (s : State) (p : Nat) : State :=
  let c := s.core p
  if c.checks.isEmpty then c.epilogue.foldl (fun s e => s.runEpilogue p e) (s.setCore p { c with epilogue := [] }) else s

/-- Every core's epilogue served, where a preemption has dropped the checks it waited for (R125). -/
def State.serveAllEpilogues (s : State) : State :=
  (s.cores.filter fun e => !e.2.epilogue.isEmpty && match e.2.prog with
    | some g => (match s.jobOf g.job with | some j => j.phase == .running | none => false)
    | none => false).foldl (fun s e => s.serveEpilogue e.1) s

/-- A CONV's epilogue, at once or after the checks of its tiles. -/
def State.convFinish (s : State) (p : Nat) (enc : BitVec 256) : State :=
  if hasEpilogue enc then
    let c := s.core p
    (s.setCore p { c with epilogue := c.epilogue ++ [enc] }).serveEpilogue p
  else s

/-- An empty CONV (R155). -/
def State.emptyConv (s : State) (p : Nat) : State :=
  (s.setCore p { s.core p with emptyConv := true }).addF (F.JOB_CORE_CONV_EMPTY_COUNT p) 1

/-! ## Convolutions -/

def State.convWait (s : State) (p : Nat) (enc : BitVec 256) (uid : Nat) : Bool :=
  let x := s.convPlan p enc
  s.mmaWait p uid x || (hasEpilogue enc && s.checkWait p [] [convOut enc])

/-- CONV on the matrix engine, its window unrolled or expanded. -/
def State.convBody (s : State) (p : Nat) (enc : BitVec 256) (j : Job) : TileRes :=
  let x := s.convPlan p enc
  if s.guardBad p j.uid x then .fault Code.GUARD_TABLE_BAD 0
  else if x.empty then (if s.checkWait p [rowOne false x.desc 64] [] then .wait else .done (s.emptyConv p))
  else if s.convWait p enc j.uid then .wait
  else .done ((s.runMma p j.uid enc x).convFinish p enc)

/-- CONV, unrolled. -/
def execConv (core : Nat) (enc : BitVec 256) (s : State) : Res :=
  s.issue core enc (.conv core enc) 0x400 (s.convJudge core enc) (fun _ j => s.convBody core enc j)

/-- CONV in expanded-buffer mode (R157). -/
def execConvExpanded (core : Nat) (enc : BitVec 256) (s : State) : Res :=
  s.issue core enc (.convExpanded core enc) 0x401 (s.convJudge core enc) (fun _ j => s.convBody core enc j)

/-! ## Pooling (R156) -/

/-- One row of a pool: 64 words and the flags. -/
def State.poolRow (s : State) (p : Nat) (w : Window) (addr fmt m : Nat) : List Byte × Flags :=
  if !w.present m then (List.replicate 256 0, 0)
  else
    let vecs := (w.taps m).filterMap fun t => t.map fun o =>
      widenRow (((decodeRow fmt w.c (s.scratch p (addr + o) (rowBytes fmt w.c))).drop w.chBase).take 64)
    let full := w.d.ksize * w.h.ksize * w.w.ksize
    let div := if w.countPad then full else vecs.length
    let es := (List.range 64).map fun n =>
      if w.c ≤ w.chBase + n then ((0 : Nat), (0 : Flags)) else poolTaps w.op div (vecs.map fun v => v.1.getD n 0)
    (es.flatMap fun e => leBytes 4 e.1, es.foldl (fun a e => a ||| e.2) (vecs.foldl (fun a v => a ||| v.2) 0))

/-- A pool over every row, its tiles written. -/
def State.runPool (s : State) (p : Nat) (x : Plan) (w : Window) (addr : Nat) : State :=
  let rows := (List.range (x.tiles * 64)).map fun m => if m < x.m then s.poolRow p w addr x.aFmt m else ([], 0)
  let n := (w.fetched 0 x.m).length
  let s := rows.zipIdx.foldl (fun s (r, m) => (s.setAcc p (x.first * 16384 + 256 * m) r.1).addFlags p 1 r.2) s
  (s.addP (P.JOB_CORE_CONV_VECTORS p) n).vecBusy p (n + 40)

def State.poolBody (s : State) (p : Nat) (enc : BitVec 256) : TileRes :=
  let x := s.convPlan p enc
  let desc := rowOne false x.desc 64
  match x.rows with
  | .stored _ _ => .done s
  | .window w a =>
    if x.empty then (if s.checkWait p [desc] [] then .wait else .done (s.emptyConv p))
    else if s.checkWait p (desc :: x.actRows a x.aFmt 0 x.m)
        (rowOne true (x.first * 16384) (x.tiles * 16384) :: if hasEpilogue enc then [convOut enc] else []) then .wait
    else .done ((s.runPool p x w a).convFinish p enc)

/-- CONV with OPERATION 1. -/
def execMaxPool (core : Nat) (enc : BitVec 256) (s : State) : Res :=
  s.issue core enc (.maxPool core enc) 0x402 (s.convJudge core enc) (fun _ _ => s.poolBody core enc)

/-- CONV with OPERATION 2. -/
def execAveragePool (core : Nat) (enc : BitVec 256) (s : State) : Res :=
  s.issue core enc (.averagePool core enc) 0x403 (s.convJudge core enc) (fun _ _ => s.poolBody core enc)

end Sys2Proof.Machine
end

