-- ==== Sys2Proof/Machine/Image.lean ====
section
/-! DEFINITION. The commands of the structure-image loader and the moves at a full Lull (R40 to R49, R59). -/

namespace Sys2Proof.Machine

open Sys2Proof

/-! ## Starting and cancelling a load (R41, R42, R49) -/

/-- A write of SIL_CONTROL's stored fields. -/
def State.silFields (s : State) (v : Nat) : State :=
  (s.putF F.SIL_CONTROL_SOURCE (bits v 3 2)).putF F.SIL_CONTROL_WAIT (bits v 4 4)

/-- The place of a failure that no check found. -/
def noCheck : Option (Nat × At) := some (0, noSection)

/-- CANCEL: a held image is discarded. -/
def State.silDiscard (s : State) : State :=
  if s.getF F.SIL_STATUS_STATE = 2 then s.endLoad Code.IMAGE_CANCELLED noCheck else s

/-- The bytes a START finds: none where they count as not supplied (R41). -/
def State.silSource (s : State) : List Byte :=
  match s.getF F.SIL_CONTROL_SOURCE with
  | 0 =>
    let a := s.getP P.SIL_SRC_ADDR
    let n := s.getF F.SIL_LENGTH_LENGTH
    if a % 64 ≠ 0 || 2 ^ 30 < a + n || s.poisoned a n then [] else s.hbm a n
  | 1 => s.sec.imageA
  | 2 => s.sec.imageB
  | _ => []

/-- START. -/
def State.silBegin (s : State) : State :=
  if s.getF F.GLB_PROFILE_RETIRE = 1 then s.loadReport Code.DEVICE_RETIRE noCheck
  else if s.getF F.SIL_STATUS_STATE ≠ 0 then s.loadReport Code.IMAGE_BUSY noCheck
  else if s.getF F.SIL_CONTROL_SOURCE = 3 then s.loadReport Code.IMAGE_FORMAT (some (1, noSection))
  else
    { s with img.image := s.silSource, img.wait := s.getF F.SIL_CONTROL_WAIT == 1 }.putF F.SIL_STATUS_STATE 1

/-- SIL_START (R41, R42): a write of SIL_CONTROL with START; CANCEL in the same write acts first. -/
def execSilStart (_req : Requester) (value : Word) (s : State) : Res :=
  let v := value.toNat
  if !bit v 0 then .refused .otherRow
  else .next (let s := s.silFields v; (if bit v 1 then s.silDiscard else s).silBegin)

/-- SIL_CANCEL (R42): a write of SIL_CONTROL without START. -/
def execSilCancel (_req : Requester) (value : Word) (s : State) : Res :=
  let v := value.toNat
  if bit v 0 then .refused .otherRow
  else .next (let s := s.silFields v; if bit v 1 then s.silDiscard else s)

/-! ## Checks and holding (R40, R42) -/

def State.loadFails (s : State) (f : ImageFail) : State := s.endLoad f.code (some (f.check, f.place))

/-- Checks 7 to 9 and, when they pass, the start of application (R43). -/
def State.silApply (s : State) : State :=
  match s.checks7to9 s.img.image with
  | some f => s.loadFails f
  | none => (s.putF F.SIL_STATUS_STATE 3).settleHold

/-- IMAGE_CHECKS_COMPLETE (R40, R41, Table SI-7): with WAIT the image is held after check 5. -/
def execImageChecksComplete (sig : SigVerdict) (s : State) : Res :=
  if s.getF F.SIL_STATUS_STATE ≠ 1 then .refused .notDue
  else
    let img := s.img.image
    .next (match s.checks1to4 img sig with
      | some f => s.loadFails f
      | none =>
        match s.check5 img with
        | some f => s.loadFails f
        | none =>
          let s := { s with img.digest := sig.digest }
          if s.img.wait then (s.putF F.SIL_STATUS_STATE 2).settleHold
          else if !s.momentOk (imageKind img) then s.loadFails ⟨6, Code.IMAGE_NOT_AT_LULL, noSection⟩
          else s.silApply)

/-- HELD_IMAGE_APPLY (R42): at its moment a held image is checked again from check 5. -/
def execHeldImageApply (s : State) : Res :=
  if s.getF F.SIL_STATUS_STATE ≠ 2 || !s.momentOk (imageKind s.img.image) then .refused .notDue
  else .next (match s.check5 s.img.image with
    | some f => s.loadFails f
    | none => s.silApply)

/-! ## Commits (R43 to R46) -/

/-- SIL_ACTIVE_DIGEST takes 48 bytes. -/
def State.putDigest (s : State) (bs : List Byte) : State :=
  (List.range 12).foldl (fun s i => s.setReg (R.SIL_ACTIVE_DIGEST i) (BitVec.ofNat 32 (leAt bs (4 * i) 4))) s

/-- A RWL field takes its value from the PROFILE section, or its reset value where that is 0. -/
def State.putRwl (s : State) (f : Fld) (v : Nat) : State :=
  s.putF f (if v = 0 then bits (regDefault f.off).toNat f.hi f.lo else v)

/-- The values of the RWL fields and the device ID (R45). -/
def State.putProfile (s : State) : State :=
  let p := s.section 1 0
  let s := (s.putRwl F.LNK_HB_MISS_LIMIT_LIMIT (leAt p 7 1)).putRwl F.MEM_THERMAL_CONFIG_T_THROTTLE (leAt p 0x12 1)
  let s := (s.putRwl F.LNK_HB_PERIOD_MS_MS (leAt p 0x13 1)).putF F.PWR_PORT_LP_MASK_MASK (leAt p 0x18 4)
  let s := (s.putRwl F.MEM_FLASH_ALLOWANCE_GIB (leAt p 0x1C 2)).putRwl F.REL_AGING_THRESHOLD_VALUE (leAt p 0x1E 1)
  s.putF F.LNK_DEVICE_ID_ID (leAt p 0 4 % 2 ^ 20)

/-- A die's cache emptied, its dirty lines written back (R205). -/
def State.emptyCache (s : State) (die : Nat) : State :=
  { s.writeBackDie die with mem.cache := s.mem.cache.filter (·.die != die) }

/-- The caches follow the LLM_PARTITION and the memory layout: a die whose SCRATCH_MASK changes, or any die when the partitions
change, starts with empty banks (R205; log entry 27). -/
def State.putScratch (s : State) (relaid : Bool) : State :=
  (List.range 4).foldl (fun s d =>
    let m := leAt (s.section 4 0) (8 * d) 4
    let s := if relaid || m ≠ s.getF (F.MEM_LLM_SCRATCH_MASK d) then s.emptyCache d else s
    s.putF (F.MEM_LLM_SCRATCH_MASK d) m) s

/-- Every bucket of a regulated partition full (R211). -/
def State.fullBuckets (s : State) : State :=
  { s with mem.buckets := s.partitions.zipIdx.flatMap fun (p, i) =>
      if p.rate = 0 then [] else (stacksOf p.stackMask).map fun st => ⟨i, st, bucketCap p⟩ }

/-- MEM_GOLDEN_STATUS follows the golden copy and the DIRTY bits (R242). -/
def State.showGolden (s : State) : State :=
  let same := !s.tier.goldenPages.isEmpty && s.tier.goldenModel == s.getP P.SIL_MODEL_ID
  (s.putF F.MEM_GOLDEN_STATUS_MODEL_MATCH (if same then 1 else 0)).putF F.MEM_GOLDEN_STATUS_DIRTY_PAGES s.tier.dirty.length

/-- Every SHARED_WEIGHTS page dirty. -/
def State.allDirty (s : State) : State :=
  { s with tier.dirty := (List.range (match s.weights with | some w => w.count | none => 0)).map fun i => (i, true) }

/-- The golden copy against the MODEL_ID committed (R242; log entry 28). -/
def State.goldenCommit (s : State) : State :=
  (if s.tier.goldenModel = s.getP P.SIL_MODEL_ID && !s.tier.goldenPages.isEmpty then s else s.allDirty).showGolden

/-- The sealed model key goes to key slot 256 when it names the resident model (R387). -/
def State.loadModelKey (s : State) : State :=
  { s with sec.keyLoaded := match s.sec.modelKey with | some k => k.model == s.getP P.SIL_MODEL_ID | none => false }

/-- Islands that are powered and whose operating point a commit changed are calibrated (Table SI-9). -/
def State.recalibrate (before s : State) : State :=
  (List.range 1220).foldl (fun s i =>
    if s.getF (F.PWR_ISL_STATE_STATE i) ≠ 0 && s.point i ≠ before.point i then s.calibrate i else s) s

/-- A commit of KIND 0 (R43, R45, R46, R205, R300, R387, R388). -/
def State.commitFull (s : State) (img : List Byte) : State :=
  let before := s
  let s := { s with img.sections := (s.mergedImage img).sections, img.header := img.take 128, img.locked := true }
  let s := ((s.putF F.SIL_STATUS_IMAGE_VALID 1).putF F.SIL_STATUS_LOCKED 1).putF F.SIL_STATUS_PROFILE_EXCEEDED 0
  let s := (s.putP P.SIL_ACTIVE_SERIAL (leAt img 0x18 8)).putP P.SIL_MODEL_ID (leAt img 0x20 8)
  let s := s.setReg R.SIL_PATCH_COUNT 0
  let s := if s.policy 5 then s.putF F.SIL_ROLLBACK_VALUE (max (s.getF F.SIL_ROLLBACK_VALUE) (leAt img 0x14 4)) else s
  let s := s.putProfile.putScratch (s.section 5 0 != before.section 5 0)
  let s := { s.fullBuckets.stripeNone with sec.standing := s.section 0x0C 0, rel.withdraw := false }
  s.loadModelKey.goldenCommit.layOut.recalibrate before

/-- A commit of KIND 1 (R35, R205): cores and banks follow the maps; caches of replaced banks are written back. -/
def State.commitSpare (s : State) (m : Merged) : State :=
  let before := s
  let s := { s with img.sections := m.sections }
  let bank (x : State) (d b : Nat) : Nat := leAt (x.section 3 0) (0x110 + 32 * d + b) 1
  let s := (List.range 4).foldl (fun s d =>
    ((List.range 32).filter fun b => bank s d b != bank before d b).foldl (fun s b =>
      if bit (s.getF (F.MEM_LLM_SCRATCH_MASK d)) b then s
      else
        let k := ((List.range b).filter fun x => !bit (s.getF (F.MEM_LLM_SCRATCH_MASK d)) x).length
        let n := (s.mem.cache.filter fun x => x.die == d && x.set / 4096 == k && x.dirty).length
        { s with mem.cache := s.mem.cache.filter fun x => !(x.die == d && x.set / 4096 == k) }.addF (F.MEM_LLM_WRITEBACKS_COUNT d) n) s) s
  (s.addF F.SIL_PATCH_COUNT_VALUE 1).layOut.recalibrate before

/-- A commit of KIND 2 (R44): frames that wait for a port are looked up again. -/
def State.commitRoutes (s : State) (m : Merged) : State :=
  ({ s with img.sections := m.sections }.addF F.SIL_PATCH_COUNT_VALUE 1).rerouteWaiting

/-- A commit of KIND 3 (R45, R306): the identity, and the rebuild of a stripe set's member. -/
def State.commitIdentity (s : State) (m : Merged) : State :=
  let s := ({ s with img.sections := m.sections }.addF F.SIL_PATCH_COUNT_VALUE 1).putProfile.rerouteWaiting
  if s.stripeIds.isEmpty then s else s.rebuildStart

/-- The commit of the image applied, by KIND. -/
def State.silCommit (s : State) : State :=
  let img := s.img.image
  let digest := leBytes 48 s.img.digest.toNat
  let t := match imageKind img with
    | 0 => s.commitFull img
    | 1 => s.commitSpare (s.mergedImage img)
    | 2 => s.commitRoutes (s.mergedImage img)
    | _ => s.commitIdentity (s.mergedImage img)
  (t.putDigest digest).endLoad Code.OK none

/-- IMAGE_APPLY_COMMIT (R43 to R46): the new structure commits in one step; a fault inside the device discards the image, with a
status the manual does not give (log entry 29). -/
def execImageApplyCommit (fault : Bool) (s : State) : Res :=
  if s.getF F.SIL_STATUS_STATE ≠ 3 then .refused .notDue
  else .next (if fault then s.freeNat.2.endLoad s.freeNat.1 noCheck else s.silCommit)

/-! ## Spare patches (R47, R48, R205) -/

/-- The image with physical core `p`'s logical core `l` moved to the spare `q` (R47's example). -/
def State.coreMoved (s : State) (l p q : Nat) : Merged :=
  let m : Merged := ⟨s.img.sections, []⟩
  let m := m.set 2 0 (putBytes (m.get 2 0) (2 * l) (leBytes 2 (2 ^ 15 + q / 272 * 2 ^ 9 + q % 272)))
  let sm := setCoreState (setCoreState (m.get 3 0) p 2) q 0
  let m := m.set 3 0 (withRepairs sm ((repairsOf sm).filter fun r => bits r 10 9 * 272 + bits r 8 0 != p))
  let es := chunk 12 ((m.get 9 0).length / 12) (m.get 9 0)
  let own (i : Nat) (e : List Byte) : Bool := leAt e 0 1 == 1 && leAt e 2 2 == i
  match es.find? (own p) with
  | some e =>
    let rest := es.filter fun x => !own p x && !own q x
    m.set 9 0 ((rest ++ [e.take 2 ++ leBytes 2 q ++ e.drop 4]).flatten)
  | none => m

/-- The image with a die's physical bank `b` replaced by `spare`. -/
def State.bankMoved (s : State) (die b spare : Nat) : Merged :=
  let m : Merged := ⟨s.img.sections, []⟩
  let sm := m.get 3 0
  match (List.range 32).find? fun i => leAt sm (0x110 + 32 * die + i) 1 == b with
  | some i => m.set 3 0 (putBytes sm (0x110 + 32 * die + i) (leBytes 1 spare))
  | none => m

/-- Checks 7 to 9 on the device's own patch. -/
def State.ownPatchCode (s : State) (m : Merged) (img : List Byte) : Nat :=
  if !s.check7 m then Code.IMAGE_PROFILE_MISMATCH
  else if (s.check8 m).isSome then Code.IMAGE_CORE_MAP
  else if (s.check9 img m).isSome then Code.IMAGE_RANGE
  else 0

/-- A header that says KIND 1, for the checks of the device's own patch. -/
def ownPatch : List Byte := leBytes 4 0x51534931 ++ leBytes 2 1 ++ leBytes 2 1

/-- The device's own patch commits: its digest is what the secure controller signed, a free value (log entry 30). -/
def State.ownCommit (s : State) (m : Merged) : State :=
  let t := (s.commitSpare m).freeBytes 48
  t.2.putDigest t.1

/-- A core retired at a full Lull: moved to its spare by a patch, or recorded alone when it serves no longer. -/
def State.retireCore (s : State) (p : Nat) : State :=
  let source := unitId 0xE p
  match s.logicalOf p with
  | none => s.retireUnmapped p source
  | some l =>
    let ready := match s.rel.chosen.find? (·.1 == p) with
      | some c => if (s.sparesFor p).contains c.2 then some c.2 else (s.sparesFor p).head?
      | none => (s.sparesFor p).head?
    match ready with
    | none => { s with rel.coresGone := s.rel.coresGone ++ [p] }.shrinkProfile source
    | some q =>
      let m := s.coreMoved l p q
      let code := s.ownPatchCode m ownPatch
      if code ≠ 0 then { s with rel.retry := s.rel.retry ++ [p] }.log code (unitId 0xA 6) none 0 0
      else
        let s := { s.ownCommit m with rel.coresGone := s.rel.coresGone ++ [p], rel.chosen := s.rel.chosen.filter (·.1 != p) }
        (s.ledgerSwap 0).log Code.CORE_RETIRED source none source (l + q * 2048)

/-- An LLM bank retired at a full Lull: its die's unnamed bank takes its place (R205, R297). -/
def State.retireBank (s : State) (die b : Nat) : State :=
  let named := (List.range 32).map fun i => leAt (s.section 3 0) (0x110 + 32 * die + i) 1
  let source := unitId 0xB (die * 16 + bankGroup b)
  if !s.imageValid || !named.contains b then
    { s with rel.banksGone := s.rel.banksGone ++ [(die, b)] }.ledgerMove 2 F.REL_LEDGER_SPARE_COUNT F.REL_LEDGER_RETIRED_COUNT 1
  else
    match (List.range 33).find? fun x => !named.contains x && !s.rel.banksGone.contains (die, x) with
    | none => (s.log Code.SPARE_EXHAUSTED source none 0 0).retireDevice source
    | some x =>
      let m := s.bankMoved die b x
      let code := s.ownPatchCode m ownPatch
      if code ≠ 0 then { s with rel.retryBanks := s.rel.retryBanks ++ [(die, b)] }.log code (unitId 0xA 6) none 0 0
      else { s.ownCommit m with rel.banksGone := s.rel.banksGone ++ [(die, b)] }.ledgerSwap 2

/-- CORE_RETIRE_PATCH (R47, R48, R56, R205): at a full Lull the oldest retirement due is carried out; a host load that is validated
or applied, or held for the same full Lull, goes first. -/
def execCoreRetirePatch (s : State) : Res :=
  if !s.momentOk 1 || (s.rel.retire.isEmpty && s.rel.retireBanks.isEmpty) then .refused .notDue
  else if s.getF F.SIL_STATUS_STATE = 1 || s.getF F.SIL_STATUS_STATE = 3 ||
      (s.getF F.SIL_STATUS_STATE = 2 && imageKind s.img.image ≤ 1) then .next (s.hold .coreRetirePatch)
  else .next (match s.rel.retire, s.rel.retireBanks with
    | p :: t, _ => ({ s with rel.retire := t }.retireCore p).settleHold.showJobs
    | [], (d, b) :: t => ({ s with rel.retireBanks := t }.retireBank d b).settleHold.showJobs
    | [], [] => s)

/-! ## Withdrawal (R48, R59, R217) -/

/-- Every job ends with CONTEXT_TORN_DOWN and every context returns to FREE with DEVICE_DEGRADED (R59 steps 1 to 3). -/
def State.withdrawContexts (s : State) : State :=
  let s := s.job.jobs.foldl (fun s j => s.endJob j Code.CONTEXT_TORN_DOWN) s
  ((List.range 256).filter fun c => s.ctxState c != 0).foldl (fun s c => s.contextFree c Code.DEVICE_DEGRADED 0) s

/-- Groups of a stack with a fenced pseudo-channel: group g is channels 4g to 4g + 3, pseudo-channels 8g to 8g + 7 (R208, R217). -/
def State.fencedGroups (s : State) (st : Nat) : List Nat :=
  (List.range 8).filter fun g => (List.range 8).any fun i => s.getF (F.MEM_PCH_STATUS_STATE (st * 64 + 8 * g + i)) == 1

/-- A stack re-laid in group mode with its fenced groups retired (R217 step 4). -/
def State.relayStack (s : State) (st : Nat) : State :=
  let gs := s.fencedGroups st
  if gs.isEmpty then s
  else
    let mask := gs.foldl (fun a g => Nat.lor a (2 ^ g)) (s.getF (F.MEM_STACK_STATUS_RETIRED_GROUPS st))
    let s := gs.foldl (fun s g => (List.range 8).foldl (fun s i => s.putF (F.MEM_PCH_STATUS_STATE (st * 64 + 8 * g + i)) 2) s) s
    let s := gs.foldl (fun s _ => s.ledgerMove 5 F.REL_LEDGER_IN_SERVICE_COUNT F.REL_LEDGER_RETIRED_COUNT 1) s
    let left := ((List.range 8).filter fun g => !bit mask g).length
    let was := s.getF (F.MEM_STACK_PAGES_PAGES st)
    let now := if left = 0 then 0 else left * 4096 - 656
    let s := (s.putF (F.MEM_STACK_STATUS_RETIRED_GROUPS st) mask).putF (F.MEM_STACK_STATUS_MODE st) (if left = 0 then 2 else 1)
    let s := (s.putF (F.MEM_STACK_PAGES_PAGES st) now).putF F.GLB_HBM_PAGES_ALLOC_PAGES
      (s.getF F.GLB_HBM_PAGES_ALLOC_PAGES - (was - now))
    { s with mem.hbm := [], mem.poison := [], mem.orphanCipher := [], mem.cache := [],
             mem.fenced := s.mem.fenced.filter (fun g => g / 64 != st) }

/-- IMAGE_WITHDRAW (R48, R59, R217): at a full Lull the image that no longer fits is withdrawn. -/
def execImageWithdraw (s : State) : Res :=
  if !s.rel.withdraw || !s.momentOk 1 then .refused .notDue
  else
    let fenced := (List.range 8).any fun st => !(s.fencedGroups st).isEmpty
    let s := if fenced then (s.putF F.SIL_STATUS_PROFILE_EXCEEDED 1).degrade (unitId 3 (((List.range 8).find? fun st =>
      !(s.fencedGroups st).isEmpty).getD 0)) else s
    let s := s.withdrawContexts.stripeNone.noImage
    let s := (List.range 8).foldl State.relayStack s
    .next ({ s with rel.withdraw := false }.settleHold.showJobs)

end Sys2Proof.Machine
end

