-- ==== Sys2Proof/Machine/PortCmds.lean ====
section
/-! DEFINITION. Commands that wait at a port of a context, from a cell or from the host's registers (R184, R185, R227, R315), and the
device's own writes for them (R299, R302). -/

namespace Sys2Proof.Machine

open Sys2Proof

/-- A command that waits: its port, its context, its bytes, and the cell it came from; none for a host command. -/
structure PortCmd where
  kind : PortKind
  ctx : Nat
  bytes : Nat
  cell : Option Cell
  deriving DecidableEq, Repr

/-- Has a cell's command been applied, its work still going on? -/
def State.underWay (s : State) (k : PortKind) (via : Via) : Bool :=
  match k with
  | .page => false
  | .tier => s.tier.running.any (·.via == via)
  | .video => s.vid.streams.any fun v => v.closing == some via || v.units.any (·.via == via)

/-- The command that waits at a port. -/
def State.portCmd (s : State) (k : PortKind) (via : Via) : Option PortCmd :=
  match via with
  | .host ctx => (s.hostCmds.find? fun h => h.kind == k && h.ctx == ctx).map fun h => ⟨k, ctx, h.cmd, none⟩
  | .cell ctx c =>
    match s.cell k ctx c with
    | some x =>
      if x.busy && !s.underWay k via then some ⟨k, ctx, x.cmd, some x⟩ else none
    | none => none

/-- `n` bytes of a command from byte `off`. -/
def PortCmd.at (q : PortCmd) (off n : Nat) : Nat := q.bytes / 2 ^ (8 * off) % 2 ^ (8 * n)

def PortCmd.op (q : PortCmd) : Nat := q.at 0 1

/-- The job whose step issued the command. -/
def PortCmd.uid (q : PortCmd) : Option Nat := q.cell.map (·.job)

/-- A host command taken from the queue of its context. -/
def State.takeHost (s : State) (k : PortKind) (ctx : Nat) : State :=
  match s.hostCmds.find? (fun h => h.kind == k && h.ctx == ctx) with
  | some h => { s with hostCmds := s.hostCmds.erase h }
  | none => s

/-- An effect noted for the step that issued the command; a host command has none. -/
def State.noteEffect (s : State) (q : PortCmd) (e : Effect) : State :=
  match q.uid with
  | some u => s.addEffect u e
  | none => s

/-- A write of a partition that the device makes for a command: journaled for its step, or with no step for a host command, which
waits while the journal is full (R299, R302). `k` goes on. -/
def State.deviceWrite (s : State) (q : PortCmd) (cmd : Instr) (addr n : Nat) (k : State → State) : State :=
  match q.uid with
  | some u =>
    if s.inBanked addr && !s.bankGroupOk q.ctx then s.jobFault u Code.BANK_GROUP_BAD 0 0 0
    else match s.journal u addr n with
      | some t => k t
      | none => s.jobFault u Code.UNDO_FULL 0 0 0
  | none =>
    match s.journalLoose addr n with
    | some t => k t
    | none => s.hold cmd

end Sys2Proof.Machine
end

