-- ==== Sys2Proof/Machine/Tier.lean ====
section
/-! DEFINITION. The tier commands (Tables TIR-3 to TIR-5, R224 to R236, R239, R241) and their completions. -/

namespace Sys2Proof.Machine

open Sys2Proof

/-! ## Fields (Table TIR-3) -/

def PortCmd.tier (q : PortCmd) : Nat := q.at 1 1 % 4
def PortCmd.shared (q : PortCmd) : Bool := bit (q.at 1 1) 2
def PortCmd.die (q : PortCmd) : Nat := bits (q.at 1 1) 4 3
def PortCmd.part (q : PortCmd) : Nat := q.at 2 1
def PortCmd.pages (q : PortCmd) : Nat := q.at 4 4
def PortCmd.handle (q : PortCmd) : Nat := q.at 8 8
def PortCmd.va (q : PortCmd) : Nat := q.at 16 8
def PortCmd.name (q : PortCmd) : Nat := q.at 24 8

/-- Is a partition one that holds no allocation: the weights', the page units' or the object table's (R227)? -/
def State.closedPart (s : State) (i : Nat) : Bool :=
  (match s.partition i with | some p => p.sharedWeights | none => false) ||
    (s.getF F.MEM_KV_CONFIG_ENABLE == 1 && i == s.getF F.MEM_KV_CONFIG_PARTITION) || i == s.getF F.MEM_TIER_CONFIG_PARTITION

/-- Check 1 of R225: form. DISCARD is the host's alone. -/
def State.tierForm (s : State) (q : PortCmd) : Bool :=
  opKnown .tier q.op && q.at 1 1 < 32 && q.part < 16 && q.at 3 1 == 0 && q.va < 2 ^ 48 && q.va % pageBytes == 0 &&
    (if q.op = 1 then 1 ≤ q.pages else q.pages == 0) && (if 7 ≤ q.op then q.name != 0 else q.name == 0) &&
    (q.op != 1 || (q.tier != 0 && (q.tier != 3 || q.va == 0) && (q.tier != 2 || !s.closedPart q.part))) &&
    (q.op != 9 || q.cell.isNone)

/-! ## Answers (R225, R227) -/

/-- The 16 bytes of a result. -/
def tierResult (code handle : Nat) : List Byte := leBytes 2 code ++ leBytes 6 0 ++ leBytes 8 handle

/-- BUF_STALE and BUF_NOT_OWNER counted. -/
def State.countTier (s : State) (code : Nat) : State :=
  if code = Code.BUF_STALE then s.addF F.MEM_TIER_STALE_COUNT 1
  else if code = Code.BUF_NOT_OWNER then s.addF F.MEM_TIER_NOT_OWNER_COUNT 1
  else s

/-- A result delivered to a cell or to the host's result registers. -/
def State.deliverTier (s : State) (via : Via) (ctx code handle : Nat) : State :=
  let s := { s with tier.late := s.tier.late.filter (· != via) }
  match via with
  | .host _ => (s.putF (F.JOB_CTX_TIER_RESULT_STATUS ctx) code).putP (P.JOB_CTX_TIER_RESULT_HANDLE ctx) handle
  | .cell _ c =>
    let s := match s.cell .tier ctx c with
      | some x => s.cellResult x (tierResult code handle)
      | none => s
    if code = Code.OK then s
    else (s.putF (F.JOB_CTX_TIER_LAST_CODE ctx) code).putF (F.JOB_CTX_TIER_LAST_CELL ctx) c

/-- How a command was issued. -/
def PortCmd.via (q : PortCmd) : Via :=
  match q.cell with
  | some c => .cell q.ctx c.cell
  | none => .host q.ctx

/-- A host command taken off its queue. -/
def State.taken (s : State) (q : PortCmd) : State :=
  match q.cell with
  | some _ => s
  | none => s.takeHost q.kind q.ctx

/-- A tier command answered. -/
def State.tierAnswer (s : State) (q : PortCmd) (code handle : Nat) : State :=
  ((s.taken q).countTier code).deliverTier q.via q.ctx code handle

/-- A PROMOTE or WRITE_BACK applied: its result comes when the flash store has done its part (R229). -/
def State.tierRuns (s : State) (q : PortCmd) (slot : Nat) (writeBack : Bool) : State :=
  { s.taken q with tier.running := (s.taken q).tier.running ++ [⟨slot, writeBack, q.via, q.ctx, q.uid, q.handle⟩] }

/-- Device memory address of an object's descriptor. -/
def State.slotDesc (s : State) (slot : Nat) : Nat :=
  match s.partition (s.getF F.MEM_TIER_CONFIG_PARTITION) with
  | some p => p.first * pageBytes + 32 * slot
  | none => 0

/-- A tier command of one row, or one with an OP the table does not have. -/
def State.tierRow (s : State) (op : Nat) (via : Via) (body : PortCmd → State) : Res :=
  match s.portCmd .tier via with
  | none => .refused .notDue
  | some q =>
    if q.op ≠ op && opKnown .tier q.op then .refused .otherRow
    else .next (if !s.tierOn then s.tierAnswer q Code.TIER_FULL q.handle
      else if !s.tierForm q then s.tierAnswer q Code.TIER_COMMAND_BAD q.handle
      else body q)

/-! ## Checks 2 to 4 of R225 -/

/-- The object a command names, or the code it is refused with. -/
inductive TierPick where
  | code (c : Nat)
  | obj (o : TierObj)
  deriving DecidableEq, Repr

def State.pick (s : State) (q : PortCmd) (ownerOnly : Bool) : TierPick :=
  let i := q.handle % 2 ^ 40
  if 2 ^ s.getF F.MEM_TIER_CONFIG_LOG2_OBJ ≤ i then .code Code.TIER_COMMAND_BAD
  else match s.obj i with
    | none => .code Code.BUF_STALE
    | some o =>
      if bits q.handle 61 48 ≠ s.gen i || q.handle / 2 ^ 62 ≠ o.tier || o.leaving || (o.dying && q.op != 4) then .code Code.BUF_STALE
      else if o.owner ≠ q.ctx && (ownerOnly || !o.shared) then .code Code.BUF_NOT_OWNER
      else .obj o

/-- The object named, or the command refused. -/
def State.withTier (s : State) (q : PortCmd) (ownerOnly : Bool) (k : TierObj → State) : State :=
  match s.pick q ownerOnly with
  | .code c => s.tierAnswer q c q.handle
  | .obj o => k o

/-! ## ALLOC and FREE -/

/-- Space in a tier: its first unit, and the state after what had to be evicted. -/
def State.tierSpace (s : State) (q : PortCmd) : Option (Nat × State) :=
  match q.tier with
  | 1 => (s.placeLlm q.die q.pages).map fun x => (x, s)
  | 2 => s.spaceFor q.part q.pages
  | _ => if s.flashUsed + q.pages ≤ s.flashUnits then some (0, s) else none

/-- A new object. -/
def newObj (slot tier owner units : Nat) (shared priv : Bool) : TierObj :=
  ⟨slot, tier, owner, shared, units, 0, 0, 0, false, false, false, false, priv, [], none, .absent, 0, 0, none, false, [], false, 0⟩

/-- May the caller make the allocation (check 5)? -/
def State.allocAllowed (s : State) (q : PortCmd) : Bool :=
  !(q.shared && (s.ctx q.ctx).priv) &&
    (q.tier != 2 || (bit (s.ctx q.ctx).partitions q.part &&
      match s.partition q.part with
      | some p => !p.banked || (s.ctx q.ctx).mayBank
      | none => false))

/-- The key tag of a tier-2 allocation (R218). -/
def State.allocTag (s : State) (q : PortCmd) : Nat :=
  match s.partition q.part with
  | some p => if p.priv && (s.ctx q.ctx).priv then q.ctx else 511
  | none => 511

/-- The allocation made. -/
def State.makeObj (s : State) (q : PortCmd) (slot first : Nat) : State :=
  let o := newObj slot q.tier q.ctx q.pages q.shared (s.ctx q.ctx).priv
  let o := { o with place := if q.tier = 1 then q.die else q.part, first := first, va := q.va, mapped := true, byHost := q.cell.isNone }
  let s := if q.tier = 2 then (s.addObj o).tagPages first q.pages (s.allocTag q) else s.addObj o
  let s := (s.noteEffect q (.tierAlloc slot)).tierAnswer q Code.OK (handleOf s o)
  if q.cell.isNone then s.putP (P.JOB_CTX_TIER_RESULT_ADDR q.ctx) (if q.tier = 2 then first * pageBytes else 0) else s

/-- ALLOC. -/
def State.tierAlloc (s : State) (cmd : Instr) (q : PortCmd) : State :=
  if !s.allocAllowed q then s.tierAnswer q Code.NOT_AUTHORIZED 0
  else if s.overQuota q.ctx q.tier (q.pages * pageBytes) then s.tierAnswer q Code.QUOTA_EXCEEDED 0
  else if q.tier ≠ 3 && s.vaOverlaps q.ctx q.va q.pages then s.tierAnswer q Code.TIER_COMMAND_BAD 0
  else match s.freeObjSlot, s.tierSpace q with
    | some slot, some (first, s) => s.deviceWrite q cmd (s.slotDesc slot) 32 fun s => s.makeObj q slot first
    | _, _ => s.tierAnswer q Code.TIER_FULL 0

/-- An object whose handle no longer answers, until the Lull. -/
def State.leave (s : State) (o : TierObj) : State :=
  s.setObj { o with leaving := true, mapped := false,
                    pins := o.pins.map fun (p : Pin) => if p.ctx == o.owner then { p with mapped := false } else p }

/-- FREE: at once for the host, at the Lull for a step. -/
def State.tierFree (s : State) (cmd : Instr) (q : PortCmd) : State :=
  s.withTier q true fun o =>
    s.deviceWrite q cmd (s.slotDesc o.slot) 32 fun s =>
      (match q.uid with
        | some u => (s.leave o).addEffect u (.tierFree o.slot)
        | none => s.freeObj o.slot).tierAnswer q Code.OK q.handle

/-! ## PROMOTE and UNPIN -/

/-- The caller's pin and mapping on an object. -/
def State.pinObj (s : State) (q : PortCmd) (o : TierObj) : State :=
  (s.setObj { o with pins := o.pins ++ [⟨q.ctx, q.va, true⟩] }).noteEffect q (.tierPromote o.slot q.va)

/-- May a resident copy lie in a partition? -/
def State.copyPartOk (s : State) (i : Nat) : Bool :=
  !s.closedPart i && match s.partition i with | some p => p.persistent | none => false

/-- PROMOTE: a copy created, or joined; of a LOST object it stalls (R236). -/
def State.tierPromote (s : State) (cmd : Instr) (q : PortCmd) : State :=
  s.withTier q false fun o =>
    if o.tier ≠ 3 then s.tierAnswer q Code.TIER_COMMAND_BAD q.handle
    else match o.resid with
      | .lost => s.hold cmd
      | .absent =>
        if s.overQuota q.ctx 2 (o.units * pageBytes) then s.tierAnswer q Code.QUOTA_EXCEEDED q.handle
        else if s.vaOverlaps q.ctx q.va o.units || !s.copyPartOk q.part then s.tierAnswer q Code.TIER_COMMAND_BAD q.handle
        else match s.spaceFor q.part o.units with
          | none => s.tierAnswer q Code.TIER_FULL q.handle
          | some (first, s) =>
            s.deviceWrite q cmd (s.slotDesc o.slot) 32 fun s =>
              (s.pinObj q { o with resid := .promoting, copyPart := q.part, copyPage := first,
                                   copyOwner := some (if o.shared then q.ctx else o.owner), copyDirty := false, evict := false }).tierRuns
                q o.slot false
      | r =>
        if s.vaOverlaps q.ctx q.va o.units then s.tierAnswer q Code.TIER_COMMAND_BAD q.handle
        else s.deviceWrite q cmd (s.slotDesc o.slot) 32 fun s =>
          if r = .resident then (s.pinObj q o).tierAnswer q Code.OK q.handle else (s.pinObj q o).tierRuns q o.slot false

/-- UNPIN: the caller's oldest mapping of the object goes; the pin at once for the host, at the Lull for a step. -/
def State.tierUnpin (s : State) (cmd : Instr) (q : PortCmd) : State :=
  s.withTier q false fun o =>
    match o.pins.find? (fun p => p.ctx == q.ctx && p.mapped) with
    | none => s.tierAnswer q Code.TIER_COMMAND_BAD q.handle
    | some p =>
      s.deviceWrite q cmd (s.slotDesc o.slot) 32 fun s =>
        (match q.uid with
          | some u => (s.mapPin o.slot q.ctx p.va false).addEffect u (.tierUnpin o.slot p.va)
          | none => s.dropPin o.slot p).tierAnswer q Code.OK q.handle

/-! ## WRITE_BACK and EVICT -/

/-- The HBM bytes of a copy, by offset in the object. -/
def State.copyData (s : State) (o : TierObj) : Store Byte :=
  (s.mem.hbm.filter fun e => o.copyPage * pageBytes ≤ e.1 && e.1 < (o.copyPage + o.units) * pageBytes).map
    fun e => (e.1 - o.copyPage * pageBytes, e.2)

/-- Bytes written to flash in the last 24 hours. -/
def State.written24 (s : State) : Nat := s.tier.hours.foldl (· + ·) 0

/-- Would `n` more bytes exceed the daily allowance (R240)? -/
def State.overAllowance (s : State) (n : Nat) : Bool := s.getF F.MEM_FLASH_ALLOWANCE_GIB * 2 ^ 30 < s.written24 + n

/-- Cycle counts after flash writes: the manual gives the wear no figure, so the registers take free values that never fall
(log entry 70). -/
def State.wear (s : State) : State :=
  let a := s.freeNat
  let b := a.2.freeNat
  let avg := max (b.2.getF F.MEM_FLASH_WEAR_AVERAGE) (a.1 % 65536)
  let mx := max avg (max (b.2.getF F.MEM_FLASH_WEAR_MAXIMUM) (b.1 % 65536))
  ((b.2.putF F.MEM_FLASH_WEAR_AVERAGE avg).putF F.MEM_FLASH_WEAR_MAXIMUM mx).putF F.MEM_FLASH_PCT_USED_PCT (min 255 (avg / 70))

/-- Bytes written to flash, counted in the current hour (R240). -/
def State.flashWrite (s : State) (n : Nat) : State :=
  let s := { s with tier.hours := (s.tier.hours.headD 0 + n) :: s.tier.hours.drop 1 }
  (s.putF F.MEM_FLASH_WRITTEN_24H_MIB (s.written24 / 2 ^ 20)).wear

/-- Has the step itself written the object's fresh blocks? -/
def State.ownFresh (s : State) (q : PortCmd) (o : TierObj) : Bool :=
  match q.uid with
  | some u => (match s.jobOf u with
    | some j => (match j.step with
      | some st => st.effects.any fun e => match e with | .tierWriteBack x => x == o.slot | _ => false
      | none => false)
    | none => false)
  | none => true

/-- The copy written to flash: to fresh blocks for a step, whose contents the Lull makes the object's (R228, R239). -/
def State.writeOut (s : State) (q : PortCmd) (o : TierObj) : State :=
  let s := s.openRange (o.copyPage * pageBytes) (o.units * pageBytes)
  let d := s.copyData o
  let s := match q.uid with
    | some u => (s.setObj { o with fresh := some d, copyDirty := false }).addEffect u (.tierWriteBack o.slot)
    | none => s.setObj { o with data := d, copyDirty := false }
  (s.flashWrite (o.units * pageBytes)).tierRuns q o.slot true

/-- WRITE_BACK. Another step's fresh blocks are waited for; so is a rebuild of poisoned data. -/
def State.tierWriteBack (s : State) (cmd : Instr) (q : PortCmd) : State :=
  s.withTier q true fun o =>
    if o.tier ≠ 3 || o.resid ≠ .resident then s.tierAnswer q Code.TIER_COMMAND_BAD q.handle
    else if s.flashUnits < s.flashUsed + o.units then s.tierAnswer q Code.TIER_FULL q.handle
    else if s.overAllowance (o.units * pageBytes) then s.tierAnswer q Code.FLASH_ALLOWANCE q.handle
    else if o.fresh.isSome && !s.ownFresh q o then s.hold cmd
    else if s.poisoned (o.copyPage * pageBytes) (o.units * pageBytes) then (s.countStall cmd).hold cmd
    else s.deviceWrite q cmd (s.slotDesc o.slot) 32 fun s => s.writeOut q o

/-- EVICT (R234). -/
def State.tierEvict (s : State) (cmd : Instr) (q : PortCmd) : State :=
  s.withTier q true fun o =>
    if o.tier ≠ 3 then s.tierAnswer q Code.TIER_COMMAND_BAD q.handle
    else
      let live : Bool := o.resid == .resident || o.resid == .promoting
      let waits : Bool := o.resid == .promoting || !o.pins.isEmpty
      let code := if waits then Code.EVICT_DEFERRED else Code.OK
      s.deviceWrite q cmd (s.slotDesc o.slot) 32 fun s =>
        (match q.uid with
          | some u => s.addEffect u (.tierEvict o.slot)
          | none =>
            if live then (s.setObj { o with evict := true }).tryEvict o.slot else s).tierAnswer
          q code q.handle

/-! ## KEEP, ADOPT, DISCARD (R241) -/

def State.keptNamed (s : State) (name : Nat) : Option Kept := s.tier.kept.find? (·.name == name)

/-- KEEP. -/
def State.tierKeep (s : State) (cmd : Instr) (q : PortCmd) : State :=
  s.withTier q true fun o =>
    if o.tier ≠ 3 || !o.pins.isEmpty || (s.keptNamed q.name).isSome then s.tierAnswer q Code.TIER_COMMAND_BAD q.handle
    else if 4096 ≤ s.tier.kept.length then s.tierAnswer q Code.TIER_FULL q.handle
    else s.deviceWrite q cmd (s.slotDesc o.slot) 32 fun s =>
      let k : Kept := ⟨q.name, o.units, o.priv, o.shared, o.data, q.cell.isSome, false, o.resid == .lost⟩
      let s := { s with tier.kept := s.tier.kept ++ [k] }
      (match q.uid with
        | some u => (s.leave o).addEffect u (.tierKeep o.slot q.name)
        | none => s.freeSlot o.slot).tierAnswer q Code.OK q.handle

/-- ADOPT. -/
def State.tierAdopt (s : State) (cmd : Instr) (q : PortCmd) : State :=
  match s.tier.kept.find? (fun k => k.name == q.name && !k.pending && !k.adopting) with
  | none => s.tierAnswer q Code.TIER_COMMAND_BAD 0
  | some k =>
    if k.priv && !(s.ctx q.ctx).priv then s.tierAnswer q Code.NOT_AUTHORIZED 0
    else if s.overQuota q.ctx 3 (k.units * pageBytes) then s.tierAnswer q Code.QUOTA_EXCEEDED 0
    else match s.freeObjSlot with
      | none => s.tierAnswer q Code.TIER_FULL 0
      | some slot =>
        s.deviceWrite q cmd (s.slotDesc slot) 32 fun s =>
          let o := { newObj slot 3 q.ctx k.units k.shared (s.ctx q.ctx).priv with
                       data := k.data, resid := if k.lost then .lost else .absent, byHost := q.cell.isNone }
          let s := s.addObj o
          let s := match q.uid with
            | some u => { s with tier.kept := s.tier.kept.map fun (x : Kept) => if x.name == k.name then { x with adopting := true } else x }.addEffect
                u (.tierAdopt slot k.name)
            | none => { s with tier.kept := s.tier.kept.filter fun x => x.name != k.name }
          s.tierAnswer q Code.OK (handleOf s o)

/-- DISCARD: a name still to be catalogued is no name yet. -/
def State.tierDiscard (s : State) (q : PortCmd) : State :=
  if s.tier.kept.any (fun k => k.name == q.name && !k.pending) then
    { s with tier.kept := s.tier.kept.filter fun k => k.name != q.name || k.pending }.tierAnswer q Code.OK 0
  else s.tierAnswer q Code.TIER_COMMAND_BAD 0

/-! ## The rows -/

/-- TIER_ALLOC. -/
def execTierAlloc (via : Via) (s : State) : Res := s.tierRow 1 via (s.tierAlloc (.tierAlloc via))

/-- TIER_FREE. -/
def execTierFree (via : Via) (s : State) : Res := s.tierRow 2 via (s.tierFree (.tierFree via))

/-- TIER_PROMOTE. -/
def execTierPromote (via : Via) (s : State) : Res := s.tierRow 3 via (s.tierPromote (.tierPromote via))

/-- TIER_UNPIN. -/
def execTierUnpin (via : Via) (s : State) : Res := s.tierRow 4 via (s.tierUnpin (.tierUnpin via))

/-- TIER_WRITE_BACK. -/
def execTierWriteBack (via : Via) (s : State) : Res := s.tierRow 5 via (s.tierWriteBack (.tierWriteBack via))

/-- TIER_EVICT. -/
def execTierEvict (via : Via) (s : State) : Res := s.tierRow 6 via (s.tierEvict (.tierEvict via))

/-- TIER_KEEP. -/
def execTierKeep (via : Via) (s : State) : Res := s.tierRow 7 via (s.tierKeep (.tierKeep via))

/-- TIER_ADOPT. -/
def execTierAdopt (via : Via) (s : State) : Res := s.tierRow 8 via (s.tierAdopt (.tierAdopt via))

/-- TIER_DISCARD. -/
def execTierDiscard (via : Via) (s : State) : Res := s.tierRow 9 via s.tierDiscard

/-! ## Completions (R229, R232, R235, R236) -/

/-- TIER_FAILED raised for a handle. -/
def State.tierFailed (s : State) (handle : Nat) : State :=
  ((s.addF F.MEM_TIER_FAILED_COUNT 1).log Code.TIER_FAILED (unitId 8 0) none 0 handle).raise 4

/-- Bytes moved at the HBM controllers for a run of addresses, in chunks of the address map (R209, R211). -/
def State.chargeRun (s : State) (addr n : Nat) : State :=
  (List.range (n / 4096)).foldl (fun s i => s.chargeBytes (addr + i * 4096) 4096) s

/-- A copy filled from flash. -/
def State.fillCopy (s : State) (o : TierObj) : State :=
  let a := o.copyPage * pageBytes
  let n := o.units * pageBytes
  let s := (s.chargeRun a n).clearHbm a n
  { s with mem.hbm := storePaste zeroByte s.mem.hbm a o.data 0 n }

/-- Commands that waited for a slot's flash work answered. -/
def State.answerRunning (s : State) (rs : List Running) : State :=
  rs.foldl (fun s r => { s with tier.running := s.tier.running.erase r }.deliverTier r.via r.ctx Code.OK r.handle) s

/-- PROMOTE_COMPLETE (R232, R234, R236). -/
def execPromoteComplete (slot : Nat) (ok : Bool) (s : State) : Res :=
  match s.obj slot with
  | none => .refused .notDue
  | some o =>
    if o.resid ≠ .promoting then .refused .notDue
    else if ok then
      match s.journalLoose (o.copyPage * pageBytes) (o.units * pageBytes) with
      | none => .next (s.hold (.promoteComplete slot ok))
      | some s =>
        let s := (s.fillCopy o).setObj { o with resid := .resident }
        .next ((s.answerRunning (s.tier.running.filter fun r => r.slot == slot && !r.writeBack)).tryEvict slot)
    else .next ((s.setObj { o with resid := .lost, copyOwner := none }).putP P.MEM_TIER_FAIL_HANDLE (handleOf s o) |>.tierFailed
      (handleOf s o))

/-- WRITE_BACK_COMPLETE (R229): the oldest WRITE_BACK of an object is answered. -/
def execWriteBackComplete (slot : Nat) (s : State) : Res :=
  match s.tier.running.find? fun r => r.slot == slot && r.writeBack with
  | none => .refused .notDue
  | some r => .next (s.answerRunning [r])

/-- TIER_LATE (R235): a command beyond its bound and the slack, counted once; it keeps running. -/
def execTierLate (via : Via) (s : State) : Res :=
  if (s.portCmd .tier via).isNone && s.tier.running.all (·.via != via) then .refused .notDue
  else .next (if s.tier.late.contains via then s
    else { s with tier.late := s.tier.late ++ [via] }.addF F.MEM_TIER_LATE_COUNT 1)

end Sys2Proof.Machine
end

