-- ==== Sys2Proof/Machine/Flash.lean ====
section
/-! DEFINITION. The flash store's own events and the golden weight copy (R237 to R243). -/

namespace Sys2Proof.Machine

open Sys2Proof

/-! ## Patrol and allowance (R238, R240) -/

/-- A block retired: the relocation pool shrinks; below 256 GiB the usable capacity gives 64 GiB to it (Table TIR-8; a block's
size is log entry 70). -/
def State.retireBlock (s : State) (block : Nat) : State :=
  let s := { s with tier.retiredBlocks := s.tier.retiredBlocks ++ [block] }.addF F.MEM_FLASH_RETIRED_BLOCKS 1
  let gone := s.tier.retiredBlocks.length * Config.flashBlockMiB / 1024
  let small : Bool := s.tier.pool < 256 + gone
  let s := if small then { s with tier.pool := s.tier.pool + 64 } else s
  let s := (s.putF (F.REL_LEDGER_RETIRED_COUNT 12) gone).putF (F.REL_LEDGER_SPARE_COUNT 12) (s.tier.pool - gone)
  if small then (s.putF F.MEM_FLASH_CAPACITY_GIB (s.getF F.MEM_FLASH_CAPACITY_GIB - 64)).degrade (unitId 7 0) else s

/-- FLASH_RETENTION_PATROL (R238): a block whose worst codeword needs more than 60% of the code's correction is relocated; one that
needs parity is retired, its data rebuilt. -/
def execFlashRetentionPatrol (block percent : Nat) (s : State) : Res :=
  if s.getF F.MEM_FLASH_CAPACITY_GIB = 0 || s.tier.retiredBlocks.contains block then .refused .notDue
  else .next (if 100 < percent then s.wear.retireBlock block else if 60 < percent then s.wear else s)

/-- FLASH_ALLOWANCE_BUCKET_ROLL (R240): the oldest hour of the window goes. -/
def execFlashAllowanceBucketRoll (s : State) : Res :=
  let s := { s with tier.hours := 0 :: s.tier.hours.take 23 }
  .next (s.putF F.MEM_FLASH_WRITTEN_24H_MIB (s.written24 / 2 ^ 20))

/-! ## The golden copy (R242) -/

/-- Is a SYNC or LOAD under way? -/
def State.goldenBusy (s : State) : Bool :=
  s.getF F.MEM_GOLDEN_STATUS_STATE == 2 || s.getF F.MEM_GOLDEN_STATUS_STATE == 3

/-- The outcome of a SYNC or LOAD. -/
def State.goldenLast (s : State) (code : Nat) : State := s.putF F.MEM_GOLDEN_LAST_LAST_CODE code

/-- Pages of the weights whose DIRTY bit is set. -/
def State.dirtyPages (s : State) : List Nat := s.tier.dirty.map (·.1)

/-- Golden pages a SYNC would add. -/
def State.goldenNew (s : State) : Nat := (s.dirtyPages.filter fun p => !s.tier.goldenPages.contains p).length

/-- SYNC begins, or is refused for the allowance or for space. -/
def State.syncStart (s : State) : State :=
  if s.overAllowance (s.dirtyPages.length * pageBytes) then s.goldenLast Code.FLASH_ALLOWANCE
  else if s.flashUnits < s.flashUsed + s.goldenNew then s.goldenLast Code.TIER_FULL
  else s.putF F.MEM_GOLDEN_STATUS_STATE 2

/-- GOLDEN_SYNC (R240, R242): with a SYNC or LOAD under way, or no weights, the write has no effect (log entry 72). -/
def execGoldenSync (_req : Requester) (value : Word) (s : State) : Res :=
  if !bit value.toNat 0 then .refused .otherRow
  else .next (if s.goldenBusy || s.weights.isNone then s else s.syncStart)

/-- Is the weights' partition BANKED while the stripe set is FORMED (R300)? -/
def State.weightsBanked (s : State) : Bool := match s.weights with | some w => s.bankedNow w | none => false

/-- GOLDEN_LOAD (R242, R300): a write of MEM_GOLDEN_CONTROL without SYNC. -/
def execGoldenLoad (_req : Requester) (value : Word) (s : State) : Res :=
  if bit value.toNat 0 then .refused .otherRow
  else .next (if !bit value.toNat 1 || s.goldenBusy || s.weights.isNone then s
    else if s.weightsBanked then s.goldenLast Code.BANK_REFUSED
    else if s.getF F.MEM_GOLDEN_STATUS_MODEL_MATCH = 1 then s.putF F.MEM_GOLDEN_STATUS_STATE 3
    else s.goldenLast Code.MODEL_MISMATCH)

/-- A page of the weights written to flash. -/
def State.syncPage (base : Nat) (s : State) (p : Nat) : State :=
  let s := s.openRange ((base + p) * pageBytes) pageBytes
  let a := (base + p) * pageBytes
  { s with tier.golden := storePaste zeroByte s.tier.golden (p * pageBytes) s.mem.hbm a pageBytes,
           tier.goldenPages := if s.tier.goldenPages.contains p then s.tier.goldenPages else s.tier.goldenPages ++ [p],
           tier.dirty := storeSet (fun _ => false) s.tier.dirty p false }

/-- GOLDEN_SYNC_COMPLETE: each dirty page written, its DIRTY bit cleared; the copy takes the MODEL_ID. -/
def execGoldenSyncComplete (s : State) : Res :=
  match s.weights with
  | none => .refused .notDue
  | some w =>
    if s.getF F.MEM_GOLDEN_STATUS_STATE ≠ 2 then .refused .notDue
    else
      let t := s.dirtyPages.foldl (State.syncPage w.first) (s.flashWrite (s.dirtyPages.length * pageBytes))
      let t := { t with tier.goldenModel := s.getP P.SIL_MODEL_ID }
      .next ((t.putF F.MEM_GOLDEN_STATUS_STATE 1).showGolden.goldenLast Code.OK)

/-- A page of the weights taken from the golden copy. -/
def State.loadPage (base : Nat) (s : State) (p : Nat) : State :=
  let a := (base + p) * pageBytes
  let s := (s.chargeRun a pageBytes).clearHbm a pageBytes
  { s with mem.hbm := storePaste zeroByte s.mem.hbm a s.tier.golden (p * pageBytes) pageBytes,
           tier.dirty := storeSet (fun _ => false) s.tier.dirty p false }

/-- GOLDEN_LOAD_COMPLETE: the copy's pages stand in the partition; a read that fails leaves it (log entry 72). -/
def execGoldenLoadComplete (ok : Bool) (s : State) : Res :=
  match s.weights with
  | none => .refused .notDue
  | some w =>
    if s.getF F.MEM_GOLDEN_STATUS_STATE ≠ 3 then .refused .notDue
    else
      let s := s.putF F.MEM_GOLDEN_STATUS_STATE 1
      .next (if ok then
          ((s.tier.goldenPages.filter (· < w.count)).foldl (State.loadPage w.first) s).showGolden.goldenLast Code.OK
        else (s.tierFailed 0).goldenLast Code.TIER_FAILED)

/-! ## A damaged page of the weights (R243) -/

/-- 4 KiB units of a page with poison. -/
def State.poisonedUnits (s : State) (page : Nat) : List Nat :=
  (List.range 512).filterMap fun i => if s.poisoned (page * pageBytes + i * 4096) 4096 then some (page * 512 + i) else none

/-- WEIGHT_LOST in every context. -/
def State.weightLost (s : State) : State := (List.range 256).foldl (fun s c => s.ctxFault c Code.WEIGHT_LOST) s

/-- GOLDEN_RELOAD_COMPLETE (R243): a poisoned page reloaded, else rebuilt from parity, else WEIGHT_LOST. `page` counts in the
partition. -/
def execGoldenReloadComplete (page : Nat) (ok : Bool) (s : State) : Res :=
  match s.weights with
  | none => .refused .notDue
  | some w =>
    if w.count ≤ page || (s.poisonedUnits (w.first + page)).isEmpty then .refused .notDue
    else
      let clean := !s.dirtyPages.contains page && s.getF F.MEM_GOLDEN_STATUS_MODEL_MATCH == 1 && s.tier.goldenPages.contains page
      .next (if clean && ok then (s.loadPage w.first page).addF F.MEM_GOLDEN_RELOADS_COUNT 1
        else if s.bankedNow w then (s.poisonedUnits (w.first + page)).foldl State.requestUnit s
        else s.weightLost)

end Sys2Proof.Machine
end

