-- ==== Sys2Proof/Machine/Banking.lean ====
section
/-! DEFINITION. The bank phase of a Lull (R302, R303, R307): deltas sent, the bank barrier, deltas applied. -/

namespace Sys2Proof.Machine

open Sys2Proof

/-- REL_CTX_BANK_STATE and REL_CTX_BANK_STEP of a context. -/
def State.showBank (s : State) (ctx code step : Nat) : State :=
  (s.putF (F.REL_CTX_BANK_STATE_STATE ctx) code).putP (P.REL_CTX_BANK_STEP ctx) step

/-- How far the bank phase of a job's step is. -/
def State.setBankPhase (s : State) (uid n : Nat) : State := s.mapStep uid fun st => { st with bankPhase := n }

def State.setPhase (s : State) (b : BankPhase) : State :=
  { s with rel.phases := s.rel.phases.map fun x => if x.ctx == b.ctx then b else x }

def State.dropPhase (s : State) (ctx : Nat) : State :=
  { s with rel.phases := s.rel.phases.filter fun x => x.ctx != ctx }

/-! ## The bank barrier -/

/-- A SYNC frame of the bank barrier (log entry 84). -/
def State.sendBank (s : State) (b : BankPhase) (kind : Nat) (dest : Nat × Nat) : State :=
  s.send 0 (s.frameClass b.ctx) dest.1 4 b.ctx 0
    (dest.2 + Config.bankIdent % 65536 * 2 ^ 8 + kind * 2 ^ 24 + b.step % 2 * 2 ^ 26) []

/-- Every delta staged for a step XORed into this holder's parity (R302 phase 3). -/
def State.applyDeltas (s : State) (step : Nat) : State :=
  let now := s.rel.deltas.filter fun d => d.step == step && d.pieces.length == 4096 / s.bankPiece
  now.foldl (fun s d => s.xorParity d.row ((List.range d.pieces.length).flatMap fun i =>
      ((d.pieces.find? (·.1 == i)).map (·.2)).getD []))
    { s with rel.deltas := s.rel.deltas.filter fun d => d.step != step }

/-- The units that a phase banked with no step leave the journal; one written since it was sent stays, with what was banked. -/
def State.settleLoose (s : State) (sent : List (Nat × Store Byte)) : State :=
  { s with rel.loose := s.rel.loose.filterMap fun x => match sent.find? (·.1 == x.1) with
      | some y => if s.unitBytes x.1 == y.2 then none else some (x.1, y.2)
      | none => some x }

/-- A phase completes at this member: RELEASED, the staged deltas applied (R302 phase 3, R307 COMMIT). -/
def State.bankComplete (s : State) (b : BankPhase) : State :=
  let s := b.children.foldl (fun s c => s.sendBank b 1 c) s
  let s := (s.dropPhase b.ctx).applyDeltas b.step
  (((s.settleLoose b.loose).setBankPhase b.uid 3).showBank b.ctx 3 b.step).undoShow

/-- What follows progress of a phase: once every delta is staged the member arrives; once its children have too, ARRIVE goes to the
parent, or at the root the phase completes (R270, R302). -/
def State.bankAdvance (s : State) (b : BankPhase) : State :=
  let staged := b.sent.all fun x => b.staged.contains x
  if !staged then s.setPhase b
  else
    let s := (s.setBankPhase b.uid 2).putF (F.REL_CTX_BANK_STATE_STATE b.ctx) 2
    if b.children.all (b.childArrived.contains ·) then
      match b.parent with
      | none => s.bankComplete b
      | some x => if b.arriveSent then s.setPhase b else (s.sendBank b 0 x).setPhase { b with arriveSent := true }
    else s.setPhase b

/-- The bank group of a context: parent and children of this member in its tree; none where its entries cannot be read. -/
def State.bankTree (s : State) (ctx : Nat) : Option (Option (Nat × Nat) × List (Nat × Nat)) :=
  match s.vFetch ctx (s.getP (P.REL_CTX_BANK_GROUP ctx)) 160 with
  | .ok d =>
    let m := leAt d 8 4
    let f := leAt d 0x0C 1
    let self := leAt d 0x14 4
    let member (i : Nat) : Option (Nat × Nat) := match s.vFetch ctx (leAt d 0x18 8 + 4 * i) 4 with
      | .ok e => some (memberOf (leNat e))
      | _ => none
    let kids := (treeChildren m f 0 self).map member
    if kids.all Option.isSome then
      match treeParent m f 0 self with
      | none => some (none, kids.filterMap id)
      | some q => (member q).map fun x => (some x, kids.filterMap id)
    else none
  | _ => none

/-- The units a phase banks: those the step journaled in BANKED partitions, and those journaled with no step (R299, R302). -/
def State.phaseUnits (s : State) (st : StepRun) : List Nat :=
  ((st.effects.filterMap fun e => match e with
    | .memory u _ => if s.inBanked (u * 4096) then some u else none
    | _ => none) ++ s.rel.loose.map (·.1)).eraseDups

/-- One unit's delta sent to its holder (R302 phase 1). -/
def State.sendDelta (step : Nat) (s : State) (u : Nat) : State :=
  match s.bankedIndex u with
  | none => s
  | some j =>
    let r := rowOf s.stripePos j
    let w := s.wireBytes u (xorBytes (s.bankedValue u) (s.hbm (u * 4096) 4096))
    w.2.bankPieces false (r % 9) 2 step r w.1

/-- How many of some units each peer holds the parity of; peers with none left out. -/
def State.holderCounts (s : State) (us : List Nat) : List (Nat × Nat) :=
  (s.stripePeers.map fun p => (p, (us.filter fun u => match s.bankedIndex u with
    | some j => rowOf s.stripePos j % 9 == p
    | none => false).length)).filter fun x => x.2 != 0

/-- A drained step's bank phase starts (R302). -/
def State.bankStart (s : State) (j : Job) (st : StepRun) : State :=
  match s.bankTree j.ctx with
  | none => s.jobFault j.uid Code.BANK_GROUP_BAD 0 0 0
  | some tree =>
    let us := s.phaseUnits st
    let loose := s.rel.loose.map fun x => (x.1, s.unitBytes x.1)
    let b : BankPhase := ⟨j.ctx, j.uid, st.number, s.holderCounts us, [], tree.1, tree.2, [], false, false, loose⟩
    let s := us.foldl (State.sendDelta st.number) s
    let s := { s with rel.phases := s.rel.phases ++ [b] }
    (((s.setBankPhase j.uid 1).showBank j.ctx 1 st.number).bankAdvance b)

/-- A phase that waits on a member out of reach logs BANK_STALLED once (R303). -/
def State.noteStall (s : State) (ctx : Nat) : State :=
  match s.rel.phases.find? (·.ctx == ctx) with
  | some b =>
    if !b.stalled && s.peerAbsent then
      (s.setPhase { b with stalled := true }).log Code.BANK_STALLED (unitId 1 0) (some ctx) 0 0
    else s
  | none => s

/-- A pending phase of a step that is discarded ends; its holders are told to drop the step's deltas (R307, R308). -/
def State.dropBank (s : State) (ctx step : Nat) : State :=
  let s := if s.stripeState = 0 || !s.bankGroupOk ctx then s else s.stripePeers.foldl (fun s p => s.bankSend p 4 step 0 []) s
  if s.rel.phases.any (·.ctx == ctx) then (s.dropPhase ctx).putF (F.REL_CTX_BANK_STATE_STATE ctx) 0 else s

/-! ## SYNC frames of the barrier -/

/-- Is a SYNC frame one of a context's bank barrier? -/
def bankFor (s : State) (f : Frame) : Option BankPhase :=
  s.rel.phases.find? fun b => b.ctx == f.fields % 256 && bits f.fields 23 8 == Config.bankIdent % 65536 &&
    bits f.fields 26 26 == b.step % 2

/-- ARRIVE of a child at the bank barrier; none: it waits for the phase. -/
def serveBankArrive (f : Frame) (s : State) : Option State :=
  match bankFor s f with
  | none => none
  | some b =>
    if !b.children.contains (f.src, f.ctx) || b.childArrived.contains (f.src, f.ctx) then some s
    else some (s.bankAdvance { b with childArrived := b.childArrived ++ [(f.src, f.ctx)] })

/-- RELEASE of the parent at the bank barrier. -/
def serveBankRelease (f : Frame) (s : State) : Option State :=
  match bankFor s f with
  | none => none
  | some b => if b.parent == some (f.src, f.ctx) && b.arriveSent then some (s.bankComplete b) else some s

end Sys2Proof.Machine
end

