-- ==== Sys2Proof/Machine/Frames.lean ====
section
/-! DEFINITION. Frames delivered to this module (R249, R270, R275 to R281, R284), the CREDIT timer and the dump (R285). -/

namespace Sys2Proof.Machine

open Sys2Proof

/-! ## The inbox -/

/-- What a frame's service leaves of a job: none where the frame must wait. -/
def TileRes.land (r : TileRes) (s : State) (uid : Nat) : Option State :=
  match r with
  | .done t => some t
  | .stop t => some t
  | .wait => none
  | .fault code kind => some (s.jobFault uid code 0 kind 0)
  | .mapFault va => some (s.mapFault uid va 0 0)

/-- The oldest frame of a list that can be served now. -/
def serveFrames (serve : Frame → State → Option State) (s : State) : List Frame → Option State
  | [] => none
  | f :: t =>
    match serve f { s with fab.inbox := s.fab.inbox.erase f } with
    | some u => some u
    | none => serveFrames serve s t

/-- A row of frames of one kind: the oldest that can be served; frames that must wait stay in the inbox. -/
def State.frameRow (s : State) (cmd : Instr) (kind : Frame → Bool) (serve : Frame → State → Option State) : Res :=
  match s.fab.inbox.filter kind with
  | [] => .refused .notDue
  | l =>
    match serveFrames serve s l with
    | some t => .next t
    | none => .next (s.hold cmd)

/-- Does the step of an object run, so that its traffic is not stalled (R66 step 5)? -/
def State.objRuns (s : State) (o : SyncObj) : Bool :=
  match s.jobOf o.job with | some j => j.phase == .running | none => false

/-! ## SYNC frames (Table COL-3) -/

def syncKind (n : Nat) (f : Frame) : Bool := f.typ == 4 && bits f.fields 25 24 == n

/-- The object a SYNC frame is delivered to (R268): the one its context has bound for a group of several members. -/
def State.syncFor (s : State) (f : Frame) : Option SyncObj :=
  s.fab.objs.find? fun o => o.ctx == f.fields % 256 && o.ident == bits f.fields 23 8 && 1 < o.members && s.objRuns o

/-- The position of the child a frame comes from. -/
def childOf (o : SyncObj) (f : Frame) : Option Nat := (o.children.find? fun c => c.2 == (f.src, f.ctx)).map (·.1)

/-- Does a frame come from the parent? -/
def fromParent (o : SyncObj) (f : Frame) : Bool := match o.parent with | some x => x.2 == (f.src, f.ctx) | none => false

/-- ARRIVE from a child: it counts toward the member's arrival to its parent (R270). -/
def serveArrive (f : Frame) (s : State) : Option State :=
  match s.syncFor f with
  | none => serveBankArrive f s
  | some o =>
    match childOf o f with
    | none => some s
    | some c =>
      if bits f.fields 26 26 ≠ o.phase % 2 || o.childArrived.contains c then some s
      else
        some (s.advanceSync { o with childArrived := o.childArrived ++ [c],
                                     canReduce := o.canReduce && (o.phase != 0 || bit f.fields 27) })

/-- RELEASE from the parent: the phase completes here and is passed on; in the first it carries the decision (R270, R279). -/
def serveRelease (f : Frame) (s : State) : Option State :=
  match s.syncFor f with
  | none => serveBankRelease f s
  | some o =>
    if !fromParent o f || bits f.fields 26 26 ≠ o.phase % 2 || !o.arriveSent then some s
    else some (s.completePhase o (bit f.fields 27))

/-- CREDIT from the parent: further pieces may be sent (R277). -/
def serveCredit (f : Frame) (s : State) : Option State :=
  match s.syncFor f with
  | none => some s
  | some o =>
    match o.run with
    | none => some s
    | some r =>
      if !r.main || !fromParent o f || leAt f.payload 16 2 ≠ r.serial then some s
      else
        let r := { r with parentBase := (List.range 4).map fun d => leAt f.payload (4 * d) 4 }
        (finishRun o (s.runPieces o r)).land s o.job

/-- READY: from a child it counts toward this member's own, from the parent it completes the phase (R281). -/
def serveReady (f : Frame) (s : State) : Option State :=
  match s.syncFor f with
  | none => none
  | some o =>
    if bits f.fields 26 26 ≠ o.readyPhase % 2 then some s
    else if fromParent o f then (if o.readySent then (s.readyOver o).land s o.job else some s)
    else match childOf o f with
      | none => some s
      | some c =>
        if o.readyChildren.contains c then some s
        else (s.advanceReady { o with readyChildren := o.readyChildren ++ [c] }).land s o.job

/-- SYNC_ARRIVE_FRAME. -/
def execSyncArriveFrame (s : State) : Res := s.frameRow .syncArriveFrame (syncKind 0) serveArrive

/-- SYNC_RELEASE_FRAME. -/
def execSyncReleaseFrame (s : State) : Res := s.frameRow .syncReleaseFrame (syncKind 1) serveRelease

/-- SYNC_CREDIT_FRAME. -/
def execSyncCreditFrame (s : State) : Res := s.frameRow .syncCreditFrame (syncKind 2) serveCredit

/-- SYNC_READY_FRAME. -/
def execSyncReadyFrame (s : State) : Res := s.frameRow .syncReadyFrame (syncKind 3) serveReady

/-- CREDIT_SEND_TIMER: every member tells its children BASE (R277). -/
def execCreditSendTimer (s : State) : Res :=
  .next (s.fab.objs.foldl (fun s o => match o.run with
    | some r => if r.main && s.objRuns o then s.sendCredits o r else s
    | none => s) s)

/-! ## REDUCE frames (R275, R276, R284) -/

/-- Where the first local rank's DST lies. -/
def runDst (r : CollRun) : Nat := match r.parts with | q :: _ => q.dst | [] => 0

/-- Does a REDUCE frame belong to an object's run: its context, its SERIAL, its sender, its address? -/
def reduceIn (f : Frame) (o : SyncObj) : Bool :=
  match o.run with
  | some r => o.ctx == f.fields % 256 && r.main && r.serial == bits f.fields 31 16 && !r.parts.isEmpty && runDst r ≤ f.addr &&
      (if bit f.fields 14 then fromParent o f else (childOf o f).isSome)
  | none => false

/-- The run whose DST begins nearest below the frame's address. -/
def State.reduceFor (s : State) (f : Frame) : Option (SyncObj × CollRun) :=
  let l := (s.fab.objs.filter fun o => reduceIn f o && s.objRuns o).filterMap fun o => o.run.map fun r => (o, r)
  match l with
  | [] => none
  | x :: t => some (t.foldl (fun a y => if runDst a.2 < runDst y.2 then y else a) x)

/-- The elements of a row of a format that `n` bytes hold, up to a piece. -/
def elemsIn (fmt n : Nat) : Nat := ((List.range 1025).reverse.find? fun k => rowBytes fmt k == n).getD 0

/-- A REDUCE frame combined at its home unit in the up phase, or written and passed on in the down phase. -/
def serveReduce (f : Frame) (s : State) : Option State :=
  match s.reduceFor f with
  | none => none
  | some (o, r) =>
    let fm := collFmts r.enc
    let step := rowBytes fm.1 1024
    let off := f.addr - runDst r
    let i := off / step
    let e := elemsIn fm.1 (off % step)
    match r.pieces[i]? with
    | none => some (s.jobFault o.job Code.COLL_MISMATCH 0 0 0)
    | some p =>
      let n := min (elemsIn fm.2 f.payload.length) (p.acc.length - e)
      let ws := decodeWords fm.2 n f.payload
      if bits f.fields 11 8 ≠ fm.2 || bits f.fields 13 12 ≠ collRedop r.enc then
        some (s.jobFault o.job Code.COLL_MISMATCH 0 0 0)
      else if bit f.fields 14 then
        let r := r.putWords (1024 * i + e) ws
        let s := (o.children.filter fun c => pieceFor o r i c.1).foldl (fun s c =>
          s.sendMsg (i % 4) (s.frameClass o.ctx) c.2.1 3 o.ctx (c.2.2 + f.fields / 256 * 256) [(f.addr, f.payload)]) s
        (finishRun o (s.deliverWords o r)).land s o.job
      else
        let key := 2 * (childOf o f).getD 0 + 1
        let had := ((p.got.find? (·.1 == key)).map (·.2)).getD 0
        let p := { p with acc := mergeInput (collRedop r.enc) e ws p.acc,
                          got := p.got.filter (·.1 != key) ++ [(key, had + n)] }
        let r := { r with pieces := r.pieces.set i p }
        (finishRun o (s.runPieces o r)).land s o.job

/-- REDUCE_FRAME. -/
def execReduceFrame (s : State) : Res := s.frameRow .reduceFrame (fun f => f.typ == 3) serveReduce

/-! ## WRITE frames (R280 to R282) -/

/-- Does a WRITE frame belong to an object's run: its source is a member, its address lies in a local DST, READY has completed? -/
def writeIn (f : Frame) (o : SyncObj) : Bool :=
  match o.run with
  | some r => !r.main && r.ready && r.members.contains (f.src, f.ctx) &&
      r.parts.any fun q => q.dst ≤ f.addr && f.addr < q.dst + (collSizes r.enc o.size).2 + (if r.ring then 2 ^ 40 else 0)
  | none => false

def State.writeFor (s : State) (f : Frame) : Option (SyncObj × CollRun) :=
  (s.fab.objs.find? fun o => writeIn f o && s.objRuns o).bind fun o => o.run.map fun r => (o, r)

/-- A frame of a ring message put with the others of its TAG. -/
def addMsg (tag addr : Nat) (bs : List Byte) : List (Nat × List (Nat × List Byte)) → List (Nat × List (Nat × List Byte))
  | [] => [(tag, [(addr, bs)])]
  | x :: t => if x.1 = tag then (x.1, x.2 ++ [(addr, bs)]) :: t else x :: addMsg tag addr bs t

/-- A WRITE frame's payload written to the DST it names; a broadcast's goes on down its tree. -/
def serveWrite (f : Frame) (s : State) : Option State :=
  match s.writeFor f with
  | none => none
  | some (o, r) =>
    if r.ring then
      let x := State.ringTake o (2 * o.size) ({ r with msgs := addMsg f.tag f.addr f.payload r.msgs }, s)
      (finishRun o (x.2.deliverWords o x.1)).land s o.job
    else
      let ws := [(f.addr, f.payload)]
      let core := (r.parts.map (·.core)).headD 0
      let s := if r.op = 4 then
          (directTo o r).foldl (fun s pos => s.sendWrite o core (r.members.getD pos (0, 0)) f.addr f.payload) s
        else s
      (finishRun o (r.land ws, s, ws)).land s o.job

/-- WRITE_FRAME. -/
def execWriteFrame (s : State) : Res := s.frameRow .writeFrame (fun f => f.typ == 0) serveWrite

/-! ## READ frames (R249; log entry 61) -/

/-- A READ_REQUEST served: bytes at ADDRESS in the context of the source, under the source's TAG. The frame states no length: it is
free. Poisoned data goes with POISON; an address that is not mapped memory is not answered. -/
def serveRead (f : Frame) (s : State) : Option State :=
  let n := s.freeNat
  let len := n.1 % (s.maxFrame 0 f.src + 1)
  match n.2.vRead f.ctx f.addr len with
  | .ok (bs, t) => some (t.inject 0 ⟨f.cls, 0, f.src, t.deviceId, 2, 0, 8, f.ctx, f.addr, f.tag, 1, 0, bs⟩)
  | .poison _ =>
    let b := n.2.freeBytes len
    some (b.2.inject 0 ⟨f.cls, 0, f.src, b.2.deviceId, 2, 0, 8, f.ctx, f.addr, f.tag, 3, 0, b.1⟩)
  | .wait => none
  | _ => some n.2

/-- READ_REQUEST_FRAME. -/
def execReadRequestFrame (s : State) : Res := s.frameRow .readRequestFrame (fun f => f.typ == 1) serveRead

/-- READ_RESPONSE_FRAME: the data goes to the requester of its TAG. -/
def execReadResponseFrame (s : State) : Res :=
  s.frameRow .readResponseFrame (fun f => f.typ == 2) fun f s => some (s.emit (.response f.tag f.payload))

/-! ## The dump (R285) -/

/-- An object's record (Table COL-8). -/
def objRecord (i : Nat) : Option SyncObj → List Byte
  | none => leBytes 2 i ++ List.replicate 30 0
  | some o =>
    let left := match o.run with | some r => (r.parts.flatMap (·.todo)).eraseDups.length | none => 0
    let flags := (if o.windows then 1 else 0) + (if o.decided == some false then 2 else 0) + (if o.phase != 0 then 4 else 0) +
      (if o.run.isSome then 8 else 0) + (if o.arriveSent then 16 else 0)
    leBytes 2 i ++ leBytes 1 1 ++ leBytes 1 o.ctx ++ leBytes 2 o.ident ++ leBytes 2 flags ++ leBytes 4 o.phase ++
      leBytes 2 o.arrived.length ++ leBytes 2 o.ranks.length ++ leBytes 1 o.childArrived.length ++ leBytes 1 o.children.length ++
      leBytes 2 o.serial ++ leBytes 4 o.self ++ leBytes 4 o.devSet ++ leBytes 4 left

/-- The dump: header (Table COL-7) and 4,096 records. -/
def State.dumpBytes (s : State) : List Byte :=
  leBytes 1 3 ++ leBytes 3 0 ++ leBytes 4 s.deviceId ++ leBytes 8 s.timeNs ++ leBytes 2 4096 ++
    leBytes 2 (4096 - s.fab.objs.length) ++ List.replicate 44 0 ++ (List.range 4096).flatMap fun i => objRecord i (s.syncAt i)

/-- May the dump run in the device's state: READY, RUN, LULL or FAULTED? -/
def State.dumpOpen (s : State) : Bool := (2 ≤ s.devState && s.devState ≤ 4) || s.devState == 6

/-- SYNC_DUMP_START: START written by an authorized requester; without the authorization the access is SECURE_ONLY_ACCESS's. -/
def execSyncDumpStart (req : Requester) (value : Word) (s : State) : Res :=
  if !s.facilityOpen req 2 then .refused .otherRow
  else if bit value.toNat 0 && s.dumpOpen && s.getF F.DBG_SYNC_DUMP_STATUS_STATE ≠ 1 then
    .next ((s.putF F.DBG_SYNC_DUMP_STATUS_STATE 1).putF F.DBG_SYNC_DUMP_STATUS_LAST_CODE 0)
  else .next s

/-- SYNC_DUMP_COMPLETE: the dump is written to the host. -/
def execSyncDumpComplete (s : State) : Res :=
  if s.getF F.DBG_SYNC_DUMP_STATUS_STATE ≠ 1 then .refused .notDue
  else .next ((s.hostWrite 2 none none (s.getP P.DBG_SYNC_DUMP_ADDR) s.dumpBytes).putF F.DBG_SYNC_DUMP_STATUS_STATE 2)

end Sys2Proof.Machine
end

