-- ==== Sys2Proof/Machine/Guard.lean ====
section
/-! DEFINITION. The end of a sampled check: tolerance, Updraft, acceptance and hardware suspicion (R120 to R130). -/

namespace Sys2Proof.Machine

open Sys2Proof

/-- The exact product U·V added to a column of the master weight (R121). -/
def addUV (u : List (List FV)) (vc : List FV) (col : List FV) : List FV :=
  col.zipIdx.map fun (w, k) => ((u.zip vc).foldl (fun a (uc, v) => fvAdd a (fvMul (uc.getD k fvZero) v)) w)

/-- The norms of a checked tile, and whether its reference is a self reference (R121 to R123). -/
def State.checkNorms (s : State) (p : Nat) (x : Plan) (g : Guard) (k : Check) (own : Bool) : Norms × Bool :=
  let ab := srcsAt x (some g) k.rung
  let master := !own && g.aMaster != noSrc && g.wMaster != noSrc
  let a : Src := if !own && g.aMaster ≠ noSrc then ⟨g.aMaster, g.aMFmt, false⟩ else ab.1
  let w : Src := if !own && g.wMaster ≠ noSrc then ⟨g.wMaster, g.wMFmt, false⟩ else ab.2
  let side := (s.sidecarAt p g).map fun h => (s.sideU p x.k h, s.sideV p h)
  let cols0 := s.weightCols p x w
  let cols := match side with
    | some (u, v) => if master then (v.zip cols0).map fun (vc, c) => addUV u vc c else cols0
    | none => cols0
  let row (i : Nat) : List (Nat × Nat × Nat) :=
    let r := s.actRow p x a (64 * k.tile + i)
    let prior := if x.overwrite then List.replicate 64 0 else wordsOf ((k.shadow.drop (256 * i)).take 256)
    let y := wordsOf (s.accBytes p ((x.tileAt k.tile).1 + 256 * i) 256)
    (List.range 64).map fun n =>
      let sd := match side with
        | some (u, v) => if master then none else some (u, v.getD n [])
        | none => none
      let e := refElement (prior.getD n 0) r (cols.getD n []) sd
      (y.getD n 0, e.1, e.2)
  (normsOf ((List.range (x.tileRows k.tile)).flatMap row), !master)

/-- The head check replaced. -/
def State.putCheck (s : State) (p : Nat) (k : Check) : State :=
  let c := s.core p
  s.setCore p { c with checks := k :: c.checks.drop 1 }

/-- The head check ended. -/
def State.popCheck (s : State) (p : Nat) : State :=
  let c := s.core p
  s.setCore p { c with checks := c.checks.drop 1 }

/-- A kept tile under suspicion settles it: the first core is retired at the next full Lull (R130, R47). -/
def State.clearSuspect (s : State) (uid layer tile : Nat) : State :=
  match s.jobOf uid with
  | none => s
  | some j =>
    match j.suspect with
    | none => s
    | some x =>
      if x.layer = layer && x.tile = tile then
        let s := s.setJob { j with suspect := none, hwReplay := false }
        if j.hwReplay then s
        else { s with rel.retire := if s.rel.retire.contains x.core then s.rel.retire else s.rel.retire ++ [x.core] }.settleHold
      else s

/-- R128: escalated tiles counted for their layer; at ESC_LAYER_K the layer takes the rung at which this one was kept. -/
def State.escalateLayer (s : State) (uid layer rung esc : Nat) : State :=
  s.setLayer uid layer fun l =>
    if l.rung < rung then
      (if esc ≠ 0 && esc ≤ l.count + 1 then { l with rung := rung, count := 0 } else { l with count := l.count + 1 })
    else l

/-- The attempt is kept (R127, R129). -/
def State.keepTile (s : State) (p uid : Nat) (g : Guard) (k : Check) (esc : Nat) : State :=
  let s := (s.popCheck p).addFlags p 0 k.flags
  let s := (s.escalateLayer uid k.layer k.rung esc).countEscalated uid k.layer k.rung k.up
  (s.clearSuspect uid k.layer (g.base + k.tile)).serveEpilogue p

/-- The tile repeated at a rung (R127). -/
def State.repeatTile (s : State) (p : Nat) (x : Plan) (g : Guard) (k : Check) (r : Nat) : State :=
  let ab := srcsAt x (some g) r
  let n := x.tileRows k.tile
  let side := s.sidecarAt p g
  let proj := side.map fun h =>
    ((List.range n).map fun i => projRow (s.actRow p x ab.1 (64 * k.tile + i)) (s.sideU p x.k h), s.sideV p h)
  let t := s.runTile p x ab k.tile k.shadow proj
  let c := s.engineCycles p x ab n
  let s := match side with
    | some h => c.1.addP (P.JOB_CORE_SIDESTALL p) (sideCycles true n x.k h.rank - c.2)
    | none => c.1
  ((s.setAcc p (x.tileAt k.tile).1 t.1).putCheck p { k with rung := r, flags := t.2, up := true }).windowCounts p x (64 * k.tile)
    (64 * k.tile + n)

/-- GUARD_MISMATCH_HW (R130): the host and system controller A are told. -/
def State.hwEvent (s : State) (p ctx layer : Nat) (second : Bool) : State :=
  let w := s.getF (F.JOB_CORE_STATUS_LOGICAL p) + (if second then 2 ^ 11 else 0) + ctx * 2 ^ 12 + layer * 2 ^ 20
  let s := (s.setReg R.JOB_GUARD_HW_EVENT (BitVec.ofNat 32 w)).addF F.JOB_GUARD_HW_COUNT_COUNT 1
  (s.log Code.GUARD_MISMATCH_HW (unitId 0xE p) (some ctx) w 0).raise 3

/-- Hardware suspicion (R130): the program goes to another core, by replay within the step or from the last Lull. -/
def State.suspect (s : State) (p : Nat) (j : Job) (k : Check) (tile : Nat) (g : Program) : State :=
  let again := match j.suspect with | some x => x.layer == k.layer && x.tile == tile | none => false
  if again && j.hwReplay then s.jobFault j.uid Code.ESCALATION_EXHAUSTED 0 0 0
  else
    let s := s.hwEvent p j.ctx k.layer again
    let l := s.getF (F.JOB_CORE_STATUS_LOGICAL p)
    if again then
      let first := (j.suspect.map (·.core)).getD p
      let s := { s.setJob { j with hwReplay := true } with rel.chosen := s.rel.chosen.filter fun c => c.1 != first }
      s.replayStep j.uid (unitId 0xE p)
    else
      let ok := s.replayableOn p
      let s := s.setJob { j with suspect := some ⟨l, p, k.layer, tile⟩, hwReplay := false }
      match s.sparesFor p with
      | q :: _ => if ok then s.moveProgram j.uid p q g else s.replayStep j.uid (unitId 0xE p)
      | [] => s.replayStep j.uid (unitId 0xE p)

/-- The last attempt passes the arithmetic test with no rung above (R127). -/
def State.atTop (s : State) (p : Nat) (j : Job) (g : Guard) (k : Check) (l : LayerSet) : State :=
  if l.accept then
    (s.setLayer j.uid k.layer fun y => { y with accepted := y.accepted + 1 }).keepTile p j.uid g k l.esc
  else s.jobFault j.uid Code.ESCALATION_EXHAUSTED 0 0 0

/-- A check of the head tile ends. -/
def State.checkEnds (s : State) (p : Nat) (prog : Program) (j : Job) (g : Guard) (k : Check) : State :=
  let x := s.planOf p k.enc
  let l := s.layerSet j.uid k.layer
  let n := s.checkNorms p x g k k.selfPass
  let fails := n.2 && failsArithmetic x.k x.p n.1
  let tile := g.base + k.tile
  if k.selfPass then (if fails then s.suspect p j k tile prog else s.atTop p j g k l)
  else
    let miss := tileMisses l.tol n.1
    let s := (s.addF (F.JOB_CORE_GUARD_CHECKS_COUNT p) 1).setLayer j.uid k.layer fun y => { y with checks := y.checks + 1 }
    let s := if miss then
        (s.addF (F.JOB_CORE_GUARD_MISSES_COUNT p) 1).setLayer j.uid k.layer fun y => { y with misses := y.misses + 1 }
      else s
    let j := (s.jobOf j.uid).getD j
    if fails then s.suspect p j k tile prog
    else if !miss then s.keepTile p j.uid g k l.esc
    else match nextRung x (some g) k.rung with
      | some r => s.repeatTile p x g k r
      | none => if n.2 then s.atTop p j g k l else s.putCheck p { k with selfPass := true }

/-- MMA_CHECK_COMPLETE: the check unit finishes the oldest tile it holds (R122 to R130). -/
def execMmaCheckComplete (core : Nat) (s : State) : Res :=
  match (s.core core).checks, (s.core core).prog with
  | k :: _, some prog =>
    match s.jobOf prog.job, s.guardAt core (s.planOf core k.enc) with
    | some j, some g =>
      if j.phase = .running then .next (s.checkEnds core prog j g k) else .next (s.hold (.mmaCheckComplete core))
    | _, _ => .refused .notDue
  | _, _ => .refused .notDue

end Sys2Proof.Machine
end

