-- ==== Sys2Proof/Machine/HostOps.lean ====
section
/-! DEFINITION. What happens at the host link: transfers that waited go on (R370), waiting MSI-X messages leave (R373), and the link
resets (R367, R368). -/

namespace Sys2Proof.Machine

open Sys2Proof

/-! ## Transfers that wait (R370) -/

/-- Does the link take transfers of a virtual channel? -/
def State.vcFlows (s : State) (vc : Nat) : Bool :=
  s.host.up && !s.host.d3 && s.getF F.GLB_HOST_LINK_BUS_MASTER == 1 && !s.host.stalled.contains vc &&
    s.getF (F.GLB_DMA_SUSP_SUSPENDED vc) == 0

/-- A transfer's bytes not yet accepted are sent. A completion record that a delivery has left behind sets its source pending again
(R369). -/
def State.sendTransfer (s : State) (t : Transfer) : State :=
  let s := s.emit (.hostWrite t.vc (t.addr + t.accepted) (t.data.drop t.accepted))
  match t.ctx, t.uid with
  | some c, some _ => if s.host.owed.any (fun (o : Nat × Nat) => o == (144 + c / 4, s.ctxClass c)) then s.raise (144 + c / 4) else s
  | _, _ => s

/-- A channel that flows sends everything that waited, oldest first. -/
def State.drainVc (s : State) (vc : Nat) : State :=
  if s.vcFlows vc then
    let mine := s.host.dma.filter fun (t : Transfer) => t.vc == vc
    mine.foldl State.sendTransfer { s with host.dma := s.host.dma.filter fun (t : Transfer) => t.vc != vc }
  else s

/-! ## MSI-X (R372, R373) -/

/-- May a message leave now? -/
def State.msixOpen (s : State) : Bool :=
  s.host.up && !s.host.d3 && s.getF F.GLB_HOST_LINK_BUS_MASTER == 1 && s.getF F.GLB_HOST_LINK_MSIX_ENABLED == 1

/-- The class of transfers a source's messages travel with (R369): a completion source's by the records it owes. -/
def State.irqClass (s : State) (n : Nat) : Nat :=
  if n < 144 then 2 else if s.host.owed.any (fun (o : Nat × Nat) => o == (n, 1)) then 1 else 0

/-- Messages of vectors that were masked, or could not be sent, leave. -/
def State.sendPendingMsix (s : State) : State :=
  if !s.msixOpen then s
  else
    let go := s.host.pendingMsix.filter fun (v : Nat) => !s.host.masked.contains v
    go.foldl (fun s v => s.emit (.msix (s.vcOf (s.irqClass (s.getF (F.IRQ_HOST_VEC_SOURCE v)))) v))
      { s with host.pendingMsix := s.host.pendingMsix.filter fun (v : Nat) => s.host.masked.contains v }

/-- Everything that waited for the link goes on. -/
def State.linkOpens (s : State) : State := (((s.drainVc 0).drainVc 1).drainVc 2).sendPendingMsix

/-! ## Link reset (R367, R368) -/

/-- What a reset does to a channel of the host. -/
def State.resetChan (s : State) (c : Nat) : State :=
  let s := if s.mail.staged.contains c && !s.chanBusy c then
      ((s.putP (reqPtr c) 0).putF (reqLen c) 0).putF (reqOp c) 0
    else s
  s.withdrawNotice c Code.HOST_LINK_EPOCH

/-- Facilities that no token opens any longer close (R391): Squall stops and lets its ports go, a traffic generator stops. -/
def State.closeFacilities (s : State) : State :=
  let opened (fac : Nat) : Bool := s.sec.tokens.any fun (t : Token) => bit t.facilities fac
  let s := if opened 0 then s
    else (List.range 32).foldl (fun s p => if s.reg (R.DBG_SQ_CONTROL p) = 0 then s
      else (s.setReg (R.DBG_SQ_CONTROL p) 0).holdPort p) s
  if opened 1 then s
  else (List.range 512).foldl (fun s p => if s.getF (F.DBG_TG_STATUS_STATE p) = 1 then s.putF (F.DBG_TG_STATUS_STATE p) 2 else s) s

/-- Tokens that satisfy a condition end. -/
def State.endTokens (s : State) (p : Token → Bool) : State :=
  { s with sec.tokens := s.sec.tokens.filter fun t => !p t }.closeFacilities

/-- A hot reset, FLR or loss of the link: configuration space, MSI-X table, staged halves and the host's channels are reset, the epoch
goes up by one; host tokens end. -/
def State.linkReset (s : State) (down : Bool) : State :=
  let s := { s with host.up := s.host.up && !down, host.d3 := false, host.masked := List.range 64, host.pendingMsix := [],
                    host.bar4GiB := 64, host.stalled := if down then [] else s.host.stalled,
                    stages := s.stages.filter fun (e : Requester × Nat × Word) => e.1 != Requester.host }
  let s := ((s.putF F.GLB_HOST_LINK_BUS_MASTER 0).putF F.GLB_HOST_LINK_MSIX_ENABLED 0).putF F.GLB_HOST_LINK_VCS 0
  let s := (List.range 32).foldl State.resetChan s
  let s := { s with mail.staged := s.mail.staged.filter fun (c : Nat) => 32 ≤ c }
  let s := s.addF F.GLB_HOST_EPOCH_VALUE 1
  let s := (s.log Code.HOST_LINK_EPOCH (unitId 0xA 0) none (s.getF F.GLB_HOST_EPOCH_VALUE) 0).raise 7
  s.endTokens fun t => t.who == 0

end Sys2Proof.Machine
end

