-- ==== Sys2Proof/Machine/HostLink.lean ====
section
/-! DEFINITION. The commands of the PCIe link, the mailboxes, host DMA and the interrupt controller (R353 to R377). -/

namespace Sys2Proof.Machine

open Sys2Proof

/-! ## The link (R353, R354, R367) -/

/-- HOST_LINK_TRAINED (R353, R354). -/
def execHostLinkTrained (gen width : Nat) (s : State) : Res :=
  if !s.islandOn 1217 || gen = 0 || 6 < gen || !([1, 2, 4, 8, 16].contains width) then .refused .notDue
  else
    let s := { s with host.up := true }
    let s := ((s.putF F.GLB_HOST_LINK_GEN gen).putF F.GLB_HOST_LINK_WIDTH width).putF F.GLB_HOST_LINK_FLIT (if gen = 6 then 1 else 0)
    .next ((if gen < 6 || width < 16 then s.log Code.HOST_LINK_NARROW (unitId 0xA 0) none 0 0 else s).linkOpens)

/-- HOST_LINK_RESET (R367, R368): a hot reset or FLR, or the link goes down. -/
def execHostLinkReset (down : Bool) (s : State) : Res := if s.host.up then .next (s.linkReset down) else .refused .notDue

/-- D3HOT_ENTRY (R354). -/
def execD3hotEntry (s : State) : Res := if s.host.up then .next { s with host.d3 := true } else .refused .notDue

/-- D3HOT_EXIT (R354, R370, R372). -/
def execD3hotExit (s : State) : Res := if s.host.d3 then .next { s with host.d3 := false }.linkOpens else .refused .notDue

/-- CONFIG_SPACE_WRITE (R355, R358, R367, R369, R372): Bus Master Enable, MSI-X enable, virtual channels, the vectors masked and the
size of BAR4 as the host leaves them. -/
def execConfigSpaceWrite (busMaster msix : Bool) (vcs : Nat) (masked : List Nat) (bar4GiB : Nat) (s : State) : Res :=
  if !s.host.up || 2 < vcs || !masked.all (· < 64) || !([1, 2, 4, 8, 16, 32, 64].contains bar4GiB) then .refused .notDue
  else
    let s := { s with host.masked := masked, host.bar4GiB := bar4GiB }
    let s := (s.putF F.GLB_HOST_LINK_BUS_MASTER (if busMaster then 1 else 0)).putF F.GLB_HOST_LINK_MSIX_ENABLED (if msix then 1 else 0)
    let s := s.putF F.GLB_HOST_LINK_VCS vcs
    let base := s.getP P.GLB_BAR4_BASE
    .next (s.putP P.GLB_BAR4_BASE (base / (bar4GiB * 2 ^ 30) * (bar4GiB * 2 ^ 30))).linkOpens

/-! ## Mailboxes (R362 to R366) -/

/-- Bytes a channel's POINTER may reach: the shared window, or the secure controller's message store. -/
def chanBytes (c : Nat) : Nat := if c < 32 then 2 ^ 30 else 2 ^ 20

/-- Who rings a doorbell: 0 the host, 1 a system controller, 2 a management session. -/
def callerOf : Requester → Nat
  | .session => 2
  | .host => 0
  | _ => 1

/-- Bytes written where a channel's payloads lie. -/
def State.putPayload (s : State) (c addr : Nat) (bs : List Byte) : State :=
  if c < 32 then (s.touch addr bs.length true).setHbm addr bs
  else { s with mail.store := storeSetRun zeroByte s.mail.store addr bs }

/-- Is POINTER, LENGTH or alignment against R362? -/
def badNotice (c ptr len : Nat) : Bool := ptr % 8 != 0 || 2 ^ 24 < len || chanBytes c < ptr + len

/-- A doorbell judged by the mailbox block (R363), first condition that holds. -/
def State.ring (s : State) (req : Requester) (c seq : Nat) (payload : List Byte) : State :=
  let ptr := s.getP (reqPtr c)
  let len := s.getF (reqLen c)
  let op := s.getF (reqOp c)
  let epoch := s.getF F.GLB_HOST_EPOCH_VALUE
  if s.chanBusy c then (s.answerNotice c Code.CHANNEL_BUSY seq).putF (ackBusy c) 1
  else
    let s := { s with mail.staged := s.mail.staged.filter fun (x : Nat) => x != c }
    if !s.chanOn c then s.ackNotice c Code.DOMAIN_OFF seq epoch
    else if badNotice c ptr len then s.ackNotice c Code.BAD_NOTICE seq epoch
    else if c < 32 && bit op 15 then s.ackNotice c Code.SECURE_ONLY seq epoch
    else
      let s := if c < 32 then s else s.putPayload c ptr (payload.take len)
      ({ s with mail.notices := s.mail.notices ++ [Notice.mk c ptr len op seq epoch (callerOf req)] }.putF (ackState c) 1).raise (16 + c)

/-- DOORBELL (R362, R363, R366): `payload` is what a secure requester has written at POINTER in the message store, which no other
command writes (log entry 107). -/
def execDoorbell (req : Requester) (channel : Nat) (value : Word) (payload : List Byte) (s : State) : Res :=
  whenPart (channel < 64) <|
    if 32 ≤ channel && !isSecure req then .refused .otherRow
    else .next (match s.chanQuiet channel with
      | some i => s.retryLater i (.doorbell req channel value payload)
      | none => s.ring req channel (value.toNat % 2 ^ 16) payload)

/-- NOTICE_ACK (R364): the target of the notice in flight acknowledges it with a code of the status space. -/
def execNoticeAck (channel code : Nat) (s : State) : Res :=
  match s.notice channel with
  | none => .refused .notDue
  | some n => .next (s.completeNotice n (code % 2 ^ 16))

/-- The kind of a channel's target: 0 system controller, 1 tile supervisor, 2 secure controller (Table HST-3). -/
def targetKind (c : Nat) : Nat := if c < 24 then 0 else if c < 28 then 1 else 2

/-- Does a target's firmware implement an opcode (Table BOOT-7)? -/
def opImplemented (c op : Nat) : Bool :=
  op == 0 || match targetKind c with
    | 0 => 1 ≤ op && op ≤ 5
    | 1 => op == 1
    | _ => (0x10 ≤ op && op ≤ 0x14) || (0x8001 ≤ op && op ≤ 0x8003)

/-- NOTICE_UNIMPLEMENTED (R364, R396). -/
def execNoticeUnimplemented (channel : Nat) (s : State) : Res :=
  match s.notice channel with
  | none => .refused .notDue
  | some n => if opImplemented channel n.op then .refused .otherRow else .next (s.completeNotice n Code.BAD_NOTICE)

/-- NOP (R364). -/
def execNop (channel : Nat) (s : State) : Res :=
  match s.notice channel with
  | none => .refused .notDue
  | some n => if n.op = 0 then .next (s.completeNotice n Code.OK) else .refused .otherRow

/-- TARGET_NOTICE_POST (R365): none while the last one is not acknowledged. -/
def execTargetNoticePost (channel ptr op seq : Nat) (data : List Byte) (s : State) : Res :=
  whenPart (channel < 64) <|
    if !s.chanOn channel || s.getF (ackTgt channel) = 1 || badNotice channel ptr data.length then .refused .notDue
    else
      let s := ((s.putPayload channel ptr data).putP (tgtPtr channel) ptr).putF (tgtLen channel) data.length
      .next ((((s.putF (tgtOp channel) op).putF (tgtSeq channel) seq).putF (ackTgt channel) 1).raise (80 + channel))

/-- TARGET_NOTICE_ACK (R365, R366): a write of MB_TGT_ACK, on the notice page. -/
def execTargetNoticeAck (req : Requester) (channel : Nat) (value : Word) (s : State) : Res :=
  whenPart (channel < 64) <|
    if 32 ≤ channel && !isSecure req then .refused .otherRow
    else .next (match s.chanQuiet channel with
      | some i => s.retryLater i (.targetNoticeAck req channel value)
      | none => if s.chanOn channel then s.withdrawNotice channel (value.toNat % 2 ^ 16) else s)

/-! ## Host DMA (R370) -/

/-- The transfer at the head of a channel, with the bytes of it that the link took before it stalled, suspended. -/
def State.suspend (s : State) (vc accepted : Nat) (t : Transfer) : State :=
  let n := min accepted (t.data.length - t.accepted)
  let s := if n = 0 then s else s.emit (.hostWrite vc (t.addr + t.accepted) ((t.data.drop t.accepted).take n))
  let t' : Transfer := { t with accepted := t.accepted + n }
  let rest := s.host.dma.filter fun (x : Transfer) => x != t
  let s := { s with host.dma := t' :: rest }
  let s := ((s.putF (F.GLB_DMA_SUSP_SUSPENDED vc) 1).putF (F.GLB_DMA_SUSP_CONTEXT vc) (t.ctx.getD 0)).putF
    (F.GLB_DMA_SUSP_CONTEXT_VALID vc) (if t.ctx.isSome then 1 else 0)
  let s := (s.putF (F.GLB_DMA_SUSP_BYTES_VALUE vc) t'.accepted).putP (P.GLB_DMA_SUSP_ADDR vc) t.addr
  (s.log Code.HOST_STALL_SUSPENDED (unitId 0xA 0) t.ctx 0 0).raise 7

/-- DMA_STALL_TIMEOUT (R370): `accepted` says how many bytes of the transfer at the head the link had taken. -/
def execDmaStallTimeout (vc accepted : Nat) (s : State) : Res :=
  whenPart (vc < 3) <|
    if s.vcFlows vc || s.getF (F.GLB_DMA_SUSP_SUSPENDED vc) = 1 then .refused .notDue
    else match s.host.dma.find? fun (t : Transfer) => t.vc == vc with
      | none => .refused .notDue
      | some t => .next (s.suspend vc accepted t)

/-- HOST_CREDIT_RETURN (R370): the host returns credits on a channel, or (`more` false) returns none from now on (log entry 108). -/
def execHostCreditReturn (vc : Nat) (more : Bool) (s : State) : Res :=
  whenPart (vc < 3) <|
    let others := s.host.stalled.filter fun (x : Nat) => x != vc
    .next (if more then { s with host.stalled := others }.drainVc vc else { s with host.stalled := others ++ [vc] })

/-- DMA_RESUME (R370): a write of GLB_DMA_CONTROL. -/
def execDmaResume (_req : Requester) (value : Word) (s : State) : Res :=
  .next ((List.range 3).foldl (fun s vc =>
    if bit value.toNat vc then (s.putF (F.GLB_DMA_SUSP_SUSPENDED vc) 0).drainVc vc else s) s)

/-! ## Interrupts (R371 to R374) -/

/-- The clock of a controller target in MHz: the always-on domain's 200, or its island's (R336, R339). -/
def State.targetMhz (s : State) (t : Nat) : Nat :=
  match t with
  | 0 => if s.rel.onB then s.getF (F.PWR_ISL_FREQ_TARGET 1219) else 200
  | 1 => s.getF (F.PWR_ISL_FREQ_TARGET 1218)
  | 2 | 3 | 4 | 5 => s.getF (F.PWR_ISL_FREQ_TARGET (1152 + (t - 2)))
  | _ => 200

/-- May a masked source still be delivered: its delivery began within 8 cycles of the write of MASK (R374)? -/
def State.maskLate (s : State) (t n : Nat) : Bool :=
  s.host.maskedAt.any fun (e : Nat × Nat) => e.1 == n && (s.timeNs - e.2) * s.targetMhz t ≤ 8000

/-- Is a source pending for a target? -/
def State.irqPending (s : State) (t n : Nat) : Bool := bit (s.getF (F.IRQ_SRC_PENDING n)) t

/-- The lowest-numbered source pending and unmasked for a target; `late`, one masked within its 8 cycles. -/
def State.irqNext (s : State) (t : Nat) (late : Bool) (p : Nat → Bool) : Option Nat :=
  (List.range 216).find? fun n => s.irqPending t n && p n &&
    (if late then s.getF (F.IRQ_SRC_MASK n) == 1 && s.maskLate t n else s.getF (F.IRQ_SRC_MASK n) == 0)

/-- A delivery: the pending latch clears and the source becomes active for the target. -/
def State.irqTake (s : State) (t n : Nat) (late : Bool) : State :=
  let s := s.putF (F.IRQ_SRC_PENDING n) (s.getF (F.IRQ_SRC_PENDING n) - 2 ^ t)
  let s := s.putF (F.IRQ_SRC_ACTIVE n) (Nat.lor (s.getF (F.IRQ_SRC_ACTIVE n)) (2 ^ t))
  if late then s.addF F.IRQ_MASK_LATE_COUNT 1 else s

/-- Can a controller target take an interrupt: its domain is running (R372)? -/
def State.targetOn (s : State) (t : Nat) : Bool :=
  match t with
  | 0 => !s.rel.onB || s.islandOn 1219
  | 1 => s.islandOn 1218
  | _ => s.islandOn (1152 + (t - 2))

/-- A controller target takes its next interrupt. -/
def State.deliverTo (s : State) (t : Nat) (late : Bool) : Option State :=
  if s.getF (F.IRQ_TGT_ACTIVE_VALID t) = 1 || !s.targetOn t then none
  else (s.irqNext t late fun _ => true).map fun n =>
    (((s.irqTake t n late).putF (F.IRQ_TGT_ACTIVE_SOURCE t) n).putF (F.IRQ_TGT_ACTIVE_VALID t) 1).emit (.interrupt t n)

/-- Records of a source's contexts of a class, not yet written. -/
def State.recordsWait (s : State) (n cls : Nat) : Bool :=
  s.host.dma.any fun (t : Transfer) => t.uid.isSome && match t.ctx with | some c => 144 + c / 4 == n && s.ctxClass c == cls | none => false

/-- What a source owes after a delivery of a class: the records of the other class still waiting (R369). -/
def State.owedAfter (s : State) (n cls : Nat) : List (Nat × Nat) :=
  s.host.owed.filter fun (o : Nat × Nat) => o.1 != n || (o.2 != cls && s.recordsWait n o.2)

/-- A vector of the host takes its next source (R373): every merged record of the delivery's class has been written (R369). -/
def State.deliverVector (s : State) (v : Nat) (late : Bool) : Option State :=
  if !s.msixOpen || s.getF (F.IRQ_HOST_VEC_OUTSTANDING v) = 1 then none
  else
    match s.irqNext 6 late fun n => s.getF (F.IRQ_SRC_VECTOR n) == v with
    | none => none
    | some n =>
      let cls := s.irqClass n
      if s.recordsWait n cls || (!s.host.masked.contains v && !s.vcOpen (s.vcOf cls)) then none
      else
        let s := { s.irqTake 6 n late with host.owed := s.owedAfter n cls }
        let s := (s.putF (F.IRQ_HOST_VEC_SOURCE v) n).putF (F.IRQ_HOST_VEC_OUTSTANDING v) 1
        some (if s.host.masked.contains v then { s with host.pendingMsix := s.host.pendingMsix ++ [v] }
          else s.emit (.msix (s.vcOf cls) v))

/-- INTERRUPT_DELIVER (R369, R372 to R374): target 0 to 5, or 6 for a vector of the host. -/
def execInterruptDeliver (target vector : Nat) (late : Bool) (s : State) : Res :=
  whenPart (target < 7 && vector < 64) <|
    match if target < 6 then s.deliverTo target late else s.deliverVector vector late with
    | some t => .next t
    | none => .refused .notDue

/-- Is a requester the target? -/
def State.isTarget (s : State) (t : Nat) : Requester → Bool
  | .ctrlA => t == 0 && !s.rel.onB
  | .ctrlB => t == 0 && s.rel.onB
  | .secure => t == 1
  | .supervisor d => t == 2 + d
  | _ => false

/-- IRQ_TGT_EOI (R372, R377): the target ends its active interrupt; another requester's write, or another source, is ignored. -/
def execIrqTgtEoi (req : Requester) (target : Nat) (value : Word) (s : State) : Res :=
  whenPart (target < 6) <|
    let n := value.toNat % 256
    .next (if s.isTarget target req && s.getF (F.IRQ_TGT_ACTIVE_VALID target) = 1 && s.getF (F.IRQ_TGT_ACTIVE_SOURCE target) = n then
        (s.putF (F.IRQ_TGT_ACTIVE_VALID target) 0).putF (F.IRQ_SRC_ACTIVE n) (s.getF (F.IRQ_SRC_ACTIVE n) - 2 ^ target)
      else s)

/-- IRQ_HOST_EOI (R373): the vector is no longer outstanding. -/
def execIrqHostEoi (_req : Requester) (value : Word) (s : State) : Res :=
  let v := value.toNat % 64
  let n := s.getF (F.IRQ_HOST_VEC_SOURCE v)
  .next (if s.getF (F.IRQ_HOST_VEC_OUTSTANDING v) = 1 then
      (s.putF (F.IRQ_HOST_VEC_OUTSTANDING v) 0).putF (F.IRQ_SRC_ACTIVE n) (s.getF (F.IRQ_SRC_ACTIVE n) - 2 ^ 6)
    else s)

end Sys2Proof.Machine
end

