-- ==== Sys2Proof/Machine/Jobs.lean ====
section
/-! DEFINITION. The commands of contexts, submissions, steps and records (R56 to R71), but for the Lull. -/

namespace Sys2Proof.Machine

open Sys2Proof

/-! ## Steps (R65, R66) -/

/-- The running bulk jobs that hold one of the cores taken. -/
def State.victimsOf (s : State) (taken : List Nat) : List Job :=
  s.job.jobs.filter fun v => v.phase == .running && match v.step with | some st => st.cores.any taken.contains | none => false

/-- A job's step placed on its cores; with cores taken from others it waits for their save. -/
def State.placeStep (s : State) (j : Job) (cores taken : List Nat) : State :=
  let s := (s.victimsOf taken).foldl (fun s v => s.stopVictim v.uid (taken.map s.physOf)) s
  s.setJob { j with phase := .saving, step := some (s.newStep j cores taken) }

/-- STEP_BEGIN (R65, R66, R131, R135 to R138): the job whose turn it is takes its cores and starts its programs. -/
def execStepBegin (s : State) : Res :=
  match s.nextJob with
  | none => .refused .notDue
  | some j =>
    match s.coresFor j with
    | none => .refused .notDue
    | some (cores, taken) =>
      let t := s.placeStep j cores taken
      if taken.isEmpty then .next ((t.startPrograms j.uid).getD (s.hold .stepBegin)) else .next t.showJobs

/-- PREEMPT_SAVE_COMPLETE (R66 step 3, R67): the taken cores are saved; the saffron step's programs start. -/
def execPreemptSaveComplete (job : Nat) (s : State) : Res :=
  match s.jobOf job with
  | none => .refused .notDue
  | some j =>
    if j.phase != .saving then .refused .notDue
    else .next ((s.startPrograms job).getD (s.hold (.preemptSaveComplete job)))

/-- PREEMPT_RESTORE_COMPLETE (R66 step 6, R93): the victim's cores are restored; it resumes where it stopped. -/
def execPreemptRestoreComplete (job : Nat) (s : State) : Res :=
  match s.jobOf job with
  | none => .refused .notDue
  | some j => if s.victimReady j then .next (s.resumeVictim job) else .refused .notDue

/-! ## Records (R71, R62, R369) -/

/-- Queue entries of a context in use: jobs and records not yet posted. -/
def State.queueDepth (s : State) (ctx : Nat) : Nat :=
  (s.job.jobs.filter (·.ctx == ctx)).length + (s.job.records.filter (·.ctx == ctx)).length

/-- The counter a status is counted in (R62). -/
def State.countRecord (s : State) (ctx status : Nat) : State :=
  if isSuccess status then s.addF (F.JOB_CTX_COMPLETED_COUNT ctx) 1
  else if status = Code.ABORTED || status = Code.CONTEXT_TORN_DOWN then s.addF (F.JOB_CTX_ABORTED_COUNT ctx) 1
  else s.addF (F.JOB_CTX_FAULTED_COUNT ctx) 1

/-- Has the ring a slot the host has released, and the staging buffer room (R71, R370)? -/
def State.postRoom (s : State) (ctx : Nat) : Bool :=
  let used := (s.getF (F.JOB_CTX_RING_TAIL_VALUE ctx) + 2 ^ 32 - s.getF (F.JOB_CTX_RING_HEAD_VALUE ctx)) % 2 ^ 32
  used < 1024 && s.stagingRoom (s.vcOf (s.ctxClass ctx)) 64

/-- A CLOSING context with nothing left returns to FREE (Table EX-5). -/
def State.settleClosing (s : State) (ctx : Nat) : State :=
  if s.ctxState ctx = 2 && s.queueDepth ctx = 0 && s.job.fetching.all (·.ctx != ctx) then s.contextFree ctx 0 0 else s

/-- A record written to its slot, its counters and interrupt. -/
def State.postRecord (s : State) (r : Record) : State :=
  let tail := s.getF (F.JOB_CTX_RING_TAIL_VALUE r.ctx)
  let addr := s.getP (P.JOB_CTX_RING r.ctx) + tail % 1024 * 64
  let cls := s.ctxClass r.ctx
  let s := { s with job.records := s.job.records.filter fun x => x.uid != r.uid }
  let s := s.hostWrite cls (some r.ctx) (some r.uid) addr (r.body ++ leBytes 4 (tail + 1))
  let s := (s.putF (F.JOB_CTX_RING_TAIL_VALUE r.ctx) (tail + 1)).countRecord r.ctx r.status
  let s := s.setCtx r.ctx { s.ctx r.ctx with recent := (r.job :: (s.ctx r.ctx).recent).take 64 }
  let s := { s with host.owed := s.host.owed ++ [(144 + r.ctx / 4, cls)] }.raise (144 + r.ctx / 4)
  (s.settleClosing r.ctx).settleDevice

/-- COMPLETION_RECORD_POST (R71): the oldest record of a context is posted once its slot is released. -/
def execCompletionRecordPost (ctx : Nat) (s : State) : Res :=
  match s.job.records.find? (·.ctx == ctx) with
  | none => .refused .notDue
  | some r => .next (if s.postRoom ctx then s.postRecord r else s.hold (.completionRecordPost ctx))

/-- RING_HEAD_WRITE (R71): the host releases records. -/
def execRingHeadWrite (_req : Requester) (ctx : Nat) (value : Word) (s : State) : Res :=
  whenPart (ctx < 256) (.next (s.setReg (R.JOB_CTX_RING_HEAD ctx) value))

/-! ## Contexts (R60, R61) -/

/-- Contexts of a template that are not FREE. -/
def State.contextsOf (s : State) (template : Nat) : Nat :=
  ((List.range 256).filter fun c => s.ctxState c != 0 && s.getF (F.JOB_CTX_STATE_TEMPLATE c) == template).length

/-- The lowest free context ID: FREE and with every record of its last life posted. -/
def State.freeContextId (s : State) : Option Nat :=
  (List.range 256).find? fun c => s.ctxState c == 0 && s.queueDepth c == 0

/-- The registers of a context's pages returned to their reset values, but for the submission pair (R63: since reset). -/
def State.freshPages (s : State) (c : Nat) : State :=
  { s with regs := s.regs.filter fun e =>
      !(0x810000 + 0x100 * c ≤ e.1 && e.1 < 0x810000 + 0x100 * c + 0x100 && e.1 != R.JOB_CTX_SUBMIT_LO c &&
          e.1 != R.JOB_CTX_SUBMIT_HI c) &&
      !(0x1040000 + 0x20 * c ≤ e.1 && e.1 < 0x1040000 + 0x20 * c + 0x20) &&
      !(0x2810000 + 0x40 * c ≤ e.1 && e.1 < 0x2810000 + 0x40 * c + 0x40) }

/-- A context opened from a template's entry (Table SI-6, R218). -/
def State.openContext (s : State) (c template : Nat) (t : List Byte) : State :=
  let priv := bit (leAt t 3 1) 0
  let s := s.freshPages c
  let s := s.setCtx c { Ctx.fresh with partitions := leAt t 4 2, quota := leAt t 2 1, priv := priv, mayBank := bit (leAt t 3 1) 1,
                                       mask := leAt t 0x10 128, class_ := leAt t 1 1 }
  let s := ((s.putF (F.JOB_CTX_STATE_STATE c) 1).putF (F.JOB_CTX_STATE_TEMPLATE c) template).putF (F.JOB_CTX_STATE_CLASS c) (leAt t 1 1)
  if priv then { s with sec.slots := s.sec.slots ++ [c] } else s

/-- The outcome of a creation. -/
def State.createResult (s : State) (ctx : Option Nat) (code : Nat) : State :=
  let s := match ctx with | some c => s.putF F.JOB_CTX_CREATE_RESULT_CONTEXT c | none => s
  s.putF F.JOB_CTX_CREATE_RESULT_VALUE code

/-- CONTEXT_CREATE (R60, R62, R218). -/
def execContextCreate (_req : Requester) (value : Word) (s : State) : Res :=
  let template := bits value.toNat 5 0
  .next (if !s.imageValid then s.createResult none Code.NO_IMAGE
    else match s.template template, s.freeContextId with
      | some t, some c =>
        if leAt t 6 2 ≤ s.contextsOf template then s.createResult none Code.CONTEXT_LIMIT
        else if !bit (leAt t 3 1) 0 && s.policy 6 then s.createResult none Code.NOT_AUTHORIZED
        else (s.openContext c template t).createResult (some c) 0
      | _, _ => s.createResult none Code.CONTEXT_LIMIT)

/-- CONTEXT_CLOSE (Table EX-15): OPEN to CLOSING; with nothing queued, FREE. -/
def execContextClose (_req : Requester) (ctx : Nat) (value : Word) (s : State) : Res :=
  whenPart (ctx < 256) <|
    if bit value.toNat 1 then .refused .otherRow
    else .next (if bit value.toNat 0 && s.ctxState ctx = 1 then (s.putF (F.JOB_CTX_STATE_STATE ctx) 2).settleClosing ctx else s)

/-- CONTEXT_TEARDOWN (Table EX-15, R61): OPEN, CLOSING or DISCARDED to TEARDOWN. -/
def execContextTeardown (_req : Requester) (ctx : Nat) (value : Word) (s : State) : Res :=
  whenPart (ctx < 256) <|
    if !bit value.toNat 1 then .refused .otherRow
    else .next (if s.ctxState ctx = 1 || s.ctxState ctx = 2 || s.ctxState ctx = 4 then
        let s := (s.endJobs ctx fun _ => Code.CONTEXT_TORN_DOWN).refuseFetches ctx Code.CONTEXT_TORN_DOWN
        let s := { s with host.dma := s.host.dma.filter fun t => t.ctx != some ctx }
        (s.putF (F.JOB_CTX_STATE_STATE ctx) 3).showJobs
      else s)

/-- CONTEXT_TEARDOWN_COMPLETE (R61 steps 3 to 7): the context stays in TEARDOWN while a record of it waits for its slot (R71; log
entry 26). -/
def execContextTeardownComplete (ctx : Nat) (s : State) : Res :=
  if 256 ≤ ctx || s.ctxState ctx ≠ 3 then .refused .notDue
  else .next (if s.queueDepth ctx = 0 then (s.contextFree ctx (s.ctx ctx).fault (s.ctx ctx).detail).showJobs
    else s.hold (.contextTeardownComplete ctx))

/-! ## Submissions (R63, R64) -/

/-- Tests 1 to 3 of Table EX-7: the code of the first that fails. -/
def State.presentTest (s : State) (ctx : Nat) : Nat :=
  if !(s.devState == 2 || s.devState == 3 || s.devState == 4) then Code.DEVICE_NOT_READY
  else if !s.imageValid then Code.NO_IMAGE
  else if s.ctxState ctx = 3 then Code.CONTEXT_TORN_DOWN
  else if !(s.ctxState ctx == 1 || s.ctxState ctx == 4) then Code.CONTEXT_CLOSED
  else 0

/-- Tests 1 to 5 of Table EX-7: the code of the first that fails. -/
def State.submitTest (s : State) (ctx addr : Nat) : Nat :=
  if s.presentTest ctx ≠ 0 then s.presentTest ctx
  else if s.getP (P.JOB_CTX_RING ctx) = 0 || s.getP (P.JOB_CTX_LULL_RING ctx) = 0 then Code.RING_NOT_SET
  else if addr % 64 ≠ 0 then Code.BAD_JOB
  else 0

/-- JOB_SUBMIT (R63, R10): the address is committed, the submission tested, and the descriptor fetched. -/
def execJobSubmit (req : Requester) (ctx : Nat) (value : Word) (s : State) : Res :=
  whenPart (ctx < 256) <|
    let lo := (stagedLo s.stages req (R.JOB_CTX_SUBMIT_LO ctx)).getD (s.reg (R.JOB_CTX_SUBMIT_LO ctx))
    let s := { s with stages := dropLo s.stages req (R.JOB_CTX_SUBMIT_LO ctx) }
    let s := (s.setReg (R.JOB_CTX_SUBMIT_LO ctx) lo).setReg (R.JOB_CTX_SUBMIT_HI ctx) value
    let addr := lo.toNat + value.toNat * 2 ^ 32
    let n := (s.ctx ctx).subs + 1
    let code := s.submitTest ctx addr
    let s := s.setCtx ctx { s.ctx ctx with subs := n }
    .next (if code ≠ 0 then s.decideSub ctx n 0 code
      else { s with job.fetching := s.job.fetching ++ [Fetching.mk ctx addr n] }.emit (.hostRead (s.vcOf (s.ctxClass ctx)) addr 64))

/-- Cores of a context's mask among the active ones. -/
def State.maskCores (s : State) (ctx : Nat) : Nat := ((List.range s.activeCores).filter fun l => bit (s.ctx ctx).mask l).length

/-- Tests 7 to 10 on a fetched descriptor. -/
def State.descriptorTest (s : State) (ctx : Nat) (d : List Byte) : Nat :=
  let cores := leAt d 4 2
  if leAt d 6 2 ≠ 0 || leAt d 0x1E 2 ≠ 0 || leAt d 0x24 28 ≠ 0 || leAt d 0x20 4 = 0 || cores = 0 || cores > 1024 then Code.BAD_JOB
  else if leAt d 8 8 ≠ s.getP P.SIL_MODEL_ID then Code.MODEL_MISMATCH
  else if s.maskCores ctx < cores then Code.JOB_TOO_WIDE
  else if 1024 ≤ s.queueDepth ctx then Code.QUEUE_FULL
  else 0

/-- A job that passed every test takes a queue entry. -/
def State.enqueue (s : State) (ctx : Nat) (d : List Byte) : State :=
  let j : Job := ⟨s.job.nextUid, ctx, leAt d 0 4, leAt d 4 2, leAt d 0x10 8, leAt d 0x18 6, leAt d 0x20 4, .queued, 0, none, 0, 0,
    s.timeNs, 0, 0, 0, 0, 0, false, false, none, false, s.getF F.JOB_DEVICE_STATE_HOLD_PENDING == 1⟩
  let s := { s with job.jobs := s.job.jobs ++ [j], job.nextUid := s.job.nextUid + 1 }
  -- from READY the device enters LULL when the first step does not begin at once: a hold or the tier-0 quota (Table EX-4)
  if s.devState = 2 && (s.getF F.JOB_DEVICE_STATE_HOLD_PENDING == 1 || s.overQuota ctx 0 (j.coresWanted * 16 * 65536)) then s.enter 4
  else s

/-- The oldest fetch of a context decided. -/
def State.fetchEnds (s : State) (f : Fetching) (fetch : Fetch) : State :=
  let s := { s with job.fetching := s.job.fetching.filter (· != f) }
  match fetch with
  | .failed => s.decideSub f.ctx f.number 0 Code.BAD_JOB
  | .data d =>
    let early := s.presentTest f.ctx
    if d.length ≠ 64 then s.decideSub f.ctx f.number 0 Code.BAD_JOB
    else if early ≠ 0 then s.decideSub f.ctx f.number 0 early
    else
      let code := s.descriptorTest f.ctx d
      if code ≠ 0 then s.decideSub f.ctx f.number (leAt d 0 4) code
      else (s.enqueue f.ctx d).decideSub f.ctx f.number (leAt d 0 4) 0

/-- DESCRIPTOR_FETCH_DONE (R63 tests 6 to 10, with 1 to 3 as they stand when the fetch ends, R57, R223; log entry 25). -/
def execDescriptorFetchDone (ctx : Nat) (fetch : Fetch) (s : State) : Res :=
  match s.job.fetching.find? (·.ctx == ctx) with
  | none => .refused .notDue
  | some f => .next ((s.fetchEnds f fetch).settleClosing ctx)

/-- DESCRIPTOR_FETCH_TIMEOUT (R63 test 6, R64, R370). -/
def execDescriptorFetchTimeout (ctx : Nat) (s : State) : Res :=
  match s.job.fetching.find? (·.ctx == ctx) with
  | none => .refused .notDue
  | some f =>
    let s := { s with job.fetching := s.job.fetching.filter (· != f) }
    .next ((s.decideSub ctx f.number 0 Code.HOST_STALL_SUSPENDED).settleClosing ctx)

/-- SUBMIT_RESULT_READ (R64): completes only after every earlier submission of the context has been decided. -/
def execSubmitResultRead (req : Requester) (ctx : Nat) (s : State) : Res :=
  whenPart (ctx < 256) <|
    .next (if s.job.fetching.any (·.ctx == ctx) then s.hold (.submitResultRead req ctx)
      else s.answer req (s.reg (R.JOB_CTX_SUBMIT_RESULT ctx)))

/-! ## Abort (R70) -/

/-- A success record whose job was past its final commit point becomes OK_ABORT_LATE. -/
def lateRecord (r : Record) : Record :=
  { r with status := Code.OK_ABORT_LATE, body := r.body.take 4 ++ leBytes 2 Code.OK_ABORT_LATE ++ r.body.drop 6 }

/-- JOB_ABORT (R70, R186, R370). -/
def execJobAbort (_req : Requester) (ctx : Nat) (value : Word) (s : State) : Res :=
  whenPart (ctx < 256) <|
    let s := s.setReg (R.JOB_CTX_ABORT ctx) value
    let result (s : State) (n : Nat) : State := s.putF (F.JOB_CTX_ABORT_RESULT_RESULT ctx) n
    .next (match s.job.jobs.find? (fun j => j.ctx == ctx && j.id == value.toNat) with
      | some j =>
        let s := s.discardStep j.uid .queued
        let s := { s with host.dma := s.host.dma.filter fun t => t.uid != some j.uid }
        result ((s.endJob ((s.jobOf j.uid).getD j) Code.ABORTED).showJobs) 1
      | none =>
        match s.job.records.find? (fun r => r.ctx == ctx && r.job == value.toNat && r.success) with
        | some r => result { s with job.records := s.job.records.map fun x => if x.uid == r.uid then lateRecord x else x } 2
        | none => if (s.ctx ctx).recent.contains value.toNat then result s 2 else result s 3)

end Sys2Proof.Machine
end

