-- ==== Sys2Proof/Machine/Kv.lean ====
section
/-! DEFINITION. The page commands (Table KV-4, R180 to R187) and a pin that waited. -/

namespace Sys2Proof.Machine

open Sys2Proof

/-! ## Fields (R183) -/

def PortCmd.slot (q : PortCmd) : Nat := q.at 1 1
def PortCmd.fmt (q : PortCmd) : Nat := q.at 2 1
def PortCmd.page (q : PortCmd) : Nat := q.at 4 4
def PortCmd.word2 (q : PortCmd) : Nat := q.at 8 4

/-- Is a command in form: an OP of the table, no reserved bit set, no field out of range? -/
def kvForm (q : PortCmd) : Bool :=
  opKnown .page q.op && q.slot < 64 && q.fmt < 16 && q.at 3 1 == 0 && q.at 12 4 == 0 &&
    (match q.op with
      | 1 => q.word2 ≤ 2 ^ 25 - 256 && q.word2 % 256 == 0
      | 2 => 1 ≤ q.word2 && q.word2 ≤ 256
      | _ => q.word2 == 0)

/-! ## Answers (R184, R185) -/

/-- The 16 bytes of a result. -/
def kvResult (code id : Nat) : List Byte := leBytes 2 code ++ leBytes 2 0 ++ leBytes 4 id ++ leBytes 8 0

/-- A page command answered: a code other than OK from a program faults its job. -/
def State.kvAnswer (s : State) (q : PortCmd) (code id : Nat) : State :=
  match q.cell with
  | none =>
    let s := ((s.takeHost .page q.ctx).putF (F.JOB_CTX_KV_RESULT_STATUS q.ctx) code).setReg (R.JOB_CTX_KV_RESULT_PAGE q.ctx)
      (BitVec.ofNat 32 id)
    if code = Code.KV_REF_UNDERFLOW then s.ctxFault q.ctx code else s
  | some c =>
    let s := s.cellResult c (kvResult code id)
    if code = Code.OK then s
    else if code = Code.KV_REF_UNDERFLOW then s.jobFault c.job code 0 0 0
    else
      let s := ((s.putF (F.JOB_CTX_KV_FAULT_CELL q.ctx) c.cell).putF (F.JOB_CTX_KV_FAULT_OP q.ctx) q.op).putF
        (F.JOB_CTX_KV_FAULT_CODE q.ctx) code
      (s.setReg (R.JOB_CTX_KV_FAULT_PAGE q.ctx) (BitVec.ofNat 32 q.page)).jobFault c.job Code.KV_PORT_FAULT 0 0 0

/-- A command applied by the home unit of a descriptor. -/
def State.kvCount (s : State) (i : Nat) : State := s.addF (F.MEM_KVU_COMMANDS_COUNT (i % 4)) 1

/-- Device memory address of a descriptor. -/
def State.descAddr (s : State) (i : Nat) : Nat :=
  match s.kvPart with
  | some p => p.first * pageBytes + 32 * i
  | none => 0

/-- A page command of one row, or one with an OP the table does not have. -/
def State.kvRow (s : State) (op : Nat) (via : Via) (body : PortCmd → State) : Res :=
  match s.portCmd .page via with
  | none => .refused .notDue
  | some q =>
    if q.op ≠ op && opKnown .page q.op then .refused .otherRow
    else .next (if s.kvPart.isNone then s.kvAnswer q Code.KV_TABLE_FULL q.page
      else if !kvForm q then s.kvAnswer q Code.KV_COMMAND_BAD q.page
      else body q)

/-! ## New pages (R181, R182) -/

/-- Distinct pages a context's journal may hold (R179). -/
def journalMax : Nat := 1048576

/-- A descriptor taken for a new page of a context. -/
def State.newPage (s : State) (ctx i a m fmt fill slot first parent : Nat) : State :=
  let old := s.kvPage i
  s.setKvPage i ⟨a, fmt, fill, 1, 0, ctx, 1, false, false, old.gen, slot, m, first, parent⟩

/-- A new page made for a command: quota, journal, descriptor and space, then its contents; `k` goes on with the page's index. -/
def State.makePage (s : State) (q : PortCmd) (cmd : Instr) (fmt fill first parent : Nat) (data : List Byte)
    (k : Nat → State → State) : State :=
  if s.overQuota q.ctx 2 (kvPageBytes fmt + 264 + 8) then s.kvAnswer q Code.QUOTA_EXCEEDED q.page
  else if journalMax ≤ (s.kvJournal q.ctx).length then s.kvAnswer q Code.KV_TABLE_FULL q.page
  else match s.kvSpace fmt with
    | none => s.kvAnswer q Code.KV_TABLE_FULL q.page
    | some (i, a, m) =>
      s.deviceWrite q cmd (s.descAddr i) 32 fun s =>
        s.deviceWrite q cmd a (kvPageBytes fmt) fun s =>
          let s := (s.touch a (kvPageBytes fmt) true).setHbm a data
          let s := s.newPage q.ctx i a m fmt fill q.slot first parent
          let id := kvId i (s.kvPage i)
          k i ((s.setKvHeld q.ctx id 1).noteEffect q (.kvAlloc i))

/-- ALLOC: a page of zeros, WRITABLE in the slot. -/
def State.kvAlloc (s : State) (cmd : Instr) (q : PortCmd) : State :=
  if (s.kvSlot q.ctx q.slot).isSome then s.kvAnswer q Code.KV_COMMAND_BAD q.page
  else s.makePage q cmd q.fmt 0 q.word2 0xFFFFFFFF (List.replicate (kvPageBytes q.fmt) 0) fun i s =>
    (s.kvCount i).kvAnswer q Code.OK (kvId i (s.kvPage i))

/-! ## Releases (R186) -/

/-- The caller's reference released: its journal now; REF_COUNT now for the host, at the Lull for a step. -/
def State.releaseRef (s : State) (q : PortCmd) (id : Nat) : State :=
  let s := s.setKvHeld q.ctx id (s.kvHeld q.ctx id - 1)
  match q.uid with
  | some u => s.addEffect u (.kvRelease id)
  | none => s.kvDrop id 1

/-- RELEASE. -/
def State.kvRelease (s : State) (cmd : Instr) (q : PortCmd) : State :=
  if s.kvHeld q.ctx q.page = 0 then s.kvAnswer q Code.KV_REF_UNDERFLOW q.page
  else s.deviceWrite q cmd (s.descAddr (q.page % 2 ^ 24)) 32 fun s =>
    ((s.kvCount (q.page % 2 ^ 24)).releaseRef q q.page).kvAnswer q Code.OK q.page

/-! ## RETAIN, COPY, SEAL -/

/-- Does a page's owner come from a PRIVATE template? An orphan's owner is gone. -/
def State.privPage (s : State) (p : KvPage) : Bool := !p.orphan && (s.ctx p.owner).priv

/-- RETAIN. -/
def State.kvRetain (s : State) (cmd : Instr) (q : PortCmd) : State :=
  match s.kvNamed q.page with
  | none => s.kvAnswer q Code.KV_PAGE_STATE q.page
  | some (i, p) =>
    if p.sealPending && p.owner ≠ q.ctx then s.hold cmd
    else if p.state ≠ 2 then s.kvAnswer q Code.KV_PAGE_STATE q.page
    else if 65535 ≤ p.refs || 65535 ≤ s.kvHeld q.ctx q.page then s.kvAnswer q Code.KV_REF_SATURATED q.page
    else if s.privPage p && p.owner ≠ q.ctx then s.kvAnswer q Code.NOT_AUTHORIZED q.page
    else if s.kvHeld q.ctx q.page = 0 && journalMax ≤ (s.kvJournal q.ctx).length then s.kvAnswer q Code.KV_TABLE_FULL q.page
    else s.deviceWrite q cmd (s.descAddr i) 32 fun s =>
      (((s.kvCount i).kvGain q.ctx q.page).noteEffect q (.kvRetain q.page)).kvAnswer q Code.OK q.page

/-- COPY: the pin on PAGE is taken and released within the command; a pin without room waits (R180). -/
def State.kvCopy (s : State) (cmd : Instr) (q : PortCmd) : State :=
  if (s.kvSlot q.ctx q.slot).isSome then s.kvAnswer q Code.KV_COMMAND_BAD q.page
  else if s.kvHeld q.ctx q.page = 0 then s.kvAnswer q Code.KV_REF_UNDERFLOW q.page
  else match s.kvNamed q.page with
    | none => s.kvAnswer q Code.KV_REF_UNDERFLOW q.page
    | some (i, p) =>
      if p.sealPending && p.owner ≠ q.ctx then s.hold cmd
      else if p.state = 4 then (s.countStall cmd).hold cmd
      else if p.state ≠ 2 then s.kvAnswer q Code.KV_PAGE_STATE q.page
      else if 65535 ≤ p.pins then
        { s.addF (F.MEM_KVU_PIN_WAITS_COUNT (i % 4)) 1 with kv.pinWaits := s.kv.pinWaits ++ [(i, cmd)] }
      else
        let n := kvPageBytes p.format
        let r := (s.touch p.address n false).hbmRead p.address n
        r.2.makePage q cmd p.format p.fill p.firstPos q.page r.1 fun j s =>
          let s := ((s.kvCount i).addP (P.MEM_KVU_COPY_BYTES (i % 4)) n).releaseRef q q.page
          s.kvAnswer q Code.OK (kvId j (s.kvPage j))

/-- The page a slot holds, a damaged one among them. -/
def State.slotPage (s : State) (ctx slot : Nat) : Option (Nat × KvPage) :=
  s.kv.pages.find? fun e => (e.2.state == 1 || e.2.state == 4) && e.2.owner == ctx && e.2.slot == slot

/-- SEAL: FILL set, the summary written, the page SEALED with SEAL_PENDING, the slot freed. -/
def State.kvSeal (s : State) (cmd : Instr) (q : PortCmd) : State :=
  match s.slotPage q.ctx q.slot with
  | none => s.kvAnswer q Code.KV_COMMAND_BAD q.page
  | some (i, p) =>
    if p.state = 4 || s.poisoned p.address (q.word2 * kvKRow p.format) then
      (if p.state = 4 then s.countStall cmd else (s.countStall cmd).poisonFound p.address).hold cmd
    else
      s.deviceWrite q cmd (s.descAddr i) 32 fun s =>
        s.deviceWrite q cmd p.summary 264 fun s =>
          let s := s.touch p.address (q.word2 * kvKRow p.format) false
          let s := (s.touch p.summary 264 true).setHbm p.summary (s.kvSummary p q.word2)
          let s := s.setKvPage i { p with fill := q.word2, state := 2, sealPending := true, slot := 0xFF }
          ((s.noteEffect q (.kvSeal i q.slot p.fill)).kvCount i).kvAnswer q Code.OK (kvId i p)

/-! ## The rows -/

/-- KV_ALLOC. -/
def execKvAlloc (via : Via) (s : State) : Res := s.kvRow 1 via (s.kvAlloc (.kvAlloc via))

/-- KV_SEAL. -/
def execKvSeal (via : Via) (s : State) : Res := s.kvRow 2 via (s.kvSeal (.kvSeal via))

/-- KV_RETAIN. -/
def execKvRetain (via : Via) (s : State) : Res := s.kvRow 3 via (s.kvRetain (.kvRetain via))

/-- KV_RELEASE. -/
def execKvRelease (via : Via) (s : State) : Res := s.kvRow 4 via (s.kvRelease (.kvRelease via))

/-- KV_COPY. -/
def execKvCopy (via : Via) (s : State) : Res := s.kvRow 5 via (s.kvCopy (.kvCopy via))

/-- KV_PIN_RESUME (R180): a page has room for a pin again; what waited there is tried again. -/
def execKvPinResume (index : Nat) (s : State) : Res :=
  if s.kv.pinWaits.any (fun w => w.1 == index) && (s.kvPage index).pins < 65535 then
    .next { s with held := s.held ++ (s.kv.pinWaits.filter fun w => w.1 == index).map (·.2),
                   kv.pinWaits := s.kv.pinWaits.filter fun w => w.1 != index }
  else .refused .notDue

end Sys2Proof.Machine
end

