-- ==== Sys2Proof/Machine/Links.lean ====
section
/-! DEFINITION. The commands of ports, frames on the wire and Squall (R247 to R264). -/

namespace Sys2Proof.Machine

open Sys2Proof

/-! ## Training (R247) -/

/-- CAPABILITY_WORD_RECEIVED (R247, R251, R253): the partner's word settles what both can do. -/
def execCapabilityWordReceived (port : Nat) (cap : BitVec 64) (s : State) : Res :=
  whenPart (port < 32) <|
    if s.portState port ≠ 1 then .refused .notDue
    else
      let w := cap.toNat
      let same := bits w 51 32 == s.getF (F.LNK_PORT_PARTNER_PARTNER port) && !bit w 22
      let s := (s.putP (P.LNK_PORT_CAP_RECEIVED port) w).putF (F.LNK_PORT_PARTNER_PARTNER port) (bits w 51 32)
      let s := s.putF (F.LNK_PORT_PARTNER_VERSION_MINOR port) (min 0 (bits w 13 10))
      -- a partner that holds no state, or another partner: held frames are looked up again (R253)
      let s := if same then s else s.rerouteReplay port
      let s := if bit w 22 then s.setPort port { s.port port with txNext := 0 } else s
      if bits w 17 14 ≠ 1 then
        .next (((s.setPort port { s.port port with gotWord := true, wordBad := true }).putF (F.LNK_PORT_STATUS_STATE port) 0).log
          Code.LINK_VERSION (unitId 2 port) none 0 0)
      else
        let s := s.setPort port { s.port port with gotWord := true, wordBad := false }
        let s := s.putF (F.LNK_PORT_STATUS_MAX_FRAME port) (min 3 (bits w 19 18))
        let s := s.putF (F.LNK_PORT_STATUS_REDUCTION port) (bits w 20 20 * s.getF (F.LNK_RED_STATUS_IN_SERVICE (portDie port)))
        .next (s.putF (F.LNK_PORT_STATUS_SAFFRON port) (bits w 21 21))

/-- Rate and FEC combinations, highest payload rate first (Table LNK-1): code of the rate, code of the FEC. -/
def laneModes : List (Nat × Nat) := [(2, 0), (2, 1), (1, 0), (1, 1), (0, 0), (0, 1)]

/-- A port comes UP. -/
def State.portTrained (s : State) (p rate fec : Nat) : State :=
  let w := s.getP (P.LNK_PORT_CAP_RECEIVED p)
  let l := min (bits w 4 0) (s.lanesLeft p)
  let before := (s.port p).lanes
  let s := ((s.putF (F.LNK_PORT_STATUS_STATE p) 2).putF (F.LNK_PORT_STATUS_LANES p) l).putF (F.LNK_PORT_STATUS_RATE p) rate
  let s := (s.putF (F.LNK_PORT_STATUS_FEC p) fec).setPort p { s.port p with attempts := 0, wasReset := false, lanes := l }
  let s := s.showLanes p
  let s := if l < before then s.log Code.LINK_DEGRADED (unitId 2 p) none p l else s
  (s.resend p (s.port p).replay).rerouteWaiting

/-- LINK_TRAINING_ATTEMPT_END (R247, R253, R257, R259): `passes` says, bit 2·rate + FEC, which combinations pass on all lanes. -/
def execLinkTrainingAttemptEnd (port passes : Nat) (s : State) : Res :=
  whenPart (port < 32) <|
    if s.portState port ≠ 1 then .refused .notDue
    else
      let x := s.port port
      let w := s.getP (P.LNK_PORT_CAP_RECEIVED port)
      let mode := laneModes.find? fun (r, f) => bit (bits w 7 5) r && bit (bits w 9 8) f && bit passes (2 * r + f)
      .next (match x.gotWord, mode with
        | true, some (r, f) => s.portTrained port r f
        | true, none =>
          if x.attempts + 1 ≥ 3 then s.retirePort port (unitId 2 port)
          else (s.putF (F.LNK_PORT_STATUS_STATE port) 0).setPort port { x with attempts := x.attempts + 1 }
        | false, _ => (s.putF (F.LNK_PORT_STATUS_STATE port) 0).rerouteReplay port)

/-- TRAINING_RETRY_TIMER (R247): a port that is down tries again. -/
def execTrainingRetryTimer (port : Nat) (s : State) : Res :=
  whenPart (port < 32) <|
    if s.portState port = 0 && s.portFree port then .next (s.beginTraining port) else .refused .notDue

/-! ## Receiving (R248, R252) -/

/-- Frames of the window that now follow in order. -/
def takeInOrder : Nat → Port → List Frame → Port × List Frame
  | 0, x, out => (x, out)
  | fuel + 1, x, out =>
    match x.window.find? (·.seq == x.rxNext) with
    | some f =>
      takeInOrder fuel { x with window := x.window.filter (·.seq != x.rxNext), rxNext := (x.rxNext + 1) % 2 ^ 16 } (out ++ [f])
    | none => (x, out)

/-- A frame accepted: saffron again if it was demoted on the hop, and routed. -/
def State.acceptFrame (s : State) (p : Nat) (f : Frame) : State :=
  (s.addP (P.LNK_PORT_RX_BYTES p) f.payload.length).route false (Carried.undemoted ⟨f, some p, portDie p, false⟩)

/-- FRAME_RECEIVE (R252, R254, R257). -/
def execFrameReceive (port : Nat) (frame : Frame) (s : State) : Res :=
  whenPart (port < 32) <|
    if !s.portUp port then .refused .notDue
    else
      let x := s.port port
      let d := (frame.seq % 2 ^ 16 + 2 ^ 16 - x.rxNext) % 2 ^ 16
      .next (if d = 0 then
          let r := takeInOrder 64 { x with rxNext := (x.rxNext + 1) % 2 ^ 16 } [frame]
          let x := { r.1 with ackDue := true, nak := if r.1.nak == some x.rxNext then none else r.1.nak }
          r.2.foldl (fun s f => s.acceptFrame port f) (s.setPort port x)
        else if d < 64 then
          let x := { x with window := if x.window.any (·.seq == frame.seq) then x.window else x.window ++ [frame] }
          s.setPort port (if x.nak == some x.rxNext then x else { x with nak := some x.rxNext, nakDue := true })
        else if d < 32768 then s.addF (F.LNK_PORT_WINDOW_DROPS_COUNT port) 1
        else (s.setPort port { x with ackDue := true }).addF (F.DUP_RX_COUNT port) 1)

/-- FLIT_CRC_ERROR (R248): the flit is discarded and counted. -/
def execFlitCrcError (port : Nat) (s : State) : Res :=
  whenPart (port < 32) (.next (s.addF (F.LNK_PORT_CRC_ERR_COUNT port) 1))

/-! ## Acknowledgement and replay (R251, R253) -/

/-- The frames of a replay buffer after those an ACK of `n` covers. -/
def ackFrees (cs : List Carried) (n : Nat) : List Carried :=
  if cs.any (·.frame.seq == n) then (cs.dropWhile fun c => c.frame.seq != n).drop 1 else cs

/-- ACK_RECEIVED (R251, R253). -/
def execAckReceived (port seq : Nat) (s : State) : Res :=
  whenPart (port < 32) <|
    let x := s.port port
    let left := ackFrees x.replay seq
    .next (s.setPort port { x with replay := left, timeouts := if left.length < x.replay.length then 0 else x.timeouts })

/-- NAK_RECEIVED (R253): the named frame alone is sent again. -/
def execNakReceived (port seq : Nat) (s : State) : Res :=
  whenPart (port < 32) (.next (s.resend port ((s.port port).replay.filter (·.frame.seq == seq))))

/-- REPLAY_TIMEOUT (R253): every unacknowledged frame is sent again; the eighth in a row takes the port down. -/
def execReplayTimeout (port : Nat) (s : State) : Res :=
  whenPart (port < 32) <|
    let x := s.port port
    if x.replay.isEmpty || s.portState port ≠ 2 then .refused .notDue
    else if x.timeouts + 1 ≥ 8 then .next (s.linkDown port)
    else .next ((s.setPort port { x with timeouts := x.timeouts + 1 }).resend port x.replay)

/-- CONTROL_FLIT_SEND (R250): ACK, NAK, heartbeat and swap command that are due. -/
def execControlFlitSend (port : Nat) (s : State) : Res :=
  whenPart (port < 32) <|
    if s.portState port ≠ 2 then .refused .notDue
    else
      let x := s.port port
      let ack := if x.ackDue then some ((x.rxNext + 2 ^ 16 - 1) % 2 ^ 16) else none
      let nak := if x.nakDue then x.nak else none
      let hb := if x.hbDue then some s.deviceId else none
      let swap := if x.swapDue then x.swap else none
      .next ((s.setPort port { x with ackDue := false, nakDue := false, hbDue := false, swapDue := false }).emit
        (.control port ack nak hb swap))

/-! ## Arbitration (R255) -/

/-- First queued frame that satisfies a condition and has credit. -/
def firstReady (x : Port) (noCredit : Nat) (p : Carried → Bool) : Option Carried :=
  x.queue.find? fun c => p c && !bit noCredit (c.frame.cls * 2 + c.frame.vc)

/-- SAFFRON_CONTRACT (R255): reported at most once per port per second. -/
def State.saffronContract (s : State) (p : Nat) (f : Frame) : State :=
  match (s.port p).contractAt with
  | some t =>
    if s.timeNs < t + 10 ^ 9 then s
    else ((s.setPort p { s.port p with contractAt := some s.timeNs }).log Code.SAFFRON_CONTRACT (unitId 2 p) (some f.ctx) p
      (f.cls * 256)).raise 5
  | none => ((s.setPort p { s.port p with contractAt := some s.timeNs }).log Code.SAFFRON_CONTRACT (unitId 2 p) (some f.ctx) p
      (f.cls * 256)).raise 5

/-- A queued saffron frame that goes on this hop as bulk. -/
def demote (c : Carried) : Carried := { c with frame := { c.frame with cls := 1, flags := Nat.lor c.frame.flags 4 } }

/-- The first of a list's equal elements replaced. -/
def replaceFirst (c d : Carried) : List Carried → List Carried
  | [] => []
  | x :: t => if x == c then d :: t else x :: replaceFirst c d t

def State.requeue (s : State) (p : Nat) (c d : Carried) : State :=
  s.setPort p { s.port p with queue := replaceFirst c d (s.port p).queue }

/-- The first saffron frame judged against the bucket: shaped at its source, or demoted. -/
def State.shapeSaffron (s : State) (p : Nat) (c : Carried) : State :=
  if c.inPort.isSome then ((s.requeue p c (demote c)).addF (F.LNK_PORT_SAFFRON_DEMOTED_COUNT p) 1).saffronContract p c.frame
  else if c.shaped then s
  else ((s.requeue p c { c with shaped := true }).addF (F.LNK_PORT_SAFFRON_SHAPED_COUNT p) 1).saffronContract p c.frame

/-- Deficit round robin between bulk (1) and background (2): the frame chosen and the port with its deficits. A class with
weight 0 is served only when the other is empty. -/
def drr (noCredit bulkW backW : Nat) : Nat → Port → Option (Carried × Port)
  | 0, _ => none
  | fuel + 1, x =>
    let h (k : Nat) : Option Carried := firstReady x noCredit fun c => c.frame.cls == k
    match h 1, h 2 with
    | none, none => none
    | some c, none => some (c, { x with backDeficit := 0, bulkDeficit := x.bulkDeficit - frameFlits c.frame })
    | none, some c => some (c, { x with bulkDeficit := 0, backDeficit := x.backDeficit - frameFlits c.frame })
    | some b, some g =>
      if backW = 0 then some (b, x)
      else if bulkW = 0 then some (g, x)
      else if x.turn = 1 then
        if frameFlits b.frame ≤ x.bulkDeficit then some (b, { x with bulkDeficit := x.bulkDeficit - frameFlits b.frame })
        else drr noCredit bulkW backW fuel { x with turn := 2, backDeficit := x.backDeficit + backW * 64 }
      else if frameFlits g.frame ≤ x.backDeficit then some (g, { x with backDeficit := x.backDeficit - frameFlits g.frame })
      else drr noCredit bulkW backW fuel { x with turn := 1, bulkDeficit := x.bulkDeficit + bulkW * 64 }

/-- The frame a port sends next, and the port after the choice. -/
def chooseFrame (noCredit bulkW backW : Nat) (x : Port) : Option (Carried × Port) :=
  let saff := firstReady x noCredit fun c => c.frame.cls == 0
  let mgmt := firstReady x noCredit fun c => c.frame.cls == 3
  let rest : Option (Carried × Port) :=
    match drr noCredit bulkW backW 4 x, mgmt with
    | some r, _ => some r
    | none, some c => some (c, x)
    | none, none => none
  let managed : Option (Carried × Port) :=
    match mgmt with
    | some c =>
      if frameFlits c.frame * 256 ≤ x.mgmtTokens then some (c, { x with mgmtTokens := x.mgmtTokens - frameFlits c.frame * 256 }) else rest
    | none => rest
  match saff with
  | some c =>
    if frameFlits c.frame * 256 ≤ x.saffronTokens then some (c, { x with saffronTokens := x.saffronTokens - frameFlits c.frame * 256 })
    else managed
  | none => managed

/-- A chosen frame enters the replay buffer and goes onto the wire. -/
def State.sendFrame (s : State) (p : Nat) (c : Carried) (x : Port) : State :=
  let seq := x.txNext
  let c' := { c with frame := { c.frame with seq := seq } }
  let s := s.setPort p { x with queue := x.queue.erase c, replay := x.replay ++ [c'], txNext := (seq + 1) % 2 ^ 16 }
  (s.addP (P.LNK_PORT_TX_BYTES p) c.frame.payload.length).transmit p (s.outFrame p c' seq)

/-- EGRESS_FRAME_SELECT (R251, R255, R257, R262): `slots` flit slots have passed since the last boundary, and `noCredit` names the
queues (bit 2·class + VC) without credit. -/
def execEgressFrameSelect (port slots noCredit : Nat) (s : State) : Res :=
  whenPart (port < 32) <|
    if s.portState port ≠ 2 then .refused .notDue
    else
      let cr := (s.section 8 0).drop (8 * port)
      let x := s.port port
      let x := { x with saffronTokens := min (512 * 256) (x.saffronTokens + leAt cr 0 1 * slots),
                        mgmtTokens := min (64 * 256) (x.mgmtTokens + leAt cr 3 1 * slots) }
      -- a partner without SAFFRON: saffron frames cross as bulk (R255)
      let x := if s.getF (F.LNK_PORT_STATUS_SAFFRON port) = 1 then x
        else { x with queue := x.queue.map fun (c : Carried) => if c.frame.cls == 0 then demote c else c }
      let s := s.setPort port x
      let s := match firstReady x noCredit (fun c => c.frame.cls == 0) with
        | some c => if frameFlits c.frame * 256 ≤ x.saffronTokens then s else s.shapeSaffron port c
        | none => s
      if (s.port port).holdFrames then .next s
      else
        .next (match chooseFrame noCredit (leAt cr 1 1) (leAt cr 2 1) (s.port port) with
          | some (c, x) => if replayBytes x + 64 * frameFlits c.frame ≤ 2 ^ 20 then s.sendFrame port c x else s
          | none => s)

/-! ## Heartbeats (R260) -/

/-- HEARTBEAT_SEND (R260, R348): due only while the active system controller has refreshed its liveness within 20 ms; a port in low
power wakes for it. -/
def execHeartbeatSend (port : Nat) (s : State) : Res :=
  whenPart (port < 32) <|
    if !s.portUp port then .refused .notDue
    else if s.rel.refreshedAt + 20 * 10 ^ 6 < s.timeNs then .next s
    else
      let s := s.setPort port { s.port port with hbDue := true }
      .next (if s.portState port = 5 then (s.emit (.wakePattern port)).wakePort port else s)

/-- HEARTBEAT_RECEIVED (R260): a DEVICE_ID that differs from the partner's word updates LNK_PORT_PARTNER. -/
def execHeartbeatReceived (port device : Nat) (s : State) : Res :=
  whenPart (port < 32) (.next (s.putF (F.LNK_PORT_PARTNER_PARTNER port) device))

/-- HEARTBEAT_MISS_LIMIT (R260). -/
def execHeartbeatMissLimit (port : Nat) (s : State) : Res :=
  whenPart (port < 32) (if s.portState port = 2 then .next (s.linkDown port) else .refused .notDue)

/-- LOSS_OF_SIGNAL (R260, R261): signal or lock lost on every lane for 1 ms. -/
def execLossOfSignal (port : Nat) (s : State) : Res :=
  whenPart (port < 32) (if s.portState port = 2 then .next (s.linkDown port) else .refused .notDue)

/-! ## Lanes (R258, R259) -/

/-- LANE_BER_WINDOW (R258): a logical lane's window ends. -/
def execLaneBerWindow (port lane : Nat) (degraded : Bool) (s : State) : Res :=
  whenPart (port < 32 && lane < 16) <|
    if s.portState port ≠ 2 then .refused .notDue
    else .next (if degraded && (s.port port).swap.isNone then s.loseLane port lane false else s)

/-- LANE_LOSS_OF_LOCK (R258, R259, R406). -/
def execLaneLossOfLock (port lane : Nat) (s : State) : Res :=
  whenPart (port < 32 && lane < 16) <|
    if s.portState port ≠ 2 then .refused .notDue else .next (s.loseLane port lane true)

/-- LANE_SPARE_TRAINED (R258 step 2): the swap command is due. -/
def execLaneSpareTrained (port : Nat) (s : State) : Res :=
  whenPart (port < 32) <|
    if (s.port port).swap.isNone then .refused .notDue
    else .next (s.setPort port { s.port port with swapDue := true })

/-- LANE_SWAP_COMMAND (R258 steps 3 to 5, R291): both ends switch the logical lane to the spare. -/
def execLaneSwapCommand (port lane spare : Nat) (s : State) : Res :=
  whenPart (port < 32 && lane < 16 && spare < 18) <|
    if s.portState port ≠ 2 then .refused .notDue
    else
      let x := s.port port
      let old := x.laneMap.getD lane 0
      let s := (s.failLane port old).setPort port
        { x with laneMap := x.laneMap.set lane spare, swap := none, swapDue := false, holdFrames := false }
      let s := ((s.showLanes port).addF (F.LNK_PORT_DOWN_COUNT_SWAPS port) 1).ledgerSwap 6
      .next (s.log Code.LANE_SWAP (unitId 2 port) none port lane)

/-! ## Port and Squall registers (R262 to R264) -/

/-- PORT_DISABLE (R263): a write of LNK_PORT_CONTROL without RETRAIN. -/
def execPortDisable (_req : Requester) (port : Nat) (value : Word) (s : State) : Res :=
  whenPart (port < 32) <|
    if bit value.toNat 1 then .refused .otherRow
    else if s.regDown (R.LNK_PORT_CONTROL port) then .next s
    else .next ((s.putF (F.LNK_PORT_CONTROL_DISABLE port) (bits value.toNat 0 0)).holdPort port)

/-- PORT_RETRAIN (R263): RETRAIN written; DISABLE takes its bit as well. -/
def execPortRetrain (_req : Requester) (port : Nat) (value : Word) (s : State) : Res :=
  whenPart (port < 32) <|
    if !bit value.toNat 1 then .refused .otherRow
    else if s.regDown (R.LNK_PORT_CONTROL port) then .next s
    else
      let s := (s.putF (F.LNK_PORT_CONTROL_DISABLE port) (bits value.toNat 0 0)).holdPort port
      .next (if s.portFree port then (s.portLeaves port 1).beginTraining port else s)

/-- The seed loaded into a port's generator. -/
def State.loadSeed (s : State) (p : Nat) : State :=
  let v := s.getF (F.DBG_SQ_SEED_SEED p)
  s.setPort p { s.port p with squall := if v = 0 then 1 else v }

/-- DBG_SQ_CONTROL written by an authorized requester. -/
def State.squallControl (s : State) (p : Nat) (value : Word) : State :=
  let was := s.getF (F.DBG_SQ_CONTROL_ENABLE p)
  let v := value.toNat
  let s := ((s.putF (F.DBG_SQ_CONTROL_ENABLE p) (bits v 0 0)).putF (F.DBG_SQ_CONTROL_CLASS_MASK p) (bits v 4 1)).putF
    (F.DBG_SQ_CONTROL_HOLD_DOWN p) (bits v 5 5)
  (if was = 0 && bit v 0 then s.loadSeed p else s).holdPort p

/-- SQUALL_ENABLE (R262): a write of DBG_SQ_CONTROL without HOLD_DOWN. -/
def execSquallEnable (req : Requester) (port : Nat) (value : Word) (s : State) : Res :=
  whenPart (port < 32) <|
    if bit value.toNat 5 || !s.facilityOpen req 0 then .refused .otherRow
    else .next (if s.regDown (R.DBG_SQ_CONTROL port) then s else s.squallControl port value)

/-- SQUALL_HOLD_DOWN (R262): a write of DBG_SQ_CONTROL with HOLD_DOWN. -/
def execSquallHoldDown (req : Requester) (port : Nat) (value : Word) (s : State) : Res :=
  whenPart (port < 32) <|
    if !bit value.toNat 5 || !s.facilityOpen req 0 then .refused .otherRow
    else .next (if s.regDown (R.DBG_SQ_CONTROL port) then s else s.squallControl port value)

/-- SQUALL_SEED_WRITE (R262): while ENABLE is 1 the generator loads it. -/
def execSquallSeedWrite (req : Requester) (port : Nat) (value : Word) (s : State) : Res :=
  whenPart (port < 32) <|
    if !s.facilityOpen req 0 then .refused .otherRow
    else if s.regDown (R.DBG_SQ_SEED port) then .next s
    else
      let s := s.setReg (R.DBG_SQ_SEED port) value
      .next (if s.getF (F.DBG_SQ_CONTROL_ENABLE port) = 1 then s.loadSeed port else s)

/-- SQUALL_REORDER_TIMEOUT (R262): a held frame with no later frame of its class is sent. -/
def execSquallReorderTimeout (port cls : Nat) (s : State) : Res :=
  whenPart (port < 32) <|
    let x := s.port port
    let due := x.deferred.filter fun f => f.cls == cls
    if due.isEmpty then .refused .notDue
    else .next (due.foldl (fun s f => s.emit (.frame port f))
      (s.setPort port { x with deferred := x.deferred.filter fun f => f.cls != cls }))

end Sys2Proof.Machine
end

