-- ==== Sys2Proof/Machine/Thermal.lean ====
section
/-! DEFINITION. Temperatures: warnings and the trip (R409 to R411), and the islands losing their supply (R337). -/

namespace Sys2Proof.Machine

open Sys2Proof

/-- Every island OFF, its contents lost (R337). -/
def State.islandsOff (s : State) : State :=
  let s := (List.range 1220).foldl (fun (s : State) i => if s.islandState i = 0 then s else s.setIsland i 0) s
  { s with cores := [], mem := { Mem.fresh with retired := s.mem.retired }, kv.asked := [] }

/-- Thresholds of a kind of sensor (Table EM-4): 1 island, 2 HBM stack, 3 optical engine, 4 flash package. -/
def warnAt : Nat → Option Nat
  | 1 => some 105
  | 3 | 4 => some 85
  | _ => none

def tripAt : Nat → Nat
  | 1 => 115
  | 2 => 108
  | 3 => 90
  | _ => 95

/-- The unit identifier of a sensor. -/
def sensorSource (kind index : Nat) : Nat :=
  match kind with
  | 1 => unitId 0xD index
  | 2 => unitId 3 index
  | 3 => unitId 2 (24 + index)
  | _ => unitId 7 0

/-- A reading kept for PWR_TEMP_MAX and the restart after a trip (R411, R412). -/
def State.noteTemp (s : State) (kind index celsius : Nat) : State :=
  { s with pwr.temps := (s.pwr.temps.filter fun (t : Nat × Nat × Nat) => !(t.1 == kind && t.2.1 == index)) ++ [(kind, index, celsius)] }

/-- The warning threshold: logged once per crossing, rearmed 5 °C below (R410). -/
def State.warn (s : State) (kind index celsius : Nat) : State :=
  match warnAt kind with
  | none => s
  | some t =>
    if s.pwr.warned.contains (kind, index) then
      (if celsius + 5 ≤ t then { s with pwr.warned := s.pwr.warned.erase (kind, index) }.showAlert else s)
    else if celsius < t then s
    else
      let s := { s with pwr.warned := s.pwr.warned ++ [(kind, index)] }.showAlert
      (s.addF F.PWR_THERMAL_WARNINGS_COUNT 1).log Code.THERMAL_WARN (sensorSource kind index) none 0 0

/-- The trip (R411): every switched island loses power, the ports go idle, FAULTED, an image being applied is discarded under R43. -/
def State.trip (s : State) (kind index celsius : Nat) : State :=
  let s := { s with pwr.tripped := true }
  let s := if s.getF F.SIL_STATUS_STATE = 3 then s.freeNat.2.endLoad s.freeNat.1 (some (0, noSection)) else s
  let s := ((s.setReg R.PWR_BUS 0).portsIdle.deviceFault Code.THERMAL_TRIP).islandsOff
  let s := if s.host.up then s.linkReset true else s
  let s := (s.log Code.THERMAL_TRIP (sensorSource kind index) none 0 0).raise 0
  ((s.putF F.PWR_TRIP_CAUSE_KIND kind).putF F.PWR_TRIP_CAUSE_INDEX index).putF F.PWR_TRIP_CAUSE_CELSIUS (min celsius 255)

/-- A temperature read is compared with the thresholds (R409). -/
def State.thermal (s : State) (kind index celsius : Nat) : State :=
  let s := (s.noteTemp kind index celsius).warn kind index celsius
  if tripAt kind ≤ celsius && !s.pwr.tripped then s.trip kind index celsius else s

/-- Is a sensor less than 15 °C below its trip threshold (R411)? -/
def State.tooHot (s : State) : Bool := s.pwr.temps.any fun (t : Nat × Nat × Nat) => tripAt t.1 < t.2.2 + 15

end Sys2Proof.Machine
end

