-- ==== Sys2Proof/Machine/MemRows.lean ====
section
/-! DEFINITION. The memory's own commands: patrol, temperature, regulators, the traffic generator, and the windows BAR2 and BAR4
(R211 to R221, R355 to R358). -/

namespace Sys2Proof.Machine

open Sys2Proof

/-! ## Errors of HBM (R214 to R217) -/

/-- 24 hours in nanoseconds. -/
def dayNs : Nat := 86400000000000

/-- Errors of a row in the last 24 hours. -/
def State.rowErrors (s : State) (l : List (Nat × Nat × Nat)) (pch row : Nat) : Nat :=
  (l.filter fun e => e.1 == pch && e.2.1 == row && s.timeNs - e.2.2 < dayNs).length

/-- Distinct rows of a pseudo-channel with uncorrectable errors in the last 24 hours. -/
def State.badRows (s : State) (pch : Nat) : Nat :=
  ((s.mem.ueRows.filter fun e => e.1 == pch && s.timeNs - e.2.2 < dayNs).map (·.2.1)).eraseDups.length

/-- The frame of an address retired to the reserve, or to an allocatable frame (R216). -/
def State.retireFrame (s : State) (addr : Nat) : State :=
  let st := (s.stackOf addr).1
  let s := { s with mem.retired := s.mem.retired ++ [addr / pageBytes] }.ledgerSwap 4
  if s.getF (F.MEM_STACK_PAGES_RESERVE st) = 0 then
    let s := s.putF (F.MEM_STACK_PAGES_PAGES st) (s.getF (F.MEM_STACK_PAGES_PAGES st) - 1)
    ((s.putF F.GLB_HBM_PAGES_ALLOC_PAGES (s.getF F.GLB_HBM_PAGES_ALLOC_PAGES - 1)).degrade (unitId 3 st)).checkFit
  else s.putF (F.MEM_STACK_PAGES_RESERVE st) (s.getF (F.MEM_STACK_PAGES_RESERVE st) - 1)

/-- A row with 4 corrected errors in 24 hours: repaired, or with no repair resource left its frame retired. -/
def State.repairRow (s : State) (addr pch row : Nat) (repair : Bool) : State :=
  let s := { s with mem.ceRows := s.mem.ceRows.filter fun e => !(e.1 == pch && e.2.1 == row) }
  if repair then (s.addF (F.MEM_PCH_STATUS_REPAIRS pch) 1).ledgerSwap 3 else s.retireFrame addr

/-- A corrected error of HBM. -/
def State.hbmCorrected (s : State) (addr pch row : Nat) (repair : Bool) : State :=
  let s := (s.addF F.MEM_ECC_CE_HBM_COUNT 1).addSatF (F.MEM_PCH_STATUS_CE pch) 1
  let s := { s with mem.ceRows := s.mem.ceRows ++ [(pch, row, s.timeNs)] }
  if 4 ≤ s.rowErrors s.mem.ceRows pch row then s.repairRow addr pch row repair else s

/-- A pseudo-channel fenced (R217 step 1): its units read as poisoned, and what lies on KV pages is dealt with at once. -/
def State.fence (s : State) (pch : Nat) : State :=
  let s := { s.putF (F.MEM_PCH_STATUS_STATE pch) 1 with mem.fenced := s.mem.fenced ++ [pch], rel.withdraw := true }.settleHold
  s.kv.pages.foldl (fun s e =>
    if e.2.state != 0 && (s.poisoned e.2.address (kvPageBytes e.2.format) || s.poisoned e.2.summary 264) then s.poisonFound e.2.address
    else s) s

/-- An uncorrectable error of HBM, its row counted, the channel fenced beyond 16 rows in 24 hours. -/
def State.hbmUncorrectable (s : State) (addr pch row : Nat) : State :=
  let s := (s.hbmError addr pch).addSatF (F.MEM_PCH_STATUS_UE_ROWS pch) (if s.rowErrors s.mem.ueRows pch row = 0 then 1 else 0)
  let s := { s with mem.ueRows := s.mem.ueRows ++ [(pch, row, s.timeNs)] }
  if 16 < s.badRows pch && s.getF (F.MEM_PCH_STATUS_STATE pch) = 0 then s.fence pch else s

/-! ## Errors of the LLM and the routers (Table MEM-6) -/

/-- The physical bank that serves a logical bank of a die's LLM (SPARE_MAP). -/
def State.physBank (s : State) (die l : Nat) : Nat := leAt (s.section 3 0) (0x110 + 32 * die + l) 1

/-- The logical bank a cache set lies in: the set's number among the cache banks. -/
def State.cacheBank (s : State) (die set : Nat) : Nat :=
  ((List.range 32).filter fun b => !bit (s.getF (F.MEM_LLM_SCRATCH_MASK die)) b).getD (set / 4096) 0

/-- ECC_UNCORRECTABLE of an SRAM. -/
def State.sramEvent (s : State) (source addr : Nat) : State :=
  ((s.addF F.MEM_ECC_UE_SRAM_COUNT 1).log Code.ECC_UNCORRECTABLE source none 0 addr).raise 4

/-- The source of a bank group's error. -/
def State.bankSource (s : State) (die l : Nat) : Nat := unitId 0xB (die * 16 + bankGroup (s.physBank die l))

/-- A cache line with an uncorrectable error: clean, it is dropped; dirty, its units in HBM become poisoned. -/
def State.lineError (s : State) (x : CacheLine) : State :=
  let s := s.sramEvent (s.bankSource x.die (s.cacheBank x.die x.set)) (x.line * 256)
  let s := { s with mem.cache := s.mem.cache.filter fun y => !(y.die == x.die && y.line == x.line) }
  if x.dirty then
    (List.range 4).foldl (fun s i => (s.poisonUnit (x.line * 4 + i)).poisonFound ((x.line * 4 + i) * 64)) s
  else s

/-- A tier-1 bank's error: the job that owns the data replays its step. A host's allocation belongs to the context: its running
jobs replay. -/
def State.tier1Error (s : State) (die off : Nat) : State :=
  let banks := (List.range 32).filter fun b => bit (s.getF (F.MEM_LLM_SCRATCH_MASK die)) b
  let src := s.bankSource die (banks.getD (off / 2 ^ 24) 0)
  let s := s.sramEvent src off
  match s.tier.objs.find? fun o => o.tier == 1 && o.place == die && o.first * pageBytes ≤ off && off < (o.first + o.units) * pageBytes with
  | none => s
  | some o =>
    (s.job.jobs.filter fun j => j.ctx == o.owner && match j.step with
      | some st => o.byHost || st.effects.any fun e => match e with | .tierAlloc x => x == o.slot | _ => false
      | none => false).foldl (fun s j => s.replayStep j.uid src) s

/-- A reduction buffer's error: the job whose collective used it replays its step. -/
def State.reductionError (s : State) (die index : Nat) : State :=
  let s := s.sramEvent (unitId 1 die) 0
  match s.fab.objs.find? (·.index == index) with
  | some o => s.replayStep o.job (unitId 1 die)
  | none => s

/-- A corrected error of an SRAM. -/
def State.sramCorrected (s : State) : State := s.addF F.MEM_ECC_CE_SRAM_COUNT 1

/-- PATROL_SCRUB (R214 to R217): what a read of a memory found. Reads in service report through this row as well (log entry 41). -/
def execPatrolScrub (target : ScrubTarget) (s : State) : Res :=
  match target with
  | .hbm addr row errors repair last =>
    if (8 : Nat) * 2 ^ 36 ≤ addr then .fault .noSuchPart
    else
      let pch := s.pchOf addr
      let t := if errors = 0 then s else if errors = 1 then s.hbmCorrected addr pch row repair else s.hbmUncorrectable addr pch row
      .next (if last then t.addF F.MEM_SCRUB_PASSES_COUNT 1 else t)
  | .llm die line errors =>
    match s.mem.cache.find? fun x => x.die == die && x.line == line with
    | none => .refused .notDue
    | some x => .next (if errors = 0 then s else if errors = 1 then s.sramCorrected else s.lineError x)
  | .tier1 die off errors =>
    whenPart (die < 4 && off < s.llmUnits die * pageBytes)
      (.next (if errors = 0 then s else if errors = 1 then s.sramCorrected else s.tier1Error die off))
  | .sram core addr errors =>
    whenPart (core < 1088) (.next (if errors = 0 then s else if errors = 1 then s.sramCorrected else s.sramError core addr))
  | .reduction die index errors =>
    whenPart (die < 4) (.next (if errors = 0 then s else if errors = 1 then s.sramCorrected else s.reductionError die index))

/-! ## Temperature (R212) -/

/-- The throttle level after a reading (Table MEM-4). -/
def throttleLevel (t was c : Nat) : Nat :=
  if t + 3 ≤ c || (was = 2 && t + 1 < c) then 2 else if t ≤ c || (was ≠ 0 && t < c + 2) then 1 else 0

/-- HBM_TEMP_READ: a reading each millisecond, compared with the trip threshold as well (R409). -/
def execHbmTempRead (stack celsius : Nat) (s : State) : Res :=
  whenPart (stack < 8) <|
    if !s.stackUsed stack then .refused .notDue
    else
      let was := s.getF (F.MEM_STACK_STATUS_THROTTLE stack)
      let now := throttleLevel (s.getF F.MEM_THERMAL_CONFIG_T_THROTTLE) was celsius
      let s := if was = 0 then s else s.addF (F.MEM_STACK_THROTTLED_MS stack) 1
      let s := (s.putF (F.MEM_STACK_STATUS_THROTTLE stack) now).putF (F.MEM_STACK_STATUS_TEMP stack) (min celsius 255)
      .next ((if was = 0 && now ≠ 0 then (s.log Code.HBM_THERMAL (unitId 3 stack) none 0 0).raise 4 else s).thermal 2 stack celsius)

/-! ## Regulators (R211) -/

/-- REGULATOR_TOKENS_GRANT: a request that waited `waitNs` at a partition has its tokens (log entry 80). -/
def execRegulatorTokensGrant (partition waitNs : Nat) (s : State) : Res :=
  whenPart (partition < 16) <|
    if s.mem.buckets.any fun b => b.part == partition && b.level < 0 then
      .next ((s.fillBuckets (some partition) waitNs).addP (P.MEM_PART_WAIT partition) waitNs)
    else .refused .notDue

/-! ## The traffic generator (R219, R221) -/

/-- The generator's data for a unit: 64 bytes. -/
def State.tgData (s : State) (pch unit : Nat) : List Byte :=
  let seed := s.getP (P.DBG_TG_SEED pch)
  if s.getF (F.DBG_TG_CONTROL_PATTERN pch) = 3 then (List.replicate 8 (leBytes 8 seed)).flatten
  else leBytes 64 (Config.tgPattern (s.getF (F.DBG_TG_CONTROL_PATTERN pch)) seed unit)

/-- The units of a run, in order. -/
def State.tgUnits (s : State) (pch : Nat) : List Nat :=
  let n := if s.getF (F.DBG_TG_LENGTH_UNITS pch) = 0 then 2 ^ 24 else s.getF (F.DBG_TG_LENGTH_UNITS pch)
  (List.range n).map fun i => (s.getF (F.DBG_TG_BASE_UNIT pch) + i) % 2 ^ 24

/-- TG_START: a write of DBG_TG_CONTROL. -/
def execTgStart (req : Requester) (pch : Nat) (value : Word) (s : State) : Res :=
  whenPart (pch < 512) <|
    let off := R.DBG_TG_CONTROL pch
    if s.denied req off then .refused .otherRow
    else if s.regDown off then .next s
    else
      let v := value.toNat
      let s := (s.putF (F.DBG_TG_CONTROL_MODE pch) (bits v 2 1)).putF (F.DBG_TG_CONTROL_PATTERN pch) (bits v 4 3)
      .next (if !bit v 0 then s
        else if s.imageValid || s.getF (F.MEM_STACK_STATUS_TRAINED (pch / 64)) = 0 then s.putF (F.DBG_TG_STATUS_STATE pch) 3
        else
          (((s.putF (F.DBG_TG_STATUS_STATE pch) 1).putF (F.DBG_TG_MISMATCHES_COUNT pch) 0).putF (F.DBG_TG_UE_COUNT pch) 0).setReg
            (R.DBG_TG_FIRST_ERROR pch) 0)

/-- One unit written. -/
def State.tgWrite (pch : Nat) (s : State) (u : Nat) : State :=
  s.setUnit (Config.rawUnit pch u) (Config.rawUnit pch u * 64) (s.tgData pch u)

/-- The first error of a run noted. -/
def State.tgNote (s : State) (pch u : Nat) : State :=
  if s.getF (F.DBG_TG_FIRST_ERROR_VALID pch) = 1 then s
  else (s.putF (F.DBG_TG_FIRST_ERROR_UNIT pch) u).putF (F.DBG_TG_FIRST_ERROR_VALID pch) 1

/-- One unit read and compared; `ue`: units whose read was uncorrectable. -/
def State.tgRead (pch : Nat) (ue : List Nat) (s : State) (u : Nat) : State :=
  let d := Config.rawUnit pch u
  if ue.contains u || storeGet noPoison s.mem.poison d then (s.addSatF (F.DBG_TG_UE_COUNT pch) 1).tgNote pch u
  else
    let r := s.hbmRead (d * 64) 64
    if r.1 = r.2.tgData pch u then r.2 else (r.2.addSatF (F.DBG_TG_MISMATCHES_COUNT pch) 1).tgNote pch u

/-- TG_RUN_COMPLETE: the run's writes and reads. -/
def execTgRunComplete (pch : Nat) (ue : List Nat) (s : State) : Res :=
  whenPart (pch < 512) <|
    if s.getF (F.DBG_TG_STATUS_STATE pch) ≠ 1 then .refused .notDue
    else
      let mode := s.getF (F.DBG_TG_CONTROL_MODE pch)
      let us := s.tgUnits pch
      let t := if mode = 1 || mode = 3 then us.foldl (State.tgWrite pch) s else s
      let t := if mode = 2 || mode = 3 then us.foldl (State.tgRead pch ue) t else t
      .next (t.putF (F.DBG_TG_STATUS_STATE pch) 2)

/-! ## BAR2 (R355, R357) -/

/-- Are BAR2 and BAR4 available: from the end of HBM training until QUIESCE? -/
def State.barsUp (s : State) : Bool :=
  (s.devState == 2 || s.devState == 3 || s.devState == 4 || s.devState == 6) && !s.pwr.tripped

/-- A read of HBM through a window, at a device memory address. -/
def State.barRead (s : State) (addr len : Nat) : State :=
  if s.poisoned addr len then s.emit .poisonedTlp
  else
    let r := (s.touch addr len false).hbmRead addr len
    r.2.emit (.readData .host r.1)

/-- A write of HBM through a window. -/
def State.barWrite (s : State) (addr : Nat) (bs : List Byte) : State := (s.touch addr bs.length true).setHbm addr bs

/-- BAR2_READ. -/
def execBar2Read (off len : Nat) (s : State) : Res :=
  whenPart (off + len ≤ 2 ^ 30) (.next (if s.barsUp then s.barRead off len else s.emit (.unsupported .host)))

/-- BAR2_WRITE. -/
def execBar2Write (off : Nat) (data : List Byte) (s : State) : Res :=
  whenPart (off + data.length ≤ 2 ^ 30) (.next (if s.barsUp then s.barWrite off data else s))

/-! ## BAR4 (R358) -/

/-- How BAR4 answers a request. -/
inductive Bar4 where
  | serve
  | beyond
  | reserved
  | tagged
  | banked
  deriving DecidableEq, Repr

/-- Pages a range touches. -/
def pagesOf (addr n : Nat) : List Nat :=
  if n = 0 then [] else (List.range ((addr + n - 1) / pageBytes + 1 - addr / pageBytes)).map (· + addr / pageBytes)

/-- Is a page one that BAR4 does not reach: window, save area, undo journal, KV or object-table partition? -/
def State.reservedPage (s : State) (page : Nat) : Bool :=
  page < 512 || (s.saveSlot (page * pageBytes)).isSome ||
    match s.partitionOfPage page with
    | none => false
    | some (i, p) =>
      (s.getF F.MEM_KV_CONFIG_ENABLE == 1 && i == s.getF F.MEM_KV_CONFIG_PARTITION) ||
        (s.getF F.MEM_TIER_CONFIG_ENABLE == 1 && i == s.getF F.MEM_TIER_CONFIG_PARTITION) ||
        (s.undoCapacity != 0 && i == s.getF F.REL_UNDO_CONFIG_PARTITION && page < p.first + s.getF F.REL_UNDO_CONFIG_PAGES)

/-- Does a page carry a key tag: a context's, or the model key's (R218)? -/
def State.taggedPage (s : State) (page : Nat) : Bool :=
  storeGet (fun _ => 511) s.mem.tags page != 511 ||
    match s.partitionOfPage page with
    | some (_, p) => p.sharedWeights && p.priv
    | none => false

/-- The first row of R358's table that refuses any byte of a request. -/
def State.bar4 (s : State) (addr len : Nat) (write : Bool) : Bar4 :=
  let ps := pagesOf addr len
  if s.getF F.GLB_HBM_PAGES_ALLOC_PAGES * pageBytes < addr + len then .beyond
  else if ps.any s.reservedPage then .reserved
  else if ps.any s.taggedPage then .tagged
  else if write && ps.any (fun p => match s.partitionOfPage p with | some (_, q) => s.bankedNow q | none => false) then .banked
  else .serve

/-- Does a request lie in BAR4 as sized? -/
def State.inBar4 (s : State) (off len : Nat) : Bool := off + len ≤ s.host.bar4GiB * 2 ^ 30

/-- BAR4_READ. -/
def execBar4Read (off len : Nat) (s : State) : Res :=
  whenPart (s.inBar4 off len) <|
    let addr := s.getP P.GLB_BAR4_BASE + off
    .next (if !s.barsUp then s.emit (.unsupported .host)
      else match s.bar4 addr len false with
        | .beyond => (s.addF F.GLB_BAR4_REFUSED_COUNT 1).emit (.unsupported .host)
        | .reserved => (s.addF F.GLB_BAR4_REFUSED_COUNT 1).emit (.completerAbort .host)
        | .tagged => (s.addF F.MEM_PRIV_DENIED_COUNT 1).emit (.completerAbort .host)
        | _ => s.barRead addr len)

/-- The DIRTY bits of weights' pages a write touches (R242), and the resident copies it changes (R233). -/
def State.barDirty (s : State) (addr n : Nat) : State :=
  (pagesOf addr n).foldl (fun s p =>
    let s := s.markCopies p
    match s.weights with
    | some w =>
      if w.first ≤ p && p < w.first + w.count then
        { s with tier.dirty := storeSet (fun _ => false) s.tier.dirty (p - w.first) true }.showGolden
      else s
    | none => s) s

/-- BAR4_WRITE. -/
def execBar4Write (off : Nat) (data : List Byte) (s : State) : Res :=
  whenPart (s.inBar4 off data.length) <|
    let addr := s.getP P.GLB_BAR4_BASE + off
    .next (if !s.barsUp then s
      else match s.bar4 addr data.length true with
        | .beyond | .reserved => s.addF F.GLB_BAR4_REFUSED_COUNT 1
        | .tagged => s.addF F.MEM_PRIV_DENIED_COUNT 1
        | .banked => s.addF F.REL_BANK_REFUSED_COUNT 1
        | .serve => (s.barWrite addr data).barDirty addr data.length)

end Sys2Proof.Machine
end

