-- ==== Sys2Proof/Machine/Firmware.lean ====
section
/-! DEFINITION. Firmware bundles and their checks (R379, R380), the policy that governs them (R388), and what booting a bundle leaves
(R381, R395). -/

namespace Sys2Proof.Machine

open Sys2Proof

/-! ## The standing policy (R388) -/

/-- The standing policy: the SECURITY_POLICY of the last KIND 0 image committed, or the factory policy. -/
def State.standingPolicy (s : State) : List Byte :=
  if s.sec.standing.isEmpty then leBytes 4 0x0F ++ leBytes 4 0 ++ leBytes 1 0x0F ++ List.replicate 23 0 else s.sec.standing

/-- Is an owner slot enrolled, and accepted by a policy's OWNER_SLOTS? -/
def State.ownerOk (s : State) (policy : List Byte) (slot : Nat) : Bool :=
  1 ≤ slot && slot ≤ 4 && s.sec.owners.any (fun (o : Nat × List Byte) => o.1 == slot) && bit (leAt policy 8 1) (slot - 1)

/-! ## Bundles (R379, Table BOOT-1) -/

def bundleOwner (b : List Byte) : Bool := bit (leAt b 6 2) 0
def bundleAdvance (b : List Byte) : Bool := bit (leAt b 6 2) 1
def bundleVersion (b : List Byte) : Nat := leAt b 0x0C 4
def bundleSecurity (b : List Byte) : Nat := leAt b 0x10 4

/-- Directory entries: ID, OFFSET, LENGTH and SHA-384 of each component. -/
def bundleDir (b : List Byte) : List (Nat × Nat × Nat × List Byte) :=
  (List.range (leAt b 0x14 2)).map fun i =>
    let e := 128 + 64 * i
    (leAt b e 2, leAt b (e + 8) 4, leAt b (e + 12) 4, (b.drop (e + 16)).take 48)

/-- Where the signature blocks start, and the slot of the second. -/
def bundleSig (b : List Byte) : Nat := b.length - (if bundleOwner b then 256 else 128)
def bundleSlot (b : List Byte) : Nat := leAt b (bundleSig b + 128) 1

/-- Check 1 of R380: header, directory and length, every ID exactly once, the signature blocks' slots. -/
def bundleForm (b : List Byte) : Bool :=
  384 ≤ b.length && b.length ≤ 2 ^ 24 && leAt b 0 4 == 0x51534657 && leAt b 4 2 == 1 && leAt b 6 2 < 4 && leAt b 8 4 == b.length &&
    leAt b 0x16 2 == 0x1024 && leAt b 0x18 104 == 0 && leAt b 0x14 2 == 6 &&
    ([1, 2, 3, 4, 5, 6].all fun i => (bundleDir b).any fun d => d.1 == i) &&
    ((bundleDir b).all fun d => 512 ≤ d.2.1 && d.2.1 + d.2.2.1 ≤ bundleSig b) &&
    ((List.range 6).all fun i => leAt b (128 + 64 * i + 2) 6 == 0) &&
    leAt b (bundleSig b) 1 == 0 && (!bundleOwner b || (1 ≤ bundleSlot b && bundleSlot b ≤ 4))

/-- The checks of R380 in order: 0, or the code of the first that fails. -/
def State.checkBundle (s : State) (b : List Byte) (v : FwVerdict) : Nat :=
  let p := s.standingPolicy
  if !bundleForm b then Code.FW_FORMAT
  else if !v.slot0 || (bit (leAt p 0 4) 4 && !(bundleOwner b && v.owner && s.ownerOk p (bundleSlot b))) then Code.FW_SIGNATURE
  else if bundleSecurity b < max (s.getF F.GLB_FW_SECURITY_VALUE) (leAt p 4 4) then Code.FW_ROLLBACK
  else if !v.digests then Code.FW_FORMAT
  else 0

/-! ## Slots (R378, R381, R382, R395) -/

def State.bundle (s : State) (slot : Nat) : List Byte := if slot = 0 then s.sec.bundleA else s.sec.bundleB

def State.setBundle (s : State) (slot : Nat) (b : List Byte) : State :=
  if slot = 0 then { s with sec.bundleA := b } else { s with sec.bundleB := b }

/-- The slot whose bundle runs, and that bundle. -/
def State.running (s : State) : List Byte := s.bundle (s.getF F.GLB_BOOT_STATUS_FW_SLOT)

/-- A bundle starts: its registers, the measurements' source, and for one activated, its rollback counter (R395). -/
def State.runBundle (s : State) (slot : Nat) : State :=
  let b := s.bundle slot
  let fresh : Bool := s.sec.activate && slot == s.sec.staged
  let s := (s.putF F.GLB_BOOT_STATUS_FW_SLOT slot).putF F.GLB_FW_VERSION_VALUE (bundleVersion b)
  let s := { s with sec.recovery := false }
  if fresh then
    let s := if bundleAdvance b then s.putF F.GLB_FW_SECURITY_VALUE (bundleSecurity b) else s
    { s with sec.active := slot, sec.verified := false, sec.activate := false }.setReg R.GLB_FW_STAGED 0
  else s

/-- The slot the boot ROM tries first: the one marked active, or a bundle that waits for activation (R395). -/
def State.firstSlot (s : State) : Nat := if s.sec.activate then s.sec.staged else s.sec.active

/-- Step 3 of Table BOOT-2: the first slot's bundle is checked, then the other's; with none good, the recovery agent stays (R382). -/
def State.bootRom (s : State) (va vb : FwVerdict) : State :=
  let v (slot : Nat) : FwVerdict := if slot = 0 then va else vb
  let a := s.firstSlot
  let code := s.checkBundle (s.bundle a) (v a)
  if code = 0 then s.runBundle a
  else if s.checkBundle (s.bundle (1 - a)) (v (1 - a)) = 0 then
    let s := { s with sec.verified := false, sec.activate := false }
    let s := (s.runBundle (1 - a)).putF F.GLB_BOOT_STATUS_FELL_BACK 1
    (s.putF F.GLB_BOOT_STATUS_LAST_CODE code).log Code.BOOT_SLOT_FAILED (unitId 0xA 2) none 0 0
  else
    { s.putF F.GLB_BOOT_STATUS_LAST_CODE code with sec.recovery := true }

end Sys2Proof.Machine
end

