-- ==== Sys2Proof/Machine/Boot.lean ====
section
/-! DEFINITION. What each reset clears and keeps (Table BOOT-8), and the second half of cold boot (Table BOOT-2). -/

namespace Sys2Proof.Machine

open Sys2Proof

/-! ## What lasts (R292, R378, R397) -/

/-- Registers whose values the device area of the flash store keeps: the ledger, the stacks' and flash capacities, failed lanes. -/
def ledgerReg (off : Nat) : Bool :=
  (0x1000100 ≤ off && off < 0x10002A0) || (0x2000100 ≤ off && off < 0x2000180 && off % 16 < 8) ||
    (0x2600048 ≤ off && off < 0x2600058) || (0x1810000 ≤ off && off < 0x1812000 && off % 0x100 == 0x0C)

/-- Counters kept in the boot store: the two rollback counters and the owner slots. -/
def bootReg (off : Nat) : Bool := off == 0x100034 || off == 0x108 || off == 0x120

/-- Registers that a warm reset keeps: those of the always-on domain but for what the image sets, and the values that cores and ports
held (R94, R346, R397). -/
def warmReg (off : Nat) : Bool :=
  ledgerReg off || bootReg off || off < 0x100000 || off == 0x100000 || (0x100010 ≤ off && off < 0x10001C) ||
    (0x200000 ≤ off && off < 0x500000) || (0x900000 ≤ off && off < 0xA10000 && off % 0x100 != 0) ||
    (0x1000000 ≤ off && off < 0x1040000 && off != 0x1000010 && off != 0x1000014 && off != 0x1000018 && off != 0x100001C) ||
    (0x1400000 ≤ off && off < 0x1800000 && off != 0x1400020) || (0x1810000 ≤ off && off < 0x1812000)

/-- The ledger registers written to the flash store, once there is a ledger. -/
def State.saveLedger (s : State) : State :=
  if s.getF (F.REL_LEDGER_TOTAL_COUNT 0) = 0 then s else { s with rel.ledger := s.regs.filter fun e => ledgerReg e.1 }

/-- What of recovery's state lasts: parts retired, aging, the ledger. -/
def Recovery.lasting (r : Recovery) : Recovery :=
  { Recovery.fresh with coresGone := r.coresGone, banksGone := r.banksGone, aging := r.aging, predicted := r.predicted, ledger := r.ledger }

/-- What of the tier manager lasts: kept objects, the golden copy, the flash store's blocks. -/
def TierMgr.lasting (t : TierMgr) : TierMgr :=
  { TierMgr.fresh with kept := (t.kept.filter fun k => !k.pending).map fun (k : Kept) => { k with adopting := false },
                       golden := t.golden, goldenPages := t.goldenPages,
                       goldenModel := t.goldenModel, pool := t.pool, retiredBlocks := t.retiredBlocks }

/-- What of the secure controller's state lasts: the boot store and the image slots. -/
def Security.lasting (x : Security) : Security :=
  { x with tokens := [], nonces := [], keyLoaded := false, sessions := 0, slots := [], recovery := false }

/-- The device OFF: all that no non-volatile store holds is gone (Table BOOT-8, cold power-on). -/
def State.powerLost (s : State) : State :=
  let s := s.saveLedger
  { State.reset with pending := s.pending, free := s.free, out := s.out, regs := s.regs.filter (fun e => bootReg e.1),
                     tier := s.tier.lasting, rel := s.rel.lasting,
                     sec := { s.sec.lasting with verified := s.sec.activate }, vid.failed := s.vid.failed,
                     mem.retired := s.mem.retired, pwr.dead := s.pwr.dead, pwr.phasesUsed := s.pwr.phasesUsed,
                     pwr.clocksUsed := s.pwr.clocksUsed, alert := s.alert }.showAlert

/-- The switched domains lost, as on the way to STANDBY (R350, R397). -/
def State.switchedLost (s : State) : State :=
  let s := s.saveLedger.portsIdle.islandsOff
  { s with regs := s.regs.filter (fun e => warmReg e.1), held := [], captures := [], stages := [], img := Loader.fresh,
           job := { JobBlock.fresh with nextUid := s.job.nextUid }, cells := [], hostCmds := [], kv := KvUnit.fresh,
           tier := { s.tier.lasting with hours := s.tier.hours }, fab := Fabric.fresh,
           rel := { s.rel.lasting with onB := s.rel.onB, refreshedAt := s.rel.refreshedAt },
           vid := { Video.fresh with failed := s.vid.failed },
           pwr.quiescing := [], pwr.latches := [], pwr.retries := [], mail.store := [], sec.keyLoaded := false, sec.slots := [],
           host.owed := [], host.dma := [] }

/-- STANDBY entered: GLB_PROFILE, GLB_RESOURCES and GLB_HBM_PAGES read zero until READY, but for RETIRE (R27; log entry 114). -/
def State.standby (s : State) : State :=
  let retire := s.getF F.GLB_PROFILE_RETIRE
  let s := ((s.setReg R.GLB_PROFILE 0).putF F.GLB_PROFILE_RETIRE retire).setReg R.GLB_RESOURCES 0
  let s := (s.setReg R.GLB_HBM_PAGES 0).setReg R.PWR_BUS 0
  ((s.putF F.GLB_BOOT_STATUS_STAGE (if s.sec.recovery then 2 else 4)).enter 1).settleAllMail

/-- A warm reset reaches STANDBY: tokens and sessions end, an update in transfer is dropped, a bundle waiting for activation is
booted, and a device that is not retired starts its second half (R391, R395, R397). -/
def State.warmBoot (s : State) : State :=
  let s := { s.endTokens (fun _ => true) with sec.nonces := [], sec.sessions := 0 }
  let s := if s.getF F.GLB_FW_STAGED_STATE = 1 then
      (s.setBundle (1 - s.sec.active) []).putF F.GLB_FW_STAGED_STATE 0
    else s
  let s := if s.sec.activate then s.runBundle s.sec.staged else s
  { s with pwr.starting := s.getF F.GLB_PROFILE_RETIRE == 0 && !s.sec.recovery }

/-! ## The ledger at the start (R291, R292, Table REL-4) -/

/-- TOTAL, IN_SERVICE and SPARE of a kind on a device that has no ledger yet; kind 3 as the stacks report. -/
def ledgerFresh (rows : Nat) : Nat → Nat × Nat × Nat
  | 0 => (1088, 1024, 64)
  | 1 => (139264, 0, 139264)
  | 2 => (132, 128, 4)
  | 3 => (rows, 0, rows)
  | 4 => (262144, 256896, 5248)
  | 5 => (64, 64, 0)
  | 6 => (576, 512, 64)
  | 7 => (1220, 1220, 1220)
  | 8 => (1220, 1220, 1220)
  | 9 => (9, 8, 1)
  | 10 => (5, 4, 1)
  | 11 => (2, 1, 1)
  | _ => (1264, 0, 1264)

/-- The ledger read from flash, or the one of a device that has not started before (log entry 115). -/
def State.loadLedger (s : State) (rows : Nat) : State :=
  if s.rel.ledger.isEmpty then
    (List.range 13).foldl (fun (s : State) k =>
      let l := ledgerFresh rows k
      ((s.putF (F.REL_LEDGER_TOTAL_COUNT k) l.1).putF (F.REL_LEDGER_IN_SERVICE_COUNT k) l.2.1).putF (F.REL_LEDGER_SPARE_COUNT k) l.2.2)
      (s.putF F.MEM_FLASH_CAPACITY_GIB 6400)
  else s.rel.ledger.foldl (fun (s : State) e => s.setReg e.1 e.2) s

/-! ## The second half (Table BOOT-2) -/

/-- Steps 5 to 7: the bus, the hub blocks and the dies' islands; spare engines stay OFF, cores until an image names them (R338, R340). -/
def State.islandsUp (s : State) : State :=
  let s := (s.putF F.PWR_BUS_MV 1800).putF F.PWR_BUS_CONVERTERS 255
  let s := ([1217, 1218, 1219] ++ (List.range 4).map (1152 + ·) ++ (List.range 32).map (1156 + ·) ++ (List.range 8).map (1188 + ·) ++
    (List.range 64).map (1088 + ·)).foldl (fun (s : State) i => s.powerOn i 1) s
  let engines := (List.range 4).map (1196 + ·) ++ (s.enginesOf 0 ++ s.enginesOf 1 ++ s.enginesOf 2).map (1200 + ·) ++ [1216]
  let s := engines.foldl (fun (s : State) i => s.powerOn i 2) s
  s.pwr.clocksUsed.foldl (fun (s : State) i => s.putF (F.PWR_ISL_STATE_BACKUP_CLOCK i) 1)
    (s.pwr.phasesUsed.foldl (fun (s : State) i => s.putF (F.PWR_ISL_STATE_SPARE_PHASE i) 1) s)

/-- Step 8 for a stack (R207, R217): its pages by the groups it has left; a group with a channel that fails training is retired. -/
def State.stackUp (s : State) (tests : BootTests) (st : Nat) : State :=
  if s.pwr.dead.contains (1188 + st) || tests.hbmStacks.contains st then
    ((s.putF (F.MEM_STACK_STATUS_TRAINED st) 0).putF (F.MEM_STACK_STATUS_MODE st) 2).putF (F.MEM_STACK_PAGES_PAGES st) 0
  else
    let mask := s.getF (F.MEM_STACK_STATUS_RETIRED_GROUPS st)
    let left := ((List.range 8).filter fun g => !bit mask g).length
    let kept : Bool := s.getF (F.MEM_STACK_STATUS_MODE st) != 2 && s.getF (F.MEM_STACK_PAGES_PAGES st) != 0
    let s := if kept then s
      else (s.putF (F.MEM_STACK_PAGES_PAGES st) (if left = 0 then 0 else left * 4096 - 656)).putF (F.MEM_STACK_PAGES_RESERVE st) 656
    let s := (s.putF (F.MEM_STACK_STATUS_TRAINED st) 1).putF (F.MEM_STACK_STATUS_MODE st)
      (if left = 0 then 2 else if mask = 0 then 0 else 1)
    let s := (List.range 64).foldl (fun (s : State) i => if bit mask (i / 8) then s.putF (F.MEM_PCH_STATUS_STATE (st * 64 + i)) 2 else s) s
    let bad := tests.pchs.filter fun p => p / 64 == st && !bit mask (p % 64 / 8)
    (bad.foldl (fun (s : State) p => s.putF (F.MEM_PCH_STATUS_STATE p) 1) s).relayStack st

/-- GLB_HBM_PAGES: the stacks' pages together. -/
def State.countPages (s : State) : State :=
  s.putF F.GLB_HBM_PAGES_ALLOC_PAGES ((List.range 8).foldl (fun a st => a + s.getF (F.MEM_STACK_PAGES_PAGES st)) 0)

/-- Step 8 for the flash store (R237): a channel whose packages do not all support NV-LPDDR4 is not used (log entry 116). -/
def State.flashUp (s : State) (cs : List FlashChannel) : State :=
  let s := cs.zipIdx.foldl (fun (s : State) x =>
    ((s.putF (F.MEM_FLASH_CH_STATUS_STATE x.2) (if x.1.mode.isSome then 0 else 2)).putF (F.MEM_FLASH_CH_STATUS_MODE x.2)
      (x.1.mode.getD 0)).putF (F.MEM_FLASH_CH_STATUS_PACKAGES x.2) x.1.packages) s
  let bad := (cs.filter fun c => c.mode.isNone).length
  if s.pwr.dead.contains 1216 then s.flashGone
  else if bad = 0 then s
  else s.putF F.MEM_FLASH_CAPACITY_GIB (min (s.getF F.MEM_FLASH_CAPACITY_GIB) (6400 * (15 - bad) / 15))

/-- A bank not proven good; a second one on its die leaves no image that can name 32 (Table REL-6). -/
def State.bankBad (s : State) (die b : Nat) : State :=
  if s.rel.banksGone.contains (die, b) then s
  else
    let s := s.retireBank die b
    if (s.rel.banksGone.filter fun (x : Nat × Nat) => x.1 == die).length ≤ 1 then s
    else (s.log Code.SPARE_EXHAUSTED (unitId 0xB (die * 16 + bankGroup b)) none 0 0).retireDevice (unitId 0xB (die * 16 + bankGroup b))

/-- Step 9: parts not proven good are retired. -/
def State.partsTested (s : State) (tests : BootTests) : State :=
  let s := tests.cores.foldl (fun (s : State) p => if s.rel.coresGone.contains p then s else s.retireUnmapped p (unitId 0xE p)) s
  tests.banks.foldl (fun (s : State) b => s.bankBad b.1 b.2) s

/-- A port after power-on: its lanes but for the failed ones; one whose island has failed is retired. -/
def State.portUpAgain (s : State) (p : Nat) : State :=
  let good := ((List.range 18).filter fun l => !bit (s.getF (F.LNK_PORT_LANES_FAILED_MASK p)) l).take 16
  let s := (s.setPort p { Port.fresh with laneMap := good }).showLanes p
  if s.pwr.dead.contains (1156 + p) then s.putF (F.LNK_PORT_STATUS_STATE p) 3 else s

/-- The held values of GLB_PROFILE and GLB_RESOURCES (R27). -/
def State.holdProfile (s : State) : State :=
  let s := s.putF F.GLB_PROFILE_ACTIVE_CORES (s.getF (F.REL_LEDGER_IN_SERVICE_COUNT 0))
  let ports := ((List.range 32).filter fun p => !s.pwr.dead.contains (1156 + p)).length
  ((s.putF F.GLB_RESOURCES_ACTIVE_PORTS ports).putF F.GLB_RESOURCES_ACTIVE_DECODE (s.enginesOf 0).length).putF
    F.GLB_RESOURCES_ACTIVE_ENCODE (s.enginesOf 1).length

/-- Parts whose reduction start-up declares as DEVICE_DEGRADED (R207, R237), and whether any reduction stands. -/
def State.reducedParts (s : State) : List Nat :=
  ((List.range 8).filter fun st => s.getF (F.MEM_STACK_PAGES_PAGES st) < 32112).map (unitId 3) ++
    (if s.getF F.MEM_FLASH_CAPACITY_GIB < 6400 then [unitId 7 0] else [])

def State.reduced (s : State) : Bool :=
  !s.reducedParts.isEmpty || s.getF F.GLB_PROFILE_ACTIVE_CORES < 1024 || s.getF F.GLB_RESOURCES_ACTIVE_PORTS < 32 ||
    s.getF F.GLB_RESOURCES_ACTIVE_DECODE < 8 || s.getF F.GLB_RESOURCES_ACTIVE_ENCODE < 4 || (s.enginesOf 2).length < 2 ||
    (List.range 4).any fun d => s.pwr.dead.contains (1196 + d)

/-- Step 10 for one slot: the image as a KIND 0 image, checked and committed, or its failure recorded. -/
def State.bootImage (s : State) (slot : Nat) (sig : SigVerdict) : State :=
  let img := if slot = 0 then s.sec.imageA else s.sec.imageB
  let s := { s with img.image := img, img.digest := sig.digest }
  match s.checks1to4 img sig with
  | some f => s.loadFails f
  | none =>
    match s.check5 img with
    | some f => s.loadFails f
    | none =>
      match s.checks7to9 img with
      | some f => s.loadFails f
      | none => s.silCommit.putF F.GLB_BOOT_STATUS_IMAGE_SLOT slot

/-- Step 10: the slot marked for boot, then the other. -/
def State.loadImage (s : State) (tests : BootTests) : State :=
  let s := s.bootImage s.sec.bootImage tests.boot
  if s.imageValid then s else s.bootImage (1 - s.sec.bootImage) tests.other

/-- Step 11: GOLDEN_LOAD where MODEL_MATCH is 1. -/
def State.bootGolden (s : State) : State :=
  match s.weights with
  | some w =>
    if s.getF F.MEM_GOLDEN_STATUS_MODEL_MATCH = 1 then
      ((s.tier.goldenPages.filter (· < w.count)).foldl (State.loadPage w.first) s).showGolden.goldenLast Code.OK
    else s
  | none => s

/-- Step 12: READY, with the pending declarations logged, the units of collectives and barriers in service, and the ports training. -/
def State.reachReady (s : State) : State :=
  let s := if s.reduced then s.putF F.GLB_PROFILE_DEGRADED 1 else s
  let s := s.reducedParts.foldl (fun (s : State) src => s.log Code.DEVICE_DEGRADED src none 0 0) s
  let s := (List.range 4).foldl (fun (s : State) n => (s.putF (F.LNK_RED_STATUS_WINDOWS_FREE n) 16).putF (F.LNK_RED_STATUS_IN_SERVICE n) 1) s
  let s := (s.putF F.LNK_SYNC_FREE_COUNT 4096).putF F.GLB_BOOT_STATUS_STAGE 12
  let s := s.freeNat.2.putF F.GLB_BOOT_TIME_MS s.freeNat.1
  let s := ((s.enter 2).putF F.JOB_DEVICE_STATE_FULL_LULL 1).showFree
  (List.range 32).foldl (fun (s : State) p => if s.portFree p then s.beginTraining p else s) s

/-- The second half of cold boot as a whole. -/
def State.secondHalf (s : State) (tests : BootTests) : State :=
  let s := { s with regs := s.regs.filter fun e => !(0x900000 ≤ e.1 && e.1 < 0xA10000) && !(0x1810000 ≤ e.1 && e.1 < 0x1812000) }
  let s := { s.loadLedger tests.rows with pwr.starting := false, pwr.tripped := false, sec.patchKey := true,
                                          rel.refreshedAt := s.timeNs }
  let s := s.holdProfile
  let s := (tests.islands.filter fun i => !s.pwr.dead.contains i).foldl State.islandFailed s
  let s := (((List.range 8).foldl (fun (s : State) st => s.stackUp tests st) s.islandsUp).flashUp tests.channels).countPages.partsTested tests
  let s := ((List.range 32).foldl State.portUpAgain s).showEngines
  if s.getF F.GLB_PROFILE_RETIRE = 1 then s else (s.loadImage tests).bootGolden.reachReady

end Sys2Proof.Machine
end

