-- ==== Sys2Proof/WellFormed.lean ====
section
/-! DEFINITION. Which commands name parts the device has (Tables GL-2, EX-1, LNK-1, VID-1, PWR-2, HST-3): the numbers in a command's
operands lie within their ranges. Values, addresses and encodings range over all their words; a meaning judges those itself. -/

namespace Sys2Proof

/-- A tile supervisor is that of a compute die. -/
def Requester.wf : Requester → Bool
  | .supervisor die => die < 4
  | _ => true

/-- A context is 0 to 255; a port has 1,024 cells (R184, R227, R315). -/
def Via.wf : Via → Bool
  | .host ctx => ctx < 256
  | .cell ctx c => ctx < 256 && c < 1024

def Caller.wf : Caller → Bool
  | .notice channel => channel < 64
  | .mgmt _ => true

def ScrubTarget.wf : ScrubTarget → Bool
  | .hbm _ _ errors _ _ => errors < 3
  | .llm die _ errors => die < 4 && errors < 3
  | .tier1 die _ errors => die < 4 && errors < 3
  | .sram core _ errors => core < 1088 && errors < 3
  | .reduction die _ errors => die < 4 && errors < 3

/-- The fields of a frame within their widths (Table LNK-4). -/
def Frame.wf (f : Frame) : Bool :=
  f.cls < 4 && f.seq < 2 ^ 16 && f.dst < 2 ^ 20 && f.src < 2 ^ 20 && f.typ < 2 ^ 8 && f.vc < 2 && f.hops < 2 ^ 8 && f.ctx < 2 ^ 8 &&
    f.addr < 2 ^ 48 && f.tag < 2 ^ 32 && f.flags < 2 ^ 8 && f.fields < 2 ^ 32 && f.payload.length < 2 ^ 16

def FlashChannel.wf (c : FlashChannel) : Bool := c.packages < 256 && (c.mode.getD 0) < 32

/-- The report of start-up names parts of the device, one entry for each of the sixteen flash channels. -/
def BootTests.wf (t : BootTests) : Bool :=
  t.islands.all (· < 1220) && t.hbmStacks.all (· < 8) && t.pchs.all (· < 512) && t.channels.length ≤ 16 && t.channels.all FlashChannel.wf &&
    t.cores.all (· < 1088) && t.banks.all fun b => b.1 < 4 && b.2 < 33

/-- A well-formed command. -/
def Instr.wf : Instr → Bool
  | .bar0BadWidthAccess req _ _ _ => req.wf
  | .undefinedOffsetAccess req _ off _ => req.wf && off < 2 ^ 26
  | .registerWrite req off _ => req.wf && off < 2 ^ 26
  | .rcRegisterRead req off _ => req.wf && off < 2 ^ 26
  | .pairLoRead req off => req.wf && off < 2 ^ 26
  | .pairHiRead req off => req.wf && off < 2 ^ 26
  | .pairLoWrite req off _ => req.wf && off < 2 ^ 26
  | .pairHiWrite req off _ => req.wf && off < 2 ^ 26
  | .secureOnlyAccess req _ off _ => req.wf && off < 2 ^ 26
  | .silStart req _ | .silCancel req _ | .contextCreate req _ | .goldenSync req _ | .goldenLoad req _ | .syncDumpStart req _
  | .stripeForm req _ | .replayDiscard req _ | .replayResume req _ | .recalAll req _ | .goStandby req _ | .dmaResume req _
  | .irqHostEoi req _ => req.wf
  | .ringHeadWrite req ctx _ | .contextClose req ctx _ | .contextTeardown req ctx _ | .jobSubmit req ctx _ | .jobAbort req ctx _
  | .bankDecideCommit req ctx _ | .bankDecideAbort req ctx _ => req.wf && ctx < 256
  | .submitResultRead req ctx => req.wf && ctx < 256
  | .completionRecordPost ctx | .contextTeardownComplete ctx | .descriptorFetchDone ctx _ | .descriptorFetchTimeout ctx => ctx < 256
  | .imageChecksComplete _ | .heldImageApply | .imageApplyCommit _ | .coreRetirePatch | .imageWithdraw | .stepBegin
  | .preemptSaveComplete _ | .preemptRestoreComplete _ => true
  | .lullDeclare _ unit | .lullWatchdogExpire _ unit => unit < 2 ^ 16
  | .load core _ | .store core _ | .mma core _ | .mmaCheckComplete core | .conv core _ | .convExpanded core _ | .maxPool core _
  | .averagePool core _ | .copy core _ | .add core _ | .sub core _ | .mul core _ | .axpy core _ | .max core _ | .min core _
  | .scale core _ | .mulRow core _ | .addRow core _ | .mulCol core _ | .addCol core _ | .rowsum core _ | .rowmax core _
  | .rowstat core _ | .norm core _ | .softmax core _ | .softmaxLse core _ | .exp core _ | .log core _ | .recip core _ | .rsqrt core _
  | .sigmoid core _ | .tanh core _ | .gelu core _ | .silu core _ | .sin core _ | .cos core _ | .sincosPos core _
  | .attnScanForward core _ | .attnScanBackward core _ | .haloPut core _ | .haloWait core _ | .haloDataArrive core
  | .allReduce core _ | .reduceScatter core _ | .allGather core _ | .allToAll core _ | .broadcast core _ | .arrive core _
  | .wait core _ | .arriveWait core _ | .fence core _ | .check core _ | .endProgram core _ | .retrievalComplete core
  | .coreProbe core _ | .coreProbeTimeout core | .coreIdleRetention core => core < 1088
  | .kvAlloc via | .kvSeal via | .kvRetain via | .kvRelease via | .kvCopy via | .tierAlloc via | .tierFree via | .tierPromote via
  | .tierUnpin via | .tierWriteBack via | .tierEvict via | .tierKeep via | .tierAdopt via | .tierDiscard via | .tierLate via
  | .videoOpen via | .videoClose via | .decodeSubmit via | .encodeSubmit via | .advance via | .ingest via => via.wf
  | .kvPinResume index => index < 2 ^ 24
  | .patrolScrub target => target.wf
  | .hbmTempRead stack _ => stack < 8
  | .regulatorTokensGrant partition _ => partition < 16
  | .tgStart req pch _ => req.wf && pch < 512
  | .tgRunComplete pch _ => pch < 512
  | .bar2Read off len => off + len ≤ 2 ^ 30
  | .bar2Write off data => off + data.length ≤ 2 ^ 30
  | .bar4Read off len => off + len ≤ 2 ^ 36
  | .bar4Write off data => off + data.length ≤ 2 ^ 36
  | .promoteComplete slot _ | .writeBackComplete slot => slot < 2 ^ 20
  | .flashRetentionPatrol _ percent => percent ≤ 100
  | .flashAllowanceBucketRoll | .goldenSyncComplete | .goldenLoadComplete _ | .goldenReloadComplete _ _ => true
  | .capabilityWordReceived port _ | .trainingRetryTimer port | .replayTimeout port | .controlFlitSend port | .heartbeatSend port
  | .heartbeatMissLimit port | .lossOfSignal port | .laneSpareTrained port | .flitCrcError port | .portLpEnter port
  | .portWakePattern port => port < 32
  | .linkTrainingAttemptEnd port passes => port < 32 && passes < 64
  | .frameReceive port frame => port < 32 && frame.wf
  | .ackReceived port seq | .nakReceived port seq => port < 32 && seq < 2 ^ 16
  | .egressFrameSelect port _ noCredit => port < 32 && noCredit < 2 ^ 8
  | .heartbeatReceived port device => port < 32 && device < 2 ^ 20
  | .laneBerWindow port lane _ | .laneLossOfLock port lane => port < 32 && lane < 16
  | .laneSwapCommand port lane spare => port < 32 && lane < 16 && spare < 18
  | .portDisable req port _ | .portRetrain req port _ | .squallEnable req port _ | .squallSeedWrite req port _
  | .squallHoldDown req port _ => req.wf && port < 32
  | .squallReorderTimeout port cls => port < 32 && cls < 4
  | .writeFrame | .readRequestFrame | .readResponseFrame | .reduceFrame | .syncArriveFrame | .syncReleaseFrame | .syncCreditFrame
  | .syncReadyFrame | .creditSendTimer | .syncDumpComplete | .livenessRefresh | .systemControllerFailover | .livenessLostRetire
  | .stripeJoin | .bankDelta | .bankStaged | .bankDrop | .rebuildBegin | .rebuildData | .rebuildEnd | .replayQuietExpire => true
  | .marginReport island margin _ => island < 1220 && margin < 256
  | .bankedUnitRebuildDone unit => unit < 2 ^ 27
  | .bandSelect engine | .videoEngineFail engine => engine < 16
  | .decodeUnitComplete stream | .sliceEmit stream => stream < 64
  | .sampleComplete stream _ => stream < 64
  | .rowFree req stream _ | .outRdWrite req stream _ => req.wf && stream < 64
  | .powerApplied addr _ _ => addr < 8
  | .supplyLost | .quiesceDrainComplete | .windbreakRetry => true
  | .secondHalfStart tests => tests.wf
  | .inputVoltageSample mv tenthAmps watts => mv < 2 ^ 16 && tenthAmps < 2 ^ 12 && watts < 2 ^ 16
  | .islandMonitorReport island _ _ _ mhz => island < 1220 && mhz < 2 ^ 12
  | .recalibrationSweep failed => failed.all (· < 1220)
  | .islandReset req island _ | .islandRecal req island _ => req.wf && island < 1220
  | .islandDrained island | .quiesceTimeout island | .wakeLatchSet island | .regulatorPhaseFail island | .clockGeneratorFail island =>
    island < 1220
  | .laserPowerUpdate port _ _ => 24 ≤ port && port < 32
  | .thermalSensorRead kind index _ =>
    (kind == 1 && index < 1220) || ((kind == 2 || kind == 3) && index < 8) || (kind == 4 && index < 4096)
  | .hostLinkTrained gen width => 1 ≤ gen && gen ≤ 6 && [1, 2, 4, 8, 16].contains width
  | .hostLinkReset _ | .d3hotEntry | .d3hotExit => true
  | .doorbell req channel _ _ | .targetNoticeAck req channel _ => req.wf && channel < 64
  | .noticeAck channel code => channel < 64 && code < 2 ^ 16
  | .noticeUnimplemented channel | .nop channel | .getInfo channel | .debugChallenge channel | .debugRevoke channel
  | .getCertificates channel | .modelKey channel | .signPatch channel => channel < 64
  | .targetNoticePost channel ptr op seq data => channel < 64 && ptr < 2 ^ 64 && op < 2 ^ 16 && seq < 2 ^ 16 && data.length ≤ 2 ^ 24
  | .warmReset caller | .setBoot caller | .start caller => caller.wf
  | .storeImage channel _ | .debugToken channel _ | .importWeights channel _ | .enrol channel _ | .revoke channel _ => channel < 64
  | .nonceExpire who | .tokenExpired who => who < 3
  | .mctpMessage _ | .spdmKeyExchange | .spdmGetMeasurements | .activateFirmware | .firmwareActivation => true
  | .pldmSensorRead sensor => sensor < 2 ^ 16
  | .fwVerifyComplete bundle _ => bundle.length ≤ 2 ^ 24
  | .dmaStallTimeout vc _ | .hostCreditReturn vc _ => vc < 3
  | .interruptDeliver target vector _ => target < 7 && vector < 64
  | .irqTgtEoi req target _ => req.wf && target < 6
  | .configSpaceWrite _ _ vcs masked bar4GiB => vcs ≤ 2 && masked.all (· < 64) && [1, 2, 4, 8, 16, 32, 64].contains bar4GiB
  | .moduleConverterFail converter => converter < 8

end Sys2Proof
end

