-- ==== Sys2Proof/Machine/Power.lean ====
section
/-! DEFINITION. Power, clocks and islands (R333 to R352), lasers and temperatures (R406, R409 to R411), and cold boot (R381). -/

namespace Sys2Proof.Machine

open Sys2Proof

/-! ## The supply (R334, R381) -/

/-- GLB_UID shows the fuses. -/
def State.showUid (s : State) : State :=
  (List.range 4).foldl (fun (s : State) i => s.setReg (R.GLB_UID i) (BitVec.ofNat 32 (Config.fuseUid.toNat / 2 ^ (32 * i)))) s

/-- POWER_APPLIED (R381, R382, R407): `addr` is what the ADDR pins read, `a` and `b` what the signatures of the firmware slots tell. -/
def execPowerApplied (addr : Nat) (a b : FwVerdict) (s : State) : Res :=
  if s.pwr.supply then .refused .notDue
  else
    let s := { s.powerLost with pwr.supply := true, pwr.smbus := 0x60 + addr % 8 }
    let s := (s.showUid.bootRom a b).putF F.GLB_BOOT_STATUS_AUTO_START (if s.sec.autoStart then 1 else 0)
    .next { s with pwr.starting := s.sec.autoStart && !s.sec.recovery }.standby

/-- The device goes OFF; PWR_TRIP_CAUSE keeps its value until the next power-on (R411). -/
def State.supplyGone (s : State) : State := s.powerLost.setReg R.PWR_TRIP_CAUSE (s.reg R.PWR_TRIP_CAUSE)

/-- SUPPLY_LOST (R334). -/
def execSupplyLost (s : State) : Res := if s.pwr.supply then .next s.supplyGone else .refused .notDue

/-- The input's excursion outside 44 to 58 V: INPUT_RANGE once, after 1 ms (R334). -/
def State.excursion (s : State) (mv : Nat) : State :=
  if 44000 ≤ mv && mv ≤ 58000 then { s with pwr.outSince := none, pwr.outTold := false }
  else match s.pwr.outSince with
    | none => { s with pwr.outSince := some s.timeNs }
    | some t =>
      if s.pwr.outTold || s.timeNs < t + 10 ^ 6 then s
      else ({ s with pwr.outTold := true }.addF F.PWR_INPUT_EVENTS_COUNT 1).log Code.INPUT_RANGE (unitId 0xD 0xFFF) none 0 0

/-- INPUT_VOLTAGE_SAMPLE (R334, R351): millivolts and tenths of an ampere averaged over 10 µs, watts over 1 ms. -/
def execInputVoltageSample (mv tenthAmps watts : Nat) (s : State) : Res :=
  if !s.pwr.supply then .refused .notDue
  else if mv < 40000 || 60000 < mv then .next s.supplyGone
  else
    let s := ((s.putF F.PWR_INPUT_MV mv).putF F.PWR_INPUT_CURRENT tenthAmps).putF F.PWR_INPUT_POWER_WATTS watts
    .next ((s.putF F.PWR_INPUT_PEAK_WATTS (max (s.getF F.PWR_INPUT_PEAK_WATTS) (mv * tenthAmps / 10000))).excursion mv)

/-- MODULE_CONVERTER_FAIL (R334, Table REL-6): seven converters cannot carry the bus. -/
def execModuleConverterFail (converter : Nat) (s : State) : Res :=
  whenPart (converter < 8) <|
    let m := s.getF F.PWR_BUS_CONVERTERS
    if !bit m converter then .refused .notDue
    else .next ((s.putF F.PWR_BUS_CONVERTERS (m - 2 ^ converter)).retireDevice (unitId 0xD 0xFFF))

/-! ## Cold boot's second half (R381) -/

/-- SECOND_HALF_START (Table BOOT-2 steps 5 to 12); after a trip it waits until every sensor has cooled (R411). -/
def execSecondHalfStart (tests : BootTests) (s : State) : Res :=
  whenPart tests.wf <|
    if s.devState ≠ 1 || !s.pwr.starting || s.sec.recovery || s.getF F.GLB_PROFILE_RETIRE = 1 then .refused .notDue
    else .next (if s.pwr.tripped && s.tooHot then s.hold (.secondHalfStart tests) else s.secondHalf tests)

/-! ## Calibration (R339 to R341) -/

/-- A record found stale (R341): the island is guard-banded and a recalibration is pending. -/
def State.guardBand (s : State) (i : Nat) : State :=
  let s := (s.putF (F.PWR_ISL_FREQ_TARGET i) (94 * s.getF (F.PWR_ISL_CAL_F_MHZ i) / 100)).putF (F.PWR_ISL_STATE_GUARDBAND i) 1
  ((s.putF (F.PWR_ISL_STATE_RECAL_PENDING i) 1).log Code.CAL_STALE (unitId 0xD i) none 0 0).settleHold

/-- Does a reading find the island's record stale? -/
def State.calStale (s : State) (i load temp : Nat) : Bool :=
  s.getF (F.PWR_ISL_CAL_F_MHZ i) != 0 && s.getF (F.PWR_ISL_STATE_GUARDBAND i) == 0 &&
    (s.getF (F.PWR_ISL_CAL_COND_TEMP_C i) + 15 < temp || 2 * s.getF (F.PWR_ISL_CAL_COND_LOAD_INDEX i) < load)

/-- ISLAND_MONITOR_REPORT (R339, R341, R409): load index and °C of an island that is ON, its droops since the last report, and its
average MHz over 1 ms. -/
def execIslandMonitorReport (island load temp droops mhz : Nat) (s : State) : Res :=
  whenPart (island < 1220) <|
    if !s.islandOn island then .refused .notDue
    else
      let l := min load 255
      let t := min temp 255
      let peak := storeGet (fun _ => 0) s.pwr.peak island
      let s := { s with pwr.peak := storeSet (fun _ => 0) s.pwr.peak island (max peak l) }
      let s := (s.putF (F.PWR_ISL_STATE_TEMP island) t).putF (F.PWR_ISL_STATE_LOAD_INDEX island) l
      let s := (s.addSatF (F.PWR_ISL_EVENTS_DROOPS island) droops).putF (F.PWR_ISL_FREQ_AVERAGE island) mhz
      .next ((if s.calStale island l t then s.guardBand island else s).thermal 1 island temp)

/-- An island's part in a sweep: a new record, or failure where no point passes; one that is OFF is calibrated when it next comes up. -/
def State.sweepIsland (failed : List Nat) (s : State) (i : Nat) : State :=
  if s.islandState i = 0 || failed.contains i then
    let s := ((s.putF (F.PWR_ISL_STATE_GUARDBAND i) 0).putF (F.PWR_ISL_STATE_RECAL_PENDING i) 0).putF (F.PWR_ISL_FREQ_TARGET i)
      (s.getF (F.PWR_ISL_CAL_F_MHZ i))
    if s.islandState i = 0 then s else s.islandFailed i
  else s.calibrate i

/-- Islands with RECAL_PENDING. -/
def State.recalPending (s : State) : List Nat := (List.range 1220).filter fun i => s.getF (F.PWR_ISL_STATE_RECAL_PENDING i) == 1

/-- RECALIBRATION_SWEEP (R340, R341): at a full Lull; `failed` are the islands for which FMIN_MHZ fails. -/
def execRecalibrationSweep (failed : List Nat) (s : State) : Res :=
  if !s.momentOk 1 || s.recalPending.isEmpty then .refused .notDue
  else .next (s.recalPending.foldl (State.sweepIsland failed) s).settleHold.showJobs

/-- RECAL_ALL: RECAL_PENDING on every island that is ON. -/
def State.recalAll (s : State) : State :=
  (((List.range 1220).filter s.islandOn).foldl (fun (s : State) i => s.putF (F.PWR_ISL_STATE_RECAL_PENDING i) 1) s).settleHold

/-- RECAL_ALL (R341, R351): a write of PWR_CONTROL without GO_STANDBY. -/
def execRecalAll (_req : Requester) (value : Word) (s : State) : Res :=
  if bit value.toNat 0 then .refused .otherRow else .next (if bit value.toNat 1 then s.recalAll else s)

/-! ## Power changes (R57, R350, R397) -/

/-- GO_STANDBY (R350): a write of PWR_CONTROL with GO_STANDBY, from READY, RUN, LULL or FAULTED. -/
def execGoStandby (_req : Requester) (value : Word) (s : State) : Res :=
  if !bit value.toNat 0 then .refused .otherRow
  else
    let s := if bit value.toNat 1 then s.recalAll else s
    .next (if s.devState = 2 || s.devState = 3 || s.devState = 4 || s.devState = 6 then s.quiesce 1 else s)

/-- The drain ends: the link goes down with its block, the islands go OFF, STANDBY; a warm reset goes on to the second half. -/
def State.drainEnds (s : State) : State :=
  let warm : Bool := s.pwr.purpose == 2
  let s := if s.host.up || warm then s.linkReset true else s
  let s := { s.switchedLost.standby with pwr.purpose := 0 }
  if warm then s.warmBoot else s

/-- QUIESCE_DRAIN_COMPLETE (R57, R58, R350, R397): every record is posted before the state changes. -/
def execQuiesceDrainComplete (s : State) : Res :=
  if s.devState ≠ 5 then .refused .notDue
  else .next (if s.job.records.isEmpty then s.drainEnds else s.hold .quiesceDrainComplete)

/-! ## Island quiesce and reset (R337, R343 to R345, R352) -/

/-- Does an island hold work of a step (R344)? -/
def State.islandWork (s : State) (i : Nat) : Bool :=
  match islandKind i with
  | 0 => (s.core i).saved.isSome || s.job.jobs.any fun j => match j.step with | some st => st.phys.contains i | none => false
  | 5 => s.kv.asked.any fun (p : Nat) => p / 272 == i - 1196
  | 6 | 7 => s.vid.streams.any fun (v : Stream) => v.engine == i - 1200 && v.units.any fun (u : VUnit) => u.uid.isSome
  | 8 => s.tier.running.any fun (r : Running) => r.uid.isSome
  | _ => s.stepRunning

/-- RECAL_PENDING set on one island. -/
def State.recalOne (s : State) (i : Nat) : State :=
  if s.islandWork i then s else (s.putF (F.PWR_ISL_STATE_RECAL_PENDING i) 1).settleHold

/-- ISLAND_RESET (R337, R352): a write of PWR_ISL_CONTROL with RESET; the island quiesces. -/
def execIslandReset (_req : Requester) (island : Nat) (value : Word) (s : State) : Res :=
  whenPart (island < 1220) <|
    if !bit value.toNat 0 then .refused .otherRow
    else
      let s := if bit value.toNat 1 then s.recalOne island else s
      let st := s.islandState island
      .next (if s.islandWork island || st = 0 || 4 ≤ st then s
        else { s with pwr.quiescing := s.pwr.quiescing ++ [island] }.setIsland island 4)

/-- ISLAND_RECAL (R352): a write of PWR_ISL_CONTROL without RESET. -/
def execIslandRecal (_req : Requester) (island : Nat) (value : Word) (s : State) : Res :=
  whenPart (island < 1220) <|
    if bit value.toNat 0 then .refused .otherRow else .next (if bit value.toNat 1 then s.recalOne island else s)

/-- The cache lines and tier-1 bytes of an LLM bank group lost: dirty lines have been written back in the quiesce. -/
def State.clearGroup (s : State) (die g : Nat) : State :=
  let here (l : Nat) : Bool := s.imageValid && bankGroup (s.physBank die l) == g
  let mine (x : CacheLine) : Bool := x.die == die && here (s.cacheBank die x.set)
  let banks := (List.range 32).filter fun b => bit (s.getF (F.MEM_LLM_SCRATCH_MASK die)) b
  let gone (e : Nat × Byte) : Bool := e.1 / 2 ^ 32 == die && here (banks.getD (e.1 % 2 ^ 32 / 2 ^ 24) 0)
  { s with mem.cache := s.mem.cache.filter fun x => !mine x, mem.llm := s.mem.llm.filter fun e => !gone e }.addF
    (F.MEM_LLM_WRITEBACKS_COUNT die) (s.mem.cache.filter fun x => mine x && x.dirty).length

/-- What an island reset clears (R92, R337): logic, flags and SRAM of the island. -/
def State.clearIsland (s : State) (i : Nat) : State :=
  match islandKind i with
  | 0 => (s.setCore i { Core.idle with failed := (s.core i).failed }).setReg (R.JOB_CORE_FLAGS i) 0
  | 1 => s.clearGroup ((i - 1088) / 16) ((i - 1088) % 16)
  | 3 =>
    let s := s.resetPort (i - 1156)
    if s.portFree (i - 1156) then s.beginTraining (i - 1156) else s
  | 9 => if i = 1217 then (if s.host.up then s.linkReset true else s) else if i = 1218 then { s with mail.store := [] } else s
  | _ => s

/-- The state of an island that is powered and has nothing to do (R338). -/
def State.restState (s : State) (i : Nat) : Nat :=
  match islandKind i with
  | 0 | 5 | 6 | 7 | 8 => if s.islandWork i then 1 else 2
  | _ => 1

/-- ISLAND_DRAINED (R344, R366): the island is reset and comes back. -/
def execIslandDrained (island : Nat) (s : State) : Res :=
  whenPart (island < 1220) <|
    if s.islandState island ≠ 4 then .refused .notDue
    else
      let s := { s with pwr.quiescing := s.pwr.quiescing.filter fun (x : Nat) => x != island }
      let s := (s.setIsland island 5).clearIsland island
      .next (s.setIsland island (s.restState island))

/-- QUIESCE_TIMEOUT (R345): an island that does not drain is forced down and counts as failed. -/
def execQuiesceTimeout (island : Nat) (s : State) : Res :=
  whenPart (island < 1220) <|
    if !(s.islandState island = 4 || (s.devState = 5 && s.islandState island ≠ 0)) then .refused .notDue
    else
      let s := { s with pwr.quiescing := s.pwr.quiescing.filter fun (x : Nat) => x != island }
      let s := (s.addF (F.PWR_ISL_EVENTS_TIMEOUTS island) 1).addF F.PWR_QUIESCE_TIMEOUTS_COUNT 1
      .next ((s.log Code.QUIESCE_TIMEOUT (unitId 0xD island) none 0 0).islandFailed island)

/-- WINDBREAK_RETRY (R343): the oldest request answered RETRY whose island quiesces and resets no longer is sent again. -/
def execWindbreakRetry (s : State) : Res :=
  if s.pwr.retries.isEmpty then .refused .notDue
  else .next (match s.pwr.retries.find? fun (r : Nat × Instr) => s.islandState r.1 != 4 && s.islandState r.1 != 5 with
    | some r => { s with pwr.retries := s.pwr.retries.erase r }.hold r.2
    | none => s)

/-! ## Stopped clocks and wake latches (R338, R347) -/

/-- CORE_IDLE_RETENTION (R338). -/
def execCoreIdleRetention (core : Nat) (s : State) : Res :=
  whenPart (core < 1088) <|
    if s.getF (F.JOB_CORE_STATUS_STATE core) ≠ 1 || s.islandState core ≠ 2 || s.getF F.PWR_IDLE_RET_US_US = 0 then .refused .notDue
    else .next (s.setIsland core 3)

/-- WAKE_LATCH_SET (R343, R347): an edge for an island; one that is ON takes it at once, one that wakes on request comes up, and for
any other the latch stays set until the island is ON. -/
def execWakeLatchSet (island : Nat) (s : State) : Res :=
  whenPart (island < 1220) <|
    let st := s.islandState island
    if st = 1 then .next s
    else
      let s := { s with pwr.latches := if s.pwr.latches.contains island then s.pwr.latches else s.pwr.latches ++ [island] }
      .next (if !wakesOnLatch island || !(st = 2 || st = 3) then s
        else if islandKind island = 3 && s.portState (island - 1156) = 5 then s.wakePort (island - 1156)
        else s.setIsland island 1)

/-- An engine's clock runs while it has work (R338). -/
def State.restEngine (s : State) (i : Nat) : State :=
  let work : Bool := match islandKind i with
    | 5 => s.kv.asked.any fun (p : Nat) => p / 272 == i - 1196
    | 6 | 7 => s.vid.streams.any fun (v : Stream) => v.engine == i - 1200 && !v.units.isEmpty
    | _ => !s.tier.running.isEmpty
  if work && s.islandState i = 2 then s.setIsland i 1
  else if !work && s.islandState i = 1 then s.setIsland i 2
  else s

def State.restEngines (s : State) : State := ((List.range 21).map (· + 1196)).foldl State.restEngine s

/-! ## Spare phases and clocks (R291, R342) -/

/-- REGULATOR_PHASE_FAIL (R342): the spare phase, or at the second failure the island OFF. -/
def execRegulatorPhaseFail (island : Nat) (s : State) : Res :=
  whenPart (island < 1220) <|
    if s.islandState island = 0 then .refused .notDue
    else if s.pwr.phasesUsed.contains island then
      .next ((s.log Code.SPARE_EXHAUSTED (unitId 0xD island) none 0 0).islandFailed island)
    else
      let s := { s with pwr.phasesUsed := s.pwr.phasesUsed ++ [island] }.putF (F.PWR_ISL_STATE_SPARE_PHASE island) 1
      .next (((s.addF (F.PWR_ISL_EVENTS_SWAPS island) 1).ledgerSwap 7).log Code.SPARE_SWAP (unitId 0xD island) none 0 0)

/-- CLOCK_GENERATOR_FAIL (R342): the backup generator, or at the second failure the island OFF. -/
def execClockGeneratorFail (island : Nat) (s : State) : Res :=
  whenPart (island < 1220) <|
    if s.islandState island = 0 then .refused .notDue
    else if s.pwr.clocksUsed.contains island then
      .next ((s.log Code.SPARE_EXHAUSTED (unitId 0xD island) none 0 0).islandFailed island)
    else
      let s := { s with pwr.clocksUsed := s.pwr.clocksUsed ++ [island] }.putF (F.PWR_ISL_STATE_BACKUP_CLOCK island) 1
      .next (((s.addF (F.PWR_ISL_EVENTS_SWAPS island) 1).ledgerSwap 8).log Code.SPARE_SWAP (unitId 0xD island) none 0 0)

/-! ## Ports in low power (R348) -/

/-- PORT_LP_ENTER: due for a port of PWR_PORT_LP_MASK whose queues and replay buffer are empty. -/
def execPortLpEnter (port : Nat) (s : State) : Res :=
  whenPart (port < 32) <|
    if !bit (s.getF F.PWR_PORT_LP_MASK_MASK) port || s.portState port ≠ 2 || !(s.port port).queue.isEmpty ||
      !(s.port port).replay.isEmpty then .refused .notDue
    else
      let s := (s.setPort port { s.port port with lp := 1 }).emit (.lpEnter port)
      .next ((s.putF (F.LNK_PORT_STATUS_STATE port) 5).setIsland (1156 + port) 2)

/-- PORT_WAKE_PATTERN: the partner's wake pattern aborts the entry or ends low power; either way the port is UP. -/
def execPortWakePattern (port : Nat) (s : State) : Res :=
  whenPart (port < 32) (if s.portState port = 5 then .next (s.wakePort port) else .refused .notDue)

/-! ## Lasers and temperatures (R406, R409) -/

/-- LASER_POWER_UPDATE (R406): the powers of an optical port's two laser fibres in units of 0.125 dBm; 17 dBm is 136. -/
def execLaserPowerUpdate (port a b : Nat) (s : State) : Res :=
  whenPart (24 ≤ port && port < 32) <|
    let s := (s.putF (F.LNK_PORT_LASER_POWER_A port) (min a 255)).putF (F.LNK_PORT_LASER_POWER_B port) (min b 255)
    .next ((s.putF (F.LNK_PORT_LASER_LOW_A port) (if a < 136 then 1 else 0)).putF (F.LNK_PORT_LASER_LOW_B port)
      (if b < 136 then 1 else 0))

/-- Sensors of a kind; flash packages as the twelve bits of an INDEX allow. -/
def sensorCount : Nat → Nat
  | 1 => 1220
  | 2 | 3 => 8
  | 4 => 4096
  | _ => 0

/-- THERMAL_SENSOR_READ (R409 to R412): a sensor of Table EM-4 reads a temperature. -/
def execThermalSensorRead (kind index celsius : Nat) (s : State) : Res :=
  whenPart (index < sensorCount kind) <|
    if !s.pwr.supply then .refused .notDue
    else
      let s := if kind = 1 && s.islandOn index then s.putF (F.PWR_ISL_STATE_TEMP index) (min celsius 255) else s
      let s := if kind = 2 then s.putF (F.MEM_STACK_STATUS_TEMP index) (min celsius 255) else s
      .next (s.thermal kind index celsius)

end Sys2Proof.Machine
end

