-- ==== Sys2Proof/Machine/Recovery.lean ====
section
/-! DEFINITION. The Lull, its watchdog and its bank phase (R52, R55, R302), liveness and aging (R293, R294), failed cores (R295),
and the stripe set: formation, rebuild, decisions and replay (R300 to R309). -/

namespace Sys2Proof.Machine

open Sys2Proof

/-! ## The Lull -/

/-- LULL_DECLARE (R52, R133, R302): `late` is the unit that drained last. A step not drained waits; where the context banks, the Lull
waits for its bank phase. -/
def execLullDeclare (job late : Nat) (s : State) : Res :=
  match s.jobOf job with
  | none => .refused .notDue
  | some j =>
    match j.step with
    | none => .refused .notDue
    | some st =>
      if st.bankPhase = 3 then .next (s.declareLull job late)
      else if st.bankPhase ≠ 0 then .next ((s.noteStall j.ctx).hold (.lullDeclare job late))
      else if !s.drained j st then .next (s.hold (.lullDeclare job late))
      else .next (match s.writeSummary job with
        | .ok t =>
          if t.banks j.ctx then
            match t.jobOf job with
            | some j' =>
              let t := t.bankStart j' ((j'.step).getD st)
              match (t.jobOf job).bind (·.step) with
              | some st' => if st'.bankPhase = 3 then t.declareLull job late else (t.noteStall j.ctx).hold (.lullDeclare job late)
              | none => t
            | none => t
          else t.declareLull job late
        | .wait => s.hold (.lullDeclare job late)
        | .bankBad => s.jobFault job Code.BANK_GROUP_BAD 0 0 0
        | .undoFull => s.jobFault job Code.UNDO_FULL 0 0 0
        | .mapFault va => s.mapFault job va 0 0
        | .port => s.mapFault job st.summary 0 0)

/-- LULL_WATCHDOG_EXPIRE (R55, R303): once per step, `unit` the unit not yet drained. -/
def execLullWatchdogExpire (job unit : Nat) (s : State) : Res :=
  match s.jobOf job with
  | none => .refused .notDue
  | some j =>
    match j.step with
    | none => .refused .notDue
    | some st =>
      if st.retiredAt.isNone || st.watchdog || s.getF F.JOB_LULL_WATCHDOG_TIMEOUT_US = 0 then .refused .notDue
      else
        let s := s.mapStep job fun st => { st with watchdog := true }
        .next (((s.putF F.JOB_LATE_UNIT_CONTEXT j.ctx).putF F.JOB_LATE_UNIT_VALUE unit).raise 3)

/-! ## Liveness (R293) -/

/-- LIVENESS_REFRESH. -/
def execLivenessRefresh (s : State) : Res := .next { s with rel.refreshedAt := s.timeNs }

/-- SYSTEM_CONTROLLER_FAILOVER: controller B takes over every duty of A. -/
def execSystemControllerFailover (s : State) : Res :=
  if s.rel.onB then .refused .notDue
  else
    let s := { s with rel.onB := true, rel.refreshedAt := s.timeNs }
    .next ((s.ledgerSwap 11).log Code.SPARE_SWAP (unitId 0xA 3) none 0 0).settleAllMail

/-- LIVENESS_LOST_RETIRE: the ports idle, DEVICE_RETIRE, FAULTED. -/
def execLivenessLostRetire (s : State) : Res := .next (s.retireDevice (unitId 0xA (if s.rel.onB then 3 else 2)))

/-! ## Aging (R294) -/

/-- The ledger kind whose parts are islands of a kind: cores, LLM banks, decode and encode engines, system controllers. -/
def agingKind (i : Nat) : Option Nat :=
  match islandKind i with
  | 0 => some 0
  | 1 => some 2
  | 6 => some (if i < 1209 then 9 else 10)
  | _ => if i = 1219 then some 11 else none

/-- A part counted in PREDICTED of its kind, or no longer. -/
def State.predict (s : State) (i : Nat) (predicted : Bool) : State :=
  if s.rel.predicted.contains i = predicted then s
  else
    let s := { s with rel.predicted := if predicted then s.rel.predicted ++ [i] else s.rel.predicted.erase i }
    match agingKind i with
    | some k =>
      let n := s.getF (F.REL_LEDGER_PREDICTED_COUNT k)
      s.putF (F.REL_LEDGER_PREDICTED_COUNT k) (if predicted then n + 1 else n - 1)
    | none => s

/-- Physical banks of a bank group of a die that the image names and no retirement awaits (R203, R205). -/
def State.groupBanks (s : State) (die g : Nat) : List (Nat × Nat) :=
  let named := (List.range 32).map fun i => leAt (s.section 3 0) (0x110 + 32 * die + i) 1
  ((List.range 33).filter fun b => bankGroup b == g && s.imageValid && named.contains b &&
    !s.rel.banksGone.contains (die, b) && !s.rel.retireBanks.contains (die, b)).map fun b => (die, b)

/-- A core or the banks of a group below the threshold: retired at the next full Lull. -/
def State.retireAging (s : State) (i : Nat) : State :=
  match islandKind i with
  | 0 =>
    if (s.core i).failed || s.rel.coresGone.contains i || s.rel.retire.contains i then s
    else if s.imageValid then { s with rel.retire := s.rel.retire ++ [i] }.settleHold.showFree
    else s.retireUnmapped i (unitId 0xE i)
  | 1 => { s with rel.retireBanks := s.rel.retireBanks ++ s.groupBanks ((i - 1088) / 16) ((i - 1088) % 16) }.settleHold
  | _ => s

/-- MARGIN_REPORT: `margin` the reading, `predicted` what its 30-day projection says. The island's register shows it while the island
is ON; a reading of a guard-banded island is not used otherwise. -/
def execMarginReport (island margin : Nat) (predicted : Bool) (s : State) : Res :=
  whenPart (island < 1220) <|
    let s := if s.islandOn island then s.putF (F.PWR_ISL_STATE_MARGIN island) margin else s
    .next (if s.getF (F.PWR_ISL_STATE_GUARDBAND island) = 1 then s
      else
        let s := s.predict island predicted
        if s.getF F.REL_AGING_THRESHOLD_VALUE ≤ margin then { s with rel.aging := s.rel.aging.erase island }
        else if s.rel.aging.contains island then s
        else ({ s with rel.aging := s.rel.aging ++ [island] }.log Code.AGING_WARN (unitId 0xD island) none 0 0).retireAging island)

/-! ## Failed cores (R295) -/

/-- CORE_PROBE: a RUNNING core's probe; ten in a row without an answer are the 1 ms of R295. -/
def execCoreProbe (core : Nat) (answered : Bool) (s : State) : Res :=
  whenPart (core < 1088) <|
    if s.getF (F.JOB_CORE_STATUS_STATE core) ≠ 2 then .refused .notDue
    else
      let c := s.core core
      if answered then .next (s.setCore core { c with silent := 0 })
      else
        let s := s.setCore core { c with silent := c.silent + 1 }
        .next (if 10 ≤ c.silent + 1 then s.coreFailed core else s)

/-- CORE_PROBE_TIMEOUT: a RUNNING core has answered no probe for 1 ms. -/
def execCoreProbeTimeout (core : Nat) (s : State) : Res :=
  whenPart (core < 1088) <|
    if s.getF (F.JOB_CORE_STATUS_STATE core) ≠ 2 then .refused .notDue else .next (s.coreFailed core)

/-! ## Formation (R300) -/

/-- Is a delivered frame the banking message of an OP (Table REL-8)? -/
def bankKind (op : Nat) (f : Frame) : Bool := f.typ == 5 && f.cls == 2 && 16 ≤ f.payload.length && leAt f.payload 0 1 == op

def bankFrom (f : Frame) : Nat := leAt f.payload 1 1
def bankStep (f : Frame) : Nat := leAt f.payload 2 6
def bankUnit (f : Frame) : Nat := leAt f.payload 0x0C 4

/-- All nine members have reported complete: FORMED. -/
def State.formCheck (s : State) : State :=
  if s.rel.formed.length = 9 then
    { s with rel.joined := [], rel.formStaged := [], rel.formIn := [], rel.formed := [] }.putF F.REL_STRIPE_STATUS_STATE 2
  else s

/-- A member's report that all its units are staged. -/
def State.memberFormed (s : State) (pos : Nat) : State :=
  if s.rel.formed.contains pos then s else { s with rel.formed := s.rel.formed ++ [pos] }.formCheck

/-- This member's units are all staged: it reports complete to every member (log entry 87). -/
def State.selfFormed (s : State) : State :=
  (s.stripePeers.foldl (fun s p => s.bankSend p 3 0 s.bankedUnits []) s).memberFormed s.stripePos

/-- Every banked unit sent to its holder as a delta against zero (R300 step 3). -/
def State.formSend (s : State) : State :=
  if s.bankedUnits = 0 then s.selfFormed
  else (List.range s.bankedUnits).foldl (fun s j =>
    let u := s.bankedAddr j / 4096
    let r := rowOf s.stripePos j
    let w := s.wireBytes u (s.hbm (u * 4096) 4096)
    w.2.bankPieces false (r % 9) 2 0 r w.1) s

/-- STRIPE_FORM (R300): bit 0 of the value is FORM; without it, or without a set, the write has no effect. -/
def execStripeForm (_req : Requester) (value : Word) (s : State) : Res :=
  if !bit value.toNat 0 || s.stripeIds.isEmpty then .next s
  else
    let s := s.stripeNone.putF F.REL_STRIPE_STATUS_STATE 1
    let s := match s.partitions.find? (·.parity) with
      | some p => s.clearHbm (p.first * pageBytes) (p.count * pageBytes)
      | none => s
    .next (s.stripePeers.foldl (fun s p => s.bankSend p 1 (leAt s.stripeSet 6 1) s.bankedPages.length []) s)

/-- A JOIN compared with this member's set (R300 step 2); it waits until FORM has been written here. -/
def serveJoin (f : Frame) (s : State) : Option State :=
  let pos := bankFrom f
  if !s.stripePeers.contains pos then some s
  else if s.stripeState ≠ 1 then none
  else if leAt f.payload 8 4 ≠ s.stripeId || bankUnit f ≠ s.bankedPages.length || leAt f.payload 2 1 ≠ leAt s.stripeSet 6 1 then
    some (s.log Code.STRIPE_MISMATCH (unitId 1 0) none pos 0)
  else if s.rel.joined.contains pos then some s
  else
    let s := { s with rel.joined := s.rel.joined ++ [pos] }
    some (if s.rel.joined.length = 8 then s.formSend else s)

/-- STRIPE_JOIN. -/
def execStripeJoin (s : State) : Res := s.frameRow .stripeJoin (bankKind 1) serveJoin

/-! ## Deltas (R302) -/

/-- A piece put with the others of its unit; a piece seen before begins the unit anew. -/
def addPiece (d : Delta) (i : Nat) (bs : List Byte) : Delta :=
  if d.pieces.any (·.1 == i) then { d with pieces := [(i, bs)] } else { d with pieces := d.pieces ++ [(i, bs)] }

/-- A DELTA piece staged at the holder (R299, R302); it waits where the journal is full or FORM has not been written. -/
def serveDelta (f : Frame) (s : State) : Option State :=
  let pos := bankFrom f
  let row := bankUnit f % 2 ^ 25
  let i := bits (bankUnit f) 29 25
  let step := bankStep f
  let is (d : Delta) : Bool := d.pos == pos && d.step == step && d.row == row
  if !s.stripePeers.contains pos || row % 9 ≠ s.stripePos then some s
  else if s.stripeState = 0 then none
  else
    let had := s.rel.deltas.find? is
    if had.isNone && s.stripeState ≠ 1 && s.undoCapacity ≤ s.undoUnits then none
    else
      let d := addPiece (had.getD ⟨pos, step, row, []⟩) i (f.payload.drop 16)
      let s := { s with rel.deltas := s.rel.deltas.filter (fun x => !is x) ++ [d] }
      if d.pieces.length ≠ 4096 / s.bankPiece then some s.undoShow
      else if s.stripeState = 1 then
        let n := ((s.rel.formIn.find? (·.1 == pos)).map (·.2)).getD 0 + 1
        let bytes := (List.range d.pieces.length).flatMap fun k => ((d.pieces.find? fun x => x.1 == k).map (·.2)).getD []
        let s := { s with rel.deltas := s.rel.deltas.filter (fun x => !is x),
                          rel.formIn := s.rel.formIn.filter (fun (x : Nat × Nat) => x.1 != pos) ++ [(pos, n)] }.xorParity row bytes
        some (s.bankSend pos 3 0 n []).undoShow
      else
        let n := (s.rel.deltas.filter fun x => x.pos == pos && x.step == step && x.pieces.length == 4096 / s.bankPiece).length
        some (s.bankSend pos 3 step n []).undoShow

/-- BANK_DELTA. -/
def execBankDelta (s : State) : Res := s.frameRow .bankDelta (bankKind 2) serveDelta

/-- A STAGED message: in formation an answer or a member's report, else the answer of a holder in a bank phase (R300, R302). -/
def serveStaged (f : Frame) (s : State) : Option State :=
  let pos := bankFrom f
  let n := bankUnit f
  if !s.stripePeers.contains pos then some s
  else if s.stripeState = 0 then none
  else if s.stripeState = 1 then
    if n = s.bankedUnits then some (s.memberFormed pos)
    else if n = s.bankedUnits / 8 && !s.rel.formStaged.contains pos then
      let s := { s with rel.formStaged := s.rel.formStaged ++ [pos] }
      some (if s.rel.formStaged.length = 8 then s.selfFormed else s)
    else some s
  else
    match s.rel.phases.find? (·.step == bankStep f) with
    | some b => some (s.bankAdvance { b with staged := b.staged.filter (·.1 != pos) ++ [(pos, n)] })
    | none => some s

/-- BANK_STAGED. -/
def execBankStaged (s : State) : Res := s.frameRow .bankStaged (bankKind 3) serveStaged

/-- A DROP: the sender's staged deltas of the step are discarded (R308). -/
def serveDrop (f : Frame) (s : State) : Option State :=
  some { s with rel.deltas := s.rel.deltas.filter fun d => !(d.pos == bankFrom f && d.step == bankStep f) }.undoShow

/-- BANK_DROP. -/
def execBankDrop (s : State) : Res := s.frameRow .bankDrop (bankKind 4) serveDrop

/-! ## Rebuild (R304, R306, R309) -/

/-- Rows of the set. -/
def State.stripeRows (s : State) : Nat := 9 * (s.bankedUnits / 8)

/-- This member's unit of a row sent as REBUILD_DATA: a data unit's banked value, parity as stored (R306 step 2). -/
def State.supplyRow (dest : Nat) (s : State) (r : Nat) : State :=
  match unitOfRow s.stripePos r with
  | some j =>
    let a := s.bankedAddr j
    let bad := s.poisoned a 4096
    let w := s.wireBytes (a / 4096) (s.bankedValue (a / 4096))
    w.2.bankPieces bad dest 6 s.lastBanked r w.1
  | none =>
    match s.parityAddr r with
    | some a => s.bankPieces (s.poisoned a 4096) dest 6 s.lastBanked r (s.hbm a 4096)
    | none => s

/-- A REBUILD_BEGIN (R306, R307): it waits for the decision of a pending phase. -/
def serveRebuildBegin (f : Frame) (s : State) : Option State :=
  let pos := bankFrom f
  if !s.stripePeers.contains pos || s.stripeState = 0 then some s
  else if !s.rel.phases.isEmpty then none
  else
    let s := s.putF F.REL_STRIPE_STATUS_STATE 3
    let s := (List.range s.stripeRows).foldl (State.supplyRow pos) s
    some (s.bankSend pos 7 s.lastBanked 0 [])

/-- REBUILD_BEGIN. -/
def execRebuildBegin (s : State) : Res := s.frameRow .rebuildBegin (bankKind 5) serveRebuildBegin

/-- A unit written whole with a rebuilt value; a unit of a PRIVATE partition holds ciphertext nobody can read (R218, R308; log entry
85). -/
def State.writeRebuilt (s : State) (addr : Nat) (bytes : List Byte) : State :=
  let priv := match s.partitionOfPage (addr / pageBytes) with | some (_, p) => p.priv | none => false
  if priv then
    let s := s.clearHbm addr 4096
    { s with mem.orphanCipher := (unitsOf addr 4096).foldl (fun m u => storeSet noPoison m u true) s.mem.orphanCipher }
  else s.setHbm addr bytes

/-- A piece of a peer's answer XORed into a row; a piece seen before is not taken again. -/
def addRow (r : RowIn) (pos i size : Nat) (bs : List Byte) : RowIn :=
  if r.got.contains (pos, i) then r
  else
    { r with got := r.got ++ [(pos, i)],
             acc := r.acc.take (i * size) ++ xorBytes ((r.acc.drop (i * size)).take size) bs ++ r.acc.drop (i * size + size) }

/-- Has a row all the pieces of its eight answers? -/
def State.rowWhole (s : State) (r : RowIn) : Bool := r.got.length == 8 * (4096 / s.bankPiece)

/-- A rebuilt row written: this member's data unit, or its parity where it is holder (R306 step 3). -/
def State.landRow (s : State) (r : RowIn) : State :=
  let s := { s with rel.rowsIn := s.rel.rowsIn.filter (·.row != r.row), rel.rowsDone := s.rel.rowsDone + 1 }
  match unitOfRow s.stripePos r.row with
  | some j => s.writeRebuilt (s.bankedAddr j) r.acc
  | none => match s.parityAddr r.row with
    | some a => s.setHbm a r.acc
    | none => s

/-- The units of this member whose repair waits on a row. -/
def State.repairOf (s : State) (row : Nat) : Option Nat :=
  s.rel.repairs.find? fun u => match s.bankedIndex u with | some j => rowOf s.stripePos j == row | none => false

/-- A repair fails (R304): REBUILD_FAILED, and REGION_LOST or a LOST page follows. -/
def State.repairFailed (s : State) (u : Nat) : State :=
  let s := { s with rel.repairs := s.rel.repairs.erase u }
  let s := s.log Code.REBUILD_FAILED (unitId 1 0) none (s.lastBanked % 2 ^ 32) (s.lastBanked / 2 ^ 32)
  let bad := (s.kv.pages.filter fun e => e.2.state == 4 && e.2.address < u * 4096 + 4096 &&
    u * 4096 < e.2.address + kvPageBytes e.2.format).map (·.1)
  let s := bad.foldl (fun s i => (s.setKvPage i { s.kvPage i with state := 5 }).addF F.MEM_KV_LOST_COUNT 1) s
  match s.pageOwner (u * 4096 / pageBytes) with
  | some c => s.ctxFault c Code.REGION_LOST
  | none => s

/-- A REBUILD_DATA piece: a request of a row, a piece of a rebuild, or a piece of a repair. -/
def serveRebuildData (f : Frame) (s : State) : Option State :=
  let pos := bankFrom f
  let row := bankUnit f % 2 ^ 25
  let i := bits (bankUnit f) 29 25
  let data := f.payload.drop 16
  let have_ := (s.rel.rowsIn.find? (·.row == row)).getD ⟨row, [], List.replicate 4096 0⟩
  let put (s : State) : State × RowIn :=
    let r := addRow have_ pos i s.bankPiece data
    ({ s with rel.rowsIn := s.rel.rowsIn.filter (·.row != row) ++ [r] }, r)
  if !s.stripePeers.contains pos || s.stripeState = 0 then some s
  else if data.isEmpty then some (s.supplyRow pos row)
  else if s.getF F.REL_REBUILD_STATUS_STATE = 1 then
    let s := s.addP P.REL_REBUILD_BYTES data.length
    if bit f.flags 1 || s.peerAbsent then some s.rebuildFailed
    else
      let x := put s
      some (if x.1.rowWhole x.2 then x.1.landRow x.2 else x.1)
  else
    match s.repairOf row with
    | none => some s
    | some u => if bit f.flags 1 then some (s.repairFailed u) else some (put s).1

/-- REBUILD_DATA. -/
def execRebuildData (s : State) : Res := s.frameRow .rebuildData (bankKind 6) serveRebuildData

/-- A page descriptor read from its 32 bytes (Table KV-2), with no pins held. -/
def kvPageOf (b : List Byte) : KvPage :=
  let st := leAt b 0x0D 1
  { address := leAt b 0 5, format := leAt b 5 1, fill := leAt b 6 2, refs := leAt b 8 2, pins := 0, owner := leAt b 0x0C 1,
    state := bits st 2 0, orphan := bit st 3, sealPending := bit st 4, gen := leAt b 0x0E 1, slot := leAt b 0x0F 1,
    summary := leAt b 0x10 5, firstPos := leAt b 0x18 4, parent := leAt b 0x1C 4 }

/-- The page units reload the descriptors of a rebuilt KV partition (R308; log entry 90). -/
def State.kvReload (s : State) : State :=
  match s.kvPart with
  | some p =>
    if !p.banked then s
    else
      let base := p.first * pageBytes
      let n := 2 ^ s.getF F.MEM_KV_CONFIG_LOG2_DESC
      let used := ((s.mem.hbm.filter fun e => base ≤ e.1 && e.1 < base + 32 * n).map fun e => (e.1 - base) / 32).eraseDups
      used.foldl (fun s i => s.setKvPage i (kvPageOf (s.hbm (base + 32 * i) 32))) s
  | none => s

/-- A REBUILD_END (R306 step 4): at the standby it counts a peer whose rows are all in, and the last returns the set to FORMED; at a
peer it does so. -/
def serveRebuildEnd (f : Frame) (s : State) : Option State :=
  let pos := bankFrom f
  if !s.stripePeers.contains pos || s.stripeState ≠ 3 then some s
  else if s.getF F.REL_REBUILD_STATUS_STATE ≠ 1 then
    some (if s.getF F.REL_REBUILD_STATUS_STATE = 3 then s else s.putF F.REL_STRIPE_STATUS_STATE 2)
  else
    let ended := if s.rel.ended.contains pos then s.rel.ended else s.rel.ended ++ [pos]
    if ended.length < 8 then some { s with rel.ended := ended }
    else if s.rel.rowsDone < s.stripeRows then none
    else
      let s := { s with rel.ended := [], rel.rowsDone := 0 }
      let s := (s.putF F.REL_STRIPE_STATUS_STATE 2).putF F.REL_REBUILD_STATUS_STATE 2
      let s := s.kvReload.log Code.REBUILD_DONE (unitId 1 0) none (bankStep f % 2 ^ 32) (bankStep f / 2 ^ 32)
      some (s.stripePeers.foldl (fun s p => s.bankSend p 7 (bankStep f) 0 []) s)

/-- REBUILD_END. -/
def execRebuildEnd (s : State) : Res := s.frameRow .rebuildEnd (bankKind 7) serveRebuildEnd

/-- The page of a repaired unit serves its readers again once none of its units waits (R199, R304). -/
def State.kvRepaired (s : State) (u : Nat) : State :=
  (s.kv.pages.filter fun e => e.2.state == 4).foldl (fun s e =>
    let covers (v : Nat) : Bool := (e.2.address < v * 4096 + 4096 && v * 4096 < e.2.address + kvPageBytes e.2.format) ||
      (e.2.summary < v * 4096 + 4096 && v * 4096 < e.2.summary + 264)
    if covers u && !s.rel.repairs.any covers then
      s.setKvPage e.1 { s.kvPage e.1 with state := if e.2.slot = 0xFF then 2 else 1 }
    else s) s

/-- BANKED_UNIT_REBUILD_DONE (R304): `unit`, a 4 KiB unit of HBM, is written whole from its peers' answers; a step that had written it is
discarded. -/
def execBankedUnitRebuildDone (unit : Nat) (s : State) : Res :=
  match s.bankedIndex unit with
  | none => .refused .notDue
  | some j =>
    match s.rel.rowsIn.find? (·.row == rowOf s.stripePos j) with
    | none => .refused .notDue
    | some r =>
      if !s.rel.repairs.contains unit || !s.rowWhole r then .refused .notDue
      else
        let writers := s.job.jobs.filter fun x => match x.step with
          | some st => st.effects.any fun e => match e with | .memory v _ => v == unit | _ => false
          | none => false
        let s := writers.foldl (fun s x => s.replayStep x.uid (unitId 1 0)) s
        let s := { s with rel.repairs := s.rel.repairs.erase unit, rel.rowsIn := s.rel.rowsIn.filter (·.row != r.row),
                          rel.loose := s.rel.loose.filter (·.1 != unit) }
        .next ((s.writeRebuilt (unit * 4096) r.acc).kvRepaired unit).undoShow

/-! ## Decisions and replay (R307, R308) -/

/-- The step that a decision on a context is about: that of its pending phase, else of its step in progress. -/
def State.decideStep (s : State) (ctx : Nat) : Nat :=
  match s.rel.phases.find? (·.ctx == ctx) with
  | some b => b.step
  | none => match (s.job.jobs.find? fun j => j.ctx == ctx && j.step.isSome).bind (·.step) with
    | some st => st.number
    | none => s.getP (P.REL_CTX_BANK_STEP ctx)

/-- The LULL_DECLARE of a job that waits. -/
def lullOf (uid : Nat) : Instr → Option Nat
  | .lullDeclare job late => if job = uid then some late else none
  | _ => none

/-- BANK_DECIDE_COMMIT (R307): the pending phase's deltas are applied and its Lull declared. A value that selects neither decision has
no effect. -/
def execBankDecideCommit (_req : Requester) (ctx : Nat) (value : Word) (s : State) : Res :=
  whenPart (ctx < 256) <|
    if bits value.toNat 1 0 = 2 then .refused .otherRow
    else if bits value.toNat 1 0 ≠ 1 then .next s
    else .next (match s.rel.phases.find? (·.ctx == ctx) with
      | none => (s.applyDeltas (s.decideStep ctx)).undoShow
      | some b =>
        let late := (s.held.findSome? (lullOf b.uid)).getD 0xF000
        let s := { s with held := s.held.filter fun i => (lullOf b.uid i).isNone }
        (s.bankComplete b).declareLull b.uid late)

/-- BANK_DECIDE_ABORT (R307): the step's staged deltas are dropped, and its Lull waits for the discard. -/
def execBankDecideAbort (_req : Requester) (ctx : Nat) (value : Word) (s : State) : Res :=
  whenPart (ctx < 256) <|
    if bits value.toNat 1 0 ≠ 2 then .refused .otherRow
    else
      let step := s.decideStep ctx
      let s := { s with rel.deltas := s.rel.deltas.filter fun d => d.step != step }
      .next (match s.rel.phases.find? (·.ctx == ctx) with
        | none => s.undoShow
        | some b =>
          let s := { s with held := s.held.filter fun i => (lullOf b.uid i).isNone }
          (((s.dropPhase ctx).setBankPhase b.uid 4).putF (F.REL_CTX_BANK_STATE_STATE ctx) 0).undoShow)

/-- A context's steps in progress. -/
def State.stepsOf (s : State) (ctx : Nat) : List (Nat × StepRun) :=
  (s.job.jobs.filter (·.ctx == ctx)).filterMap fun j => j.step.map fun st => (j.uid, st)

/-- A step discarded for the recovery service: it is to be replayed with the same number. -/
def State.discardFor (ctx : Nat) (s : State) (x : Nat × StepRun) : State :=
  let s := (s.dropBank ctx x.2.number).discardStep x.1 .discarded
  match s.jobOf x.1 with
  | some j => s.setJob { j with replayNext := true }
  | none => s

/-- REPLAY_DISCARD (R308): DISCARD of a context's step; refused once its bank phase has completed here. An OP that is neither DISCARD
nor RESUME has no effect. -/
def execReplayDiscard (_req : Requester) (value : Word) (s : State) : Res :=
  let ctx := value.toNat % 256
  if bits value.toNat 9 8 = 2 then .refused .otherRow
  else if bits value.toNat 9 8 ≠ 1 then .next s
  else
    let steps := s.stepsOf ctx
    if steps.any fun x => x.2.bankPhase == 3 then .next (s.putF F.REL_REPLAY_RESULT_CODE Code.REPLAY_REFUSED)
    else
      let s := s.putF F.REL_REPLAY_RESULT_CODE 0
      if s.ctxState ctx ≠ 1 then .next s
      else .next (steps.foldl (State.discardFor ctx) s |>.putF (F.JOB_CTX_STATE_STATE ctx) 4).showJobs

/-- REPLAY_RESUME (R308): the restart is asked for, and takes effect after the quiet time. -/
def execReplayResume (_req : Requester) (value : Word) (s : State) : Res :=
  let ctx := value.toNat % 256
  if bits value.toNat 9 8 ≠ 2 then .refused .otherRow
  else
    let s := s.putF F.REL_REPLAY_RESULT_CODE 0
    .next (if s.ctxState ctx ≠ 4 || s.rel.resuming.contains ctx then s else { s with rel.resuming := s.rel.resuming ++ [ctx] })

/-- REPLAY_QUIET_EXPIRE (R308): the RESUME that has been quiet for longest takes effect: the context is OPEN again and its step
restarts with its number. -/
def execReplayQuietExpire (s : State) : Res :=
  match s.rel.resuming with
  | [] => .refused .notDue
  | ctx :: rest =>
    let s := { s with rel.resuming := rest }
    if s.ctxState ctx ≠ 4 then .next s
    else
      let again := s.job.jobs.filter fun j => j.ctx == ctx && j.phase == .discarded
      let s := again.foldl (fun s j =>
        let n := (j.firstStep + j.done) % 2 ^ 48
        s.log Code.STEP_REPLAY 0xF000 (some ctx) (n % 2 ^ 32) (n / 2 ^ 32)) s
      .next (s.putF (F.JOB_CTX_STATE_STATE ctx) 1).showJobs

end Sys2Proof.Machine
end

