-- ==== Sys2Proof/Machine/Registers.lean ====
section
/-! DEFINITION. The commands that reach BAR0 (R6 to R10, R359, R360, R415). -/

namespace Sys2Proof.Machine

open Sys2Proof

/-- BAR0_BAD_WIDTH_ACCESS (R7): a read completes with Unsupported Request, a write is dropped. -/
def execBar0BadWidthAccess (req : Requester) (write : Bool) (off bytes : Nat) (s : State) : Res :=
  if bytes = 4 && off % 4 == 0 then .refused .otherRow
  else .next (if write then s else s.emit (.unsupported req))

/-- UNDEFINED_OFFSET_ACCESS (R9): a read returns zero, a write is ignored. -/
def execUndefinedOffsetAccess (req : Requester) (write : Bool) (off : Nat) (_value : Word) (s : State) : Res :=
  if off % 4 ≠ 0 || off ≥ 0x4000000 || (regAt off).isSome || s.denied req off then .refused .otherRow
  else .next (if write then s else s.answer req 0)

/-- REGISTER_WRITE (R8, R9, R415): a register with no row of its own and no pair. -/
def execRegisterWrite (req : Requester) (off : Nat) (value : Word) (s : State) : Res :=
  match regAt off with
  | none => .refused .otherRow
  | some r =>
    if r.ownWrite || r.half != .single || s.denied req off then .refused .otherRow
    else .next (match s.quietIsland off with
      | some i => s.retryLater i (.registerWrite req off value)
      | none => s.writeReg r off value)

/-- Does a register hold a counter that a read clears? -/
def isRc (r : RegDef) : Bool := r.fields.any fun f => match f.acc with | .rc => true | _ => false

/-- The word left by a read that clears: the events that arrive during the read are kept (R8). -/
def clearRc (r : RegDef) (w arriving : Nat) : Nat :=
  r.fields.foldl (fun w f => match f.acc with
    | .rc => putBits w f.hi f.lo (min arriving (2 ^ (f.hi + 1 - f.lo) - 1))
    | _ => w) w

/-- RC_REGISTER_READ (R8): the value is returned and cleared. -/
def execRcRegisterRead (req : Requester) (off arriving : Nat) (s : State) : Res :=
  match regAt off with
  | none => .refused .otherRow
  | some r =>
    if !isRc r then .refused .otherRow
    else .next ((s.answer req (s.reg off)).setReg off (BitVec.ofNat 32 (clearRc r (s.reg off).toNat arriving)))

/-- PAIR_LO_READ (R10): all 64 bits are captured for the requester. -/
def execPairLoRead (req : Requester) (off : Nat) (s : State) : Res :=
  match regAt off with
  | none => .refused .otherRow
  | some r =>
    if r.half != .lo || s.denied req off then .refused .otherRow
    else if let some i := s.quietIsland off then .next (s.retryLater i (.pairLoRead req off))
    else if s.pageDown off then .next (s.emit (.completerAbort req))
    else .next ({ s with captures := (req, off, s.view (off + 4)) :: dropLo s.captures req off }.answer req (s.view off))

/-- PAIR_HI_READ (R10): the requester's captured upper half, else the live one. -/
def execPairHiRead (req : Requester) (off : Nat) (s : State) : Res :=
  match regAt off with
  | none => .refused .otherRow
  | some r =>
    if r.half != .hi || s.denied req off then .refused .otherRow
    else if let some i := s.quietIsland off then .next (s.retryLater i (.pairHiRead req off))
    else if s.pageDown off then .next (s.emit (.completerAbort req))
    else .next ({ s with captures := dropLo s.captures req (off - 4) }.answer req
      ((stagedLo s.captures req (off - 4)).getD (s.view off)))

/-- PAIR_LO_WRITE (R10): the lower half is staged for the requester. -/
def execPairLoWrite (req : Requester) (off : Nat) (value : Word) (s : State) : Res :=
  match regAt off with
  | none => .refused .otherRow
  | some r =>
    if r.half != .lo || s.denied req off then .refused .otherRow
    else if !writable r then .next s
    else if let some i := s.quietIsland off then .next (s.retryLater i (.pairLoWrite req off value))
    else if !s.gateOpen r off then .next (s.noteBusy r off)
    else .next ({ s with stages := (req, off, value) :: dropLo s.stages req off }.noteStaged off)

/-- PAIR_HI_WRITE (R10, R415): both halves committed at once. -/
def execPairHiWrite (req : Requester) (off : Nat) (value : Word) (s : State) : Res :=
  match regAt off, regAt (off - 4) with
  | some r, some rl =>
    if r.half != .hi || r.ownWrite || s.denied req off then .refused .otherRow
    else if !writable r then .next s
    else if let some i := s.quietIsland off then .next (s.retryLater i (.pairHiWrite req off value))
    else .next (s.commitPair req rl r (off - 4) value)
  | _, _ => .refused .otherRow

/-- The code an access denied under R359 or R360 records. -/
def deniedCode (off : Nat) : Nat := if inDebug off then Code.NOT_AUTHORIZED else Code.SECURE_ONLY

/-- What a denied read returns: zero, but for the two live status registers of the debug block (R360). -/
def State.deniedRead (s : State) (off : Nat) : Word :=
  if off = R.DBG_SYNC_DUMP_STATUS || (0x3100000 ≤ off && off < 0x3108000 && (off - 0x3100000) % 0x40 == 0x14) then s.view off else 0

/-- SECURE_ONLY_ACCESS (R359, R360): answered with zero or dropped, recorded in GLB_ACCESS_LAST; GLB_ACCESS_DENIED counts it. -/
def execSecureOnlyAccess (req : Requester) (write : Bool) (off : Nat) (value : Word) (s : State) : Res :=
  if off % 4 ≠ 0 || !s.denied req off then .refused .otherRow
  else
    let start := write && inDebug off && bit value.toNat 0
    let s := if start && 0x3100000 ≤ off && off < 0x3108000 && (off - 0x3100000) % 0x40 = 0 then
        s.putF (F.DBG_TG_STATUS_STATE ((off - 0x3100000) / 0x40)) 3
      else if start && off = R.DBG_SYNC_DUMP_CONTROL then
        (s.putF F.DBG_SYNC_DUMP_STATUS_STATE 3).putF F.DBG_SYNC_DUMP_STATUS_LAST_CODE Code.NOT_AUTHORIZED
      else s
    let s := ((s.addF F.GLB_ACCESS_DENIED_COUNT 1).putF F.GLB_ACCESS_LAST_CODE (deniedCode off)).putF
      F.GLB_ACCESS_LAST_ADDR_OFFSET off
    .next (if write then s else s.answer req (s.deniedRead off))

end Sys2Proof.Machine
end

