-- ==== Sys2Proof/Machine/Security.lean ====
section
/-! DEFINITION. The services behind the mailbox opcodes (R386 to R391, R396), firmware update (R395) and the management endpoint (R392 to
R394). -/

namespace Sys2Proof.Machine

open Sys2Proof

/-! ## Notices served (R364, R396) -/

/-- The payload of a notice in flight. -/
def State.payload (s : State) (n : Notice) : List Byte :=
  if n.chan < 32 then s.hbm n.ptr n.len else storeGetRun zeroByte s.mail.store n.ptr n.len

/-- A target whose firmware implements an opcode serves a notice: `body` answers the state after it and the code of its acknowledge. A
payload with poisoned bytes is answered BAD_NOTICE (log entry 119). -/
def State.serve (s : State) (channel : Nat) (op : Nat) (body : Notice → List Byte → State → Nat × State) : Res :=
  match s.notice channel with
  | none => .refused .notDue
  | some n =>
    if n.op ≠ op || !opImplemented channel n.op then .refused .otherRow
    else if channel < 32 && s.poisoned n.ptr n.len then .next (s.completeNotice n Code.BAD_NOTICE)
    else
      let s := if channel < 32 then s.openRange n.ptr n.len else s
      let r := body n (s.payload n) s
      .next (r.2.completeNotice n r.1)

/-- A reply of `n` bytes written at POINTER, where they fit. -/
def State.writeReply (s : State) (n : Notice) (bs : List Byte) : Nat × State :=
  if chanBytes n.chan < n.ptr + bs.length then (Code.BAD_NOTICE, s) else (Code.OK, s.putPayload n.chan n.ptr bs)

/-- GET_INFO (R396). -/
def execGetInfo (channel : Nat) (s : State) : Res :=
  s.serve channel 1 fun n _ s =>
    if channel < 24 then
      let b := (s.reg R.GLB_BOOT_STATUS).toNat
      s.writeReply n ((List.range 256).map fun i =>
        Config.infoByte Config.fuseUid.toNat (s.getF F.GLB_FW_VERSION_VALUE) (s.getF F.GLB_FW_SECURITY_VALUE) (s.getF F.SIL_ROLLBACK_VALUE)
          (bits b 2 0) b i)
    else
      let r := s.freeBytes 64
      r.2.writeReply n r.1

/-! ## Start-up requests (R381, R396, R397) -/

/-- A request by a notice, or on behalf of a management requester, which is answered too. -/
def State.ask (s : State) (caller : Caller) (op : Nat) (body : List Byte → State → Nat × State) : Res :=
  match caller with
  | .notice channel => if channel < 24 then s.serve channel op fun _ p s => body p s else .refused .otherRow
  | .mgmt payload =>
    if s.devState = 0 || s.sec.recovery then .refused .notDue
    else
      let r := body payload s
      .next (r.2.emit (.mgmt (.answer (leBytes 2 r.1))))

/-- A warm reset asked for (R57, R397): QUIESCE from any state but OFF; from a trip QUIESCE and STANDBY complete at once (R411). -/
def State.warmAsked (s : State) : State :=
  if s.devState = 0 then s
  else if s.devState = 5 then { s with pwr.purpose := 2 }
  else if s.pwr.tripped then (s.quiesce 2).drainEnds
  else s.quiesce 2

/-- WARM_RESET (R397): acknowledged OK, then QUIESCE. -/
def execWarmReset (caller : Caller) (s : State) : Res :=
  match caller with
  | .mgmt _ => s.ask caller 2 fun _ s => (Code.OK, s.warmAsked)
  | .notice channel =>
    if 24 ≤ channel then .refused .otherRow
    else match s.serve channel 2 fun _ _ s => (Code.OK, s) with
      | .next t => .next (if t.getF (ackCode channel) = Code.OK then t.warmAsked else t)
      | r => r

/-- SET_BOOT (R396): the firmware slot to mark active, the image slot to mark for boot, AUTO_START. -/
def execSetBoot (caller : Caller) (s : State) : Res :=
  s.ask caller 3 fun p s =>
    let v := leAt p 0 4
    if p.length < 4 then (Code.BAD_NOTICE, s)
    else (Code.OK, { s with sec.active := bits v 0 0, sec.bootImage := bits v 1 1, sec.autoStart := bit v 8 }.putF
      F.GLB_BOOT_STATUS_AUTO_START (bits v 8 8))

/-- STORE_IMAGE (R396): checks 1 to 4 of Table SI-7, then the image is written to its slot. -/
def execStoreImage (channel : Nat) (sig : SigVerdict) (s : State) : Res :=
  s.serve channel 4 fun _ p s =>
    let slot := leAt p 0 1
    let img := p.drop 8
    if p.length < 8 || 1 < slot then (Code.BAD_NOTICE, s)
    else match s.checks1to4 img sig with
      | some f => (f.code, s)
      | none => (Code.OK, if slot = 0 then { s with sec.imageA := img } else { s with sec.imageB := img })

/-- START (R381, R396). -/
def execStart (caller : Caller) (s : State) : Res :=
  s.ask caller 5 fun _ s =>
    if s.getF F.GLB_PROFILE_RETIRE = 1 then (Code.DEVICE_RETIRE, s)
    else (Code.OK, if s.devState = 1 && !s.sec.recovery then { s with pwr.starting := true } else s)

/-! ## Debug tokens (R389 to R391) -/

/-- DEBUG_CHALLENGE: a fresh nonce, valid for 60 s. -/
def execDebugChallenge (channel : Nat) (s : State) : Res :=
  s.serve channel 0x10 fun n _ s =>
    let r := s.freeBytes 16
    let w := r.2.writeReply n r.1
    if w.1 ≠ Code.OK then w
    else (Code.OK, { w.2 with sec.nonces := (w.2.sec.nonces.filter fun (x : Nonce) => x.who != n.who) ++
      [Nonce.mk n.who (leNat r.1) (w.2.timeNs + 60 * 10 ^ 9)] })

/-- The conditions of R390 on a token but for its signature's arithmetic. -/
def State.tokenOk (s : State) (who : Nat) (t : List Byte) : Bool :=
  let slot := leAt t 0x30 1
  let life := leAt t 0x28 4
  176 ≤ t.length && leAt t 0 4 == 0x51534454 && leAt t 4 2 == 1 && leAt t 6 1 < 8 && leAt t 0x2C 4 == 0 && s.policyFlag 0 &&
    leAt t 7 1 == who && leAt t 8 16 == Config.fuseUid.toNat && 1 ≤ life && life ≤ 28800 &&
    s.sec.nonces.any (fun (x : Nonce) => x.who == who && x.value == leAt t 0x18 16 && s.timeNs < x.expires) &&
    ((slot == 0 && !s.policyFlag 4) || s.ownerOk s.policyBytes slot)

/-- DEBUG_TOKEN: presenting a token consumes the nonce; one that is accepted replaces the requester's earlier token. -/
def execDebugToken (channel : Nat) (valid : Bool) (s : State) : Res :=
  s.serve channel 0x11 fun n t s =>
    let ok := valid && s.tokenOk n.who t
    let s := { s with sec.nonces := s.sec.nonces.filter fun (x : Nonce) => x.who != n.who }
    if !ok then (Code.TOKEN_INVALID, s)
    else
      let tk : Token := ⟨n.who, leAt t 6 1, leAt t 0x30 1, s.timeNs + leAt t 0x28 4 * 10 ^ 9⟩
      (Code.OK, { s with sec.tokens := (s.sec.tokens.filter fun (x : Token) => x.who != n.who) ++ [tk] }.closeFacilities)

/-- DEBUG_REVOKE: the caller's token ends. -/
def execDebugRevoke (channel : Nat) (s : State) : Res :=
  s.serve channel 0x12 fun n _ s => (Code.OK, s.endTokens fun t => t.who == n.who)

/-- NONCE_EXPIRE (R390). -/
def execNonceExpire (who : Nat) (s : State) : Res :=
  if s.sec.nonces.any (fun (x : Nonce) => x.who == who) then
    .next { s with sec.nonces := s.sec.nonces.filter fun (x : Nonce) => x.who != who }
  else .refused .notDue

/-- TOKEN_EXPIRED (R391): a token's lifetime has ended. -/
def execTokenExpired (who : Nat) (s : State) : Res :=
  if s.sec.tokens.any (fun (t : Token) => t.who == who) then
    .next ((s.endTokens fun t => t.who == who).log Code.TOKEN_EXPIRED (unitId 0xA 1) none 0 0)
  else .refused .notDue

/-! ## Certificates, weights and keys (R384 to R387) -/

/-- GET_CERTIFICATES (R393, R396). -/
def execGetCertificates (channel : Nat) (s : State) : Res :=
  s.serve channel 0x13 fun n _ s => s.writeReply n (Config.certChain s.running)

/-- IMPORT_WEIGHTS (R387): `page` is what the 2 MiB of ciphertext decrypt to under the transfer key, none where they do not
authenticate. -/
def execImportWeights (channel : Nat) (page : Option (List Byte)) (s : State) : Res :=
  s.serve channel 0x14 fun _ p s =>
    match page, s.weights with
    | some data, some w =>
      let i := leAt p 0 4
      let addr := (w.first + i) * pageBytes
      if !s.sec.keyLoaded || !w.priv || p.length ≠ 32 + pageBytes || data.length ≠ pageBytes || w.count ≤ i then (Code.BAD_NOTICE, s)
      else if s.bankedNow w then (Code.BANK_REFUSED, s)
      else (Code.OK, (s.barWrite addr data).barDirty addr pageBytes)
    | _, _ => (Code.BAD_NOTICE, s)

/-- Does an owner slot hold a key? -/
def State.enrolled (s : State) (slot : Nat) : Bool := s.sec.owners.any fun (o : Nat × List Byte) => o.1 == slot

/-- The form of an enrolment record and the conditions of R386, for an operation; its signature's slot lies after its 192 bytes. -/
def State.enrolOk (s : State) (op : Nat) (p : List Byte) : Bool :=
  let slot := leAt p 1 1
  let signer := leAt p 192 1
  let others := s.sec.owners.filter fun (o : Nat × List Byte) => o.1 != slot
  320 ≤ p.length && leAt p 0 1 == op && 1 ≤ slot && slot ≤ 4 && leAt p 2 6 == 0 && leAt p 0x80 64 == 0 && leAt p 8 16 == Config.fuseUid.toNat &&
    s.sec.counter < leAt p 0x18 8 &&
    (signer == 0 || (s.enrolled signer && !s.sec.owners.isEmpty && !(op == 2 && others.isEmpty)))

/-- ENROL (R386): a record of OP 1, or of an OP that there is not, which is refused. -/
def execEnrol (channel : Nat) (valid : Bool) (s : State) : Res :=
  s.serve channel 0x8001 fun _ p s =>
    let slot := leAt p 1 1
    if !valid || !s.enrolOk 1 p then (Code.ENROL_REFUSED, s)
    else
      let s := { s with sec.owners := (s.sec.owners.filter fun (o : Nat × List Byte) => o.1 != slot) ++ [(slot, (p.drop 0x20).take 96)],
                        sec.counter := leAt p 0x18 8 }
      let s := s.putF F.GLB_OWNER_SLOTS_ENROLLED (Nat.lor (s.getF F.GLB_OWNER_SLOTS_ENROLLED) (2 ^ (slot - 1)))
      (Code.OK, s.putF F.GLB_OWNER_SLOTS_REVOKED (putBits (s.getF F.GLB_OWNER_SLOTS_REVOKED) (slot - 1) (slot - 1) 0))

/-- The staged bundle discarded. -/
def State.dropStaged (s : State) : State :=
  ({ s.setBundle s.sec.staged [] with sec.verified := false, sec.activate := false }.setReg R.GLB_FW_STAGED 0).settleHold

/-- What a revocation ends at once (R386). -/
def State.ownerRevoked (s : State) (slot : Nat) : State :=
  let s := if s.getF F.SIL_STATUS_STATE = 2 && keySlot s.img.image = slot then s.endLoad Code.IMAGE_CANCELLED (some (0, noSection)) else s
  let s := s.endTokens fun t => t.slot == slot
  let b := s.bundle s.sec.staged
  if s.sec.verified && bundleOwner b && bundleSlot b = slot then s.dropStaged else s

/-- REVOKE (R386): a record of OP 2; a slot that holds no key has nothing to revoke. -/
def execRevoke (channel : Nat) (valid : Bool) (s : State) : Res :=
  s.serve channel 0x8001 fun _ p s =>
    let slot := leAt p 1 1
    if !valid || !s.enrolOk 2 p || !s.enrolled slot then (Code.ENROL_REFUSED, s)
    else
      let s := { s with sec.owners := s.sec.owners.filter fun (o : Nat × List Byte) => o.1 != slot, sec.counter := leAt p 0x18 8 }
      let s := s.putF F.GLB_OWNER_SLOTS_ENROLLED (putBits (s.getF F.GLB_OWNER_SLOTS_ENROLLED) (slot - 1) (slot - 1) 0)
      (Code.OK, (s.putF F.GLB_OWNER_SLOTS_REVOKED (Nat.lor (s.getF F.GLB_OWNER_SLOTS_REVOKED) (2 ^ (slot - 1)))).ownerRevoked slot)

/-- MODEL_KEY (R387): only from an SPDM secured session; the keys in the order R387 names them. -/
def execModelKey (channel : Nat) (s : State) : Res :=
  s.serve channel 0x8002 fun n p s =>
    if n.who ≠ 2 then (Code.NOT_AUTHORIZED, s)
    else if p.length < 104 then (Code.BAD_NOTICE, s)
    else (Code.OK, { s with sec.modelKey := some ⟨p.take 64, (p.drop 64).take 32, leAt p 96 8⟩ }.loadModelKey)

/-- SIGN_PATCH (R384, R396): a KIND 1 patch of the active system controller takes the device patch key's signature block. -/
def execSignPatch (channel : Nat) (s : State) : Res :=
  s.serve channel 0x8003 fun n p s =>
    if n.who ≠ 1 then (Code.NOT_AUTHORIZED, s)
    else if p.length < 256 || imageKind p ≠ 1 then (Code.BAD_NOTICE, s)
    else
      let r := s.freeBytes 96
      (Code.OK, r.2.putPayload n.chan (n.ptr + (p.length - 128)) (leBytes 16 15 ++ r.1 ++ leBytes 16 0))

/-! ## The management endpoint (R392 to R394) -/

/-- Is the endpoint up at all? From step 2 of cold boot on (R392). -/
def State.mgmtUp (s : State) : Bool := s.devState != 0

/-- Are the switched domains not there for a request that needs them (R392)? -/
def State.notReady (s : State) : Bool := s.devState == 1 || s.pwr.tripped

/-- An answer whose bytes its standard gives. -/
def State.mgmtFree (s : State) : State :=
  let r := s.freeNat
  let b := r.2.freeBytes (r.1 % 1024)
  b.2.emit (.mgmt (.answer b.1))

/-- A request answered, or ERROR_NOT_READY. -/
def State.mgmtAsk (s : State) (switched : Bool) : State := if switched && s.notReady then s.emit (.mgmt .notReady) else s.mgmtFree

/-- MCTP_MESSAGE (R382, R392, R393): in recovery only MCTP control, PLDM base and PLDM firmware update are answered. -/
def execMctpMessage (msg : MgmtMessage) (s : State) : Res :=
  if !s.mgmtUp then .refused .notDue
  else .next (match msg with
    | .control | .pldmBase => s.mgmtFree
    | .pldm switched | .spdm switched => if s.sec.recovery then s else s.mgmtAsk switched
    | .secured ends switched =>
      if s.sec.recovery || s.sec.sessions = 0 then s
      else
        let s := s.mgmtAsk switched
        if ends then { s with sec.sessions := s.sec.sessions - 1 } else s
    | .unsupported => s)

/-- SPDM_KEY_EXCHANGE (R393): at most four sessions. -/
def execSpdmKeyExchange (s : State) : Res :=
  if !s.mgmtUp || s.sec.recovery then .refused .notDue
  else .next (if 4 ≤ s.sec.sessions then s.emit (.mgmt .busy) else { s with sec.sessions := s.sec.sessions + 1 }.mgmtFree)

/-- What the measurement blocks 1 to 12 measure (R393). -/
def State.measured (s : State) : List (List Byte) :=
  [[]] ++ ((List.range 6).map fun i => match (bundleDir s.running).find? fun d => d.1 == i + 1 with | some d => d.2.2.2 | none => []) ++
    [s.activeDigest, s.policyBytes, s.sec.owners.flatMap fun (o : Nat × List Byte) => leBytes 1 o.1 ++ o.2,
     leBytes 4 (s.getF F.GLB_FW_SECURITY_VALUE) ++ leBytes 4 (s.getF F.SIL_ROLLBACK_VALUE), leBytes 4 s.debugState]

/-- SPDM_GET_MEASUREMENTS (R392, R393): the blocks, then a signature. -/
def execSpdmGetMeasurements (s : State) : Res :=
  if !s.mgmtUp || s.sec.recovery then .refused .notDue
  else
    let r := s.freeBytes 96
    .next (r.2.emit (.mgmt (.answer ((s.measured.zipIdx.flatMap fun x => Config.measurement (x.2 + 1) x.1) ++ r.1))))

/-- The hottest island of a die, or of the hub (die 4). -/
def State.hottestOf (s : State) (die : Nat) : Nat :=
  let hub (i : Nat) : Bool := i = 1216 || 1200 ≤ i
  let here (i : Nat) : Bool :=
    if i < 1088 then i / 272 == die
    else if i < 1152 then (i - 1088) / 16 == die
    else if i < 1156 then i - 1152 == die
    else if i < 1188 then portDie (i - 1156) == die
    else if i < 1196 then (i - 1188) / 2 == die
    else if i < 1200 then i - 1196 == die
    else die == 4 && hub i
  (List.range 1220).foldl (fun a i => if here i then max a (s.getF (F.PWR_ISL_STATE_TEMP i)) else a) 0

/-- The values of a sensor (Table BOOT-6), and whether they need the switched domains. -/
def State.sensor (s : State) (id : Nat) : Option (Bool × List Nat) :=
  if id = 1 then some (false, [s.getF F.PWR_INPUT_MV])
  else if id = 2 then some (false, [s.getF F.PWR_INPUT_CURRENT])
  else if id = 3 then some (false, [s.getF F.PWR_INPUT_POWER_WATTS])
  else if id = 4 then some (false, [s.getF F.PWR_BUS_MV])
  else if id = 5 then some (false, [s.devState])
  else if id = 6 then some (false, [s.getF F.GLB_PROFILE_DEGRADED, s.getF F.GLB_PROFILE_RETIRE])
  else if 10 ≤ id && id ≤ 17 then
    some (true, [s.getF (F.MEM_STACK_STATUS_TEMP (id - 10)), s.getF (F.MEM_STACK_STATUS_THROTTLE (id - 10))])
  else if 20 ≤ id && id ≤ 24 then some (true, [s.hottestOf (id - 20)])
  else if 30 ≤ id && id ≤ 61 then some (true, [s.portState (id - 30)])
  else if 70 ≤ id && id ≤ 82 then
    some (false, [s.getF (F.REL_LEDGER_SPARE_COUNT (id - 70)), s.getF (F.REL_LEDGER_PREDICTED_COUNT (id - 70))])
  else if id = 90 then some (true, [s.getF F.MEM_FLASH_PCT_USED_PCT])
  else if id = 91 then some (false, [s.getF F.REL_STRIPE_STATUS_STATE])
  else none

/-- PLDM_SENSOR_READ (R394): the matching registers as they are when the request arrives. -/
def execPldmSensorRead (sensor : Nat) (s : State) : Res :=
  if !s.mgmtUp || s.sec.recovery then .refused .notDue
  else .next (match s.sensor sensor with
    | none => s.mgmtFree
    | some (switched, vs) =>
      if switched && s.notReady then s.emit (.mgmt .notReady) else s.emit (.mgmt (.answer (vs.flatMap (leBytes 4)))))

/-! ## Firmware update (R382, R395) -/

/-- FW_VERIFY_COMPLETE: `bundle` has been sent to the inactive slot. A good one waits for activation; the recovery agent boots it at
once. -/
def execFwVerifyComplete (bundle : List Byte) (verdict : FwVerdict) (s : State) : Res :=
  if !s.mgmtUp then .refused .notDue
  else
    let slot := 1 - s.sec.active
    let code := s.checkBundle bundle verdict
    let s := { s.setBundle slot bundle with sec.staged := slot, sec.verified := code == 0, sec.activate := false }.settleHold
    let s := (s.putF F.GLB_FW_STAGED_STATE (if code = 0 then 2 else 0)).putF F.GLB_FW_STAGED_LAST_CODE code
    .next (if code ≠ 0 then s.emit (.mgmt .verifyFailed)
      else if !s.sec.recovery then s.mgmtFree
      else
        let s := { s.mgmtFree with sec.activate := true }.runBundle slot
        { s.putF F.GLB_BOOT_STATUS_STAGE 4 with pwr.starting := s.sec.autoStart && s.getF F.GLB_PROFILE_RETIRE == 0 })

/-- ACTIVATE_FIRMWARE (R56, R392, R395): activation runs at the next full Lull. -/
def execActivateFirmware (s : State) : Res :=
  if !s.mgmtUp || !s.sec.verified || s.sec.recovery then .refused .notDue
  else .next (if s.notReady then s.emit (.mgmt .notReady)
    else (({ s with sec.activate := true }.putF F.GLB_FW_STAGED_STATE 3).settleHold).mgmtFree)

/-- FIRMWARE_ACTIVATION (R395): the new bundle runs; key slots and tokens are kept. -/
def execFirmwareActivation (s : State) : Res :=
  if !s.sec.activate || !s.momentOk 1 then .refused .notDue
  else .next ((s.runBundle s.sec.staged).settleHold).showJobs

end Sys2Proof.Machine
end

