-- ==== Sys2Proof/Machine/Vector.lean ====
section
/-! DEFINITION. VOP (Tables TP-9 and VEC-1, R160 to R168). Each operation says what it makes of one row of FP32 words; reading,
delivering and the counters are shared. -/

namespace Sys2Proof.Machine

open Sys2Proof

/-! ## Fields -/

def vopOp (enc : BitVec 256) : Nat := fieldOf enc 1 1
def vopSrcFmt (enc : BitVec 256) : Nat := fieldOf enc 2 1 % 16
def vopDstFmt (enc : BitVec 256) : Nat := fieldOf enc 2 1 / 16
def vopModes (enc : BitVec 256) : Nat := fieldOf enc 3 1
def vopRows (enc : BitVec 256) : Nat := fieldOf enc 16 2
def vopCols (enc : BitVec 256) : Nat := fieldOf enc 18 2
def vopScalar (enc : BitVec 256) : Nat := fieldOf enc 28 4

/-- The shape of B (Table VEC-1). -/
inductive BShape where
  | none
  | row
  /-- Per row, so many FP32 words. -/
  | perRow (words : Nat)
  | perCol
  /-- SOFTMAX's statistics out, one word a row; 0xFFFF_FFFF for none. -/
  | out
  deriving DecidableEq, Repr

/-- Shape of B by operation. -/
def bShape (op : Nat) : BShape :=
  if 1 ≤ op && op ≤ 6 then .row
  else if op = 8 || op = 9 || op = 0x11 then .perRow 1
  else if op = 0xA || op = 0xB then .perCol
  else if op = 0xF then .perRow 3
  else if op = 0x10 then .out
  else .none

/-- Is an operation one of R161's row operations? -/
def isRowOp (op : Nat) : Bool := op == 0xC || op == 0xD || op == 0xE || op == 0x10 || op == 0x11

/-- FP32 words a row operation delivers for a row. -/
def rowOpWords (op cols : Nat) : Nat := if op = 0xC || op = 0xD then 1 else if op = 0xE then 3 else cols

def vopA (enc : BitVec 256) : Rows :=
  ⟨bit (vopModes enc) 3, fieldOf enc 4 4, vopRows enc, rowBytes (vopSrcFmt enc) (vopCols enc), fieldOf enc 20 4⟩

/-- B's rows; with no B, nothing. -/
def vopB (enc : BitVec 256) : Option Rows :=
  let acc := bit (vopModes enc) 4
  let addr := fieldOf enc 8 4
  match bShape (vopOp enc) with
  | .none => none
  | .row => some ⟨acc, addr, vopRows enc, rowBytes (vopSrcFmt enc) (vopCols enc), fieldOf enc 20 4⟩
  | .perRow n => some ⟨acc, addr, vopRows enc, 4 * n, 4 * n⟩
  | .perCol => some (rowOne acc addr (4 * vopCols enc))
  | .out => if addr = noSrc then none else some ⟨acc, addr, vopRows enc, 4, 4⟩

def vopD (enc : BitVec 256) : Rows :=
  let op := vopOp enc
  ⟨bit (vopModes enc) 5, fieldOf enc 12 4, vopRows enc,
    if isRowOp op then 4 * rowOpWords op (vopCols enc) else rowBytes (vopDstFmt enc) (vopCols enc), fieldOf enc 24 4⟩

/-- Do two operands meet, as whole ranges of the same store? -/
def Rows.overlaps (a b : Rows) : Bool := a.acc == b.acc && rangesMeet a.addr (a.stop - a.addr) b.addr (b.stop - b.addr)

/-! ## Legality and limits -/

def vopRow (enc : BitVec 256) : Nat := if fieldOf enc 0 1 = 5 && vopOp enc ≤ 0x11 then 0x500 + vopOp enc else 0

def vopLegal (enc : BitVec 256) : Bool :=
  let m := vopModes enc
  let op := vopOp enc
  let sf := vopSrcFmt enc
  let df := vopDstFmt enc
  fmtsOk [sf, df] && m / 64 == 0 && (roundingOf (m % 4)).isSome && 1 ≤ vopRows enc && 1 ≤ vopCols enc &&
    (!(bit m 3 || (bit m 4 && bShape op == .row)) || sf == 0) && (!bit m 5 || df == 0) &&
    (!(isBlockFmt sf || isBlockFmt df) || vopCols enc % 32 == 0) &&
    (!isRowOp op || (df == 0 && !(vopD enc).overlaps (vopA enc) &&
      match vopB enc with | some b => !(vopD enc).overlaps b | none => true)) &&
    (op != 0x10 || vopCols enc ≤ 16384)

def vopOperands (enc : BitVec 256) : List Rows := vopA enc :: vopD enc :: (vopB enc).toList

def vopJudge (enc : BitVec 256) (g : Program) : Judged := ⟨vopRow enc, vopLegal enc, g.overRows (vopOperands enc)⟩

/-- Operands read and written, for hazards: SOFTMAX writes B. -/
def vopReads (enc : BitVec 256) : List Rows := vopA enc :: if vopOp enc = 0x10 then [] else (vopB enc).toList
def vopWrites (enc : BitVec 256) : List Rows := vopD enc :: if vopOp enc = 0x10 then (vopB enc).toList else []

/-! ## Rows read and delivered -/

/-- Row `r` of A, or of a row-shaped B, widened into FP32 words, and its flags. -/
def State.vopIn (s : State) (p : Nat) (enc : BitVec 256) (x : Rows) (r : Nat) : List Nat × Flags :=
  widenRow (decodeRow (vopSrcFmt enc) (vopCols enc) (s.rowAt p x r))

/-- B's words for row `r`, and the flags of widening a row-shaped B. -/
def State.vopBIn (s : State) (p : Nat) (enc : BitVec 256) (r : Nat) : List Nat × Flags :=
  match vopB enc with
  | none => ([], 0)
  | some b =>
    match bShape (vopOp enc) with
    | .row => s.vopIn p enc b r
    | .perCol => (wordsOf (s.rowAt p b 0), 0)
    | _ => (wordsOf (s.rowAt p b r), 0)

/-- A result row delivered to DST_FMT (R160): FP32 as it is, anything else converted under the instruction's modes. -/
def State.vopOut (s : State) (p : Nat) (enc : BitVec 256) (ws : List Nat) (fl : Flags) : List Byte × State :=
  let s := s.addFlags p 1 fl
  if vopDstFmt enc = 0 then (ws.flatMap (leBytes 4), s)
  else
    let r := s.convRow p 0 (vopDstFmt enc) (vopModes enc % 4) (bits (vopModes enc) 2 2) (ws.map fp)
    (r.1.bytes, r.2.addDelivered p 1 r.1)

/-- Every row of an operation computed from rows read before any is written; `f` makes a result row of A's and B's words. -/
def State.vopRows (s : State) (p : Nat) (enc : BitVec 256) (f : List Nat → List Nat → List Nat × Flags) : List (List Byte) × State :=
  (List.range (Machine.vopRows enc)).foldl (fun a r =>
    let x := s.vopIn p enc (vopA enc) r
    let y := s.vopBIn p enc r
    let o := f x.1 y.1
    let w := a.2.vopOut p enc o.1 (o.2 ||| x.2 ||| y.2)
    (a.1 ++ [w.1], w.2)) ([], s)

/-- A VOP of `cost` cycles a row. -/
def State.vopBody (s : State) (p : Nat) (enc : BitVec 256) (cost : Nat) (f : List Nat → List Nat → List Nat × Flags) : TileRes :=
  if s.checkWait p (vopReads enc) (vopWrites enc) then .wait
  else
    let r := s.vopRows p enc f
    .done ((r.2.writeRows p (vopD enc) r.1).vecBusy p (Machine.vopRows enc * cost + 16))

/-- An element-wise VOP: ⌈COLS/128⌉ cycles a row. -/
def State.vopEach (s : State) (p : Nat) (enc : BitVec 256) (f : List Nat → List Nat → List Nat × Flags) : TileRes :=
  s.vopBody p enc (ceilDiv (vopCols enc) 128) f

/-- Two rows combined element by element. -/
def zipOp (op : Nat → Nat → Nat × Flags) (a b : List Nat) : List Nat × Flags := collect ((a.zip b).map fun (x, y) => op x y)

/-- A row and one word. -/
def withWord (op : Nat → Nat → Nat × Flags) (w : Nat) (a : List Nat) : List Nat × Flags := collect (a.map fun x => op x w)

/-- One word delivered for a row. -/
def oneWord (r : Nat × Flags) : List Nat × Flags := ([r.1], r.2)

/-- (a − mean) × rstd from a ROWSTAT record. -/
def normRow (rec : List Nat) (a : List Nat) : List Nat × Flags :=
  collect (a.map fun x =>
    let d := fpSub x (rec.getD 0 0)
    let q := fpMul d.1 (rec.getD 2 0)
    (q.1, q.2 ||| d.2))

/-! ## The operations -/

/-- COPY. -/
def execCopy (core : Nat) (enc : BitVec 256) (s : State) : Res :=
  s.issue core enc (.copy core enc) 0x500 (fun g _ => vopJudge enc g) fun _ _ => s.vopEach core enc fun a _ => collect (a.map fpCopy)

/-- ADD: a + b. -/
def execAdd (core : Nat) (enc : BitVec 256) (s : State) : Res :=
  s.issue core enc (.add core enc) 0x501 (fun g _ => vopJudge enc g) fun _ _ => s.vopEach core enc (zipOp fpAdd)

/-- SUB: a − b. -/
def execSub (core : Nat) (enc : BitVec 256) (s : State) : Res :=
  s.issue core enc (.sub core enc) 0x502 (fun g _ => vopJudge enc g) fun _ _ => s.vopEach core enc (zipOp fpSub)

/-- MUL: a × b. -/
def execMul (core : Nat) (enc : BitVec 256) (s : State) : Res :=
  s.issue core enc (.mul core enc) 0x503 (fun g _ => vopJudge enc g) fun _ _ => s.vopEach core enc (zipOp fpMul)

/-- AXPY: a × SCALAR + b, fused. -/
def execAxpy (core : Nat) (enc : BitVec 256) (s : State) : Res :=
  s.issue core enc (.axpy core enc) 0x504 (fun g _ => vopJudge enc g) fun _ _ =>
    s.vopEach core enc (zipOp fun a b => fpFma a (vopScalar enc) b)

/-- MAX. -/
def execMax (core : Nat) (enc : BitVec 256) (s : State) : Res :=
  s.issue core enc (.max core enc) 0x505 (fun g _ => vopJudge enc g) fun _ _ => s.vopEach core enc (zipOp fpMax)

/-- MIN. -/
def execMin (core : Nat) (enc : BitVec 256) (s : State) : Res :=
  s.issue core enc (.min core enc) 0x506 (fun g _ => vopJudge enc g) fun _ _ => s.vopEach core enc (zipOp fpMin)

/-- SCALE: a × SCALAR. -/
def execScale (core : Nat) (enc : BitVec 256) (s : State) : Res :=
  s.issue core enc (.scale core enc) 0x507 (fun g _ => vopJudge enc g) fun _ _ =>
    s.vopEach core enc fun a _ => withWord fpMul (vopScalar enc) a

/-- MUL_ROW: a × b_r. -/
def execMulRow (core : Nat) (enc : BitVec 256) (s : State) : Res :=
  s.issue core enc (.mulRow core enc) 0x508 (fun g _ => vopJudge enc g) fun _ _ =>
    s.vopEach core enc fun a b => withWord fpMul (b.headD 0) a

/-- ADD_ROW: a + b_r. -/
def execAddRow (core : Nat) (enc : BitVec 256) (s : State) : Res :=
  s.issue core enc (.addRow core enc) 0x509 (fun g _ => vopJudge enc g) fun _ _ =>
    s.vopEach core enc fun a b => withWord fpAdd (b.headD 0) a

/-- MUL_COL: a × b_c. -/
def execMulCol (core : Nat) (enc : BitVec 256) (s : State) : Res :=
  s.issue core enc (.mulCol core enc) 0x50A (fun g _ => vopJudge enc g) fun _ _ => s.vopEach core enc (zipOp fpMul)

/-- ADD_COL: a + b_c. -/
def execAddCol (core : Nat) (enc : BitVec 256) (s : State) : Res :=
  s.issue core enc (.addCol core enc) 0x50B (fun g _ => vopJudge enc g) fun _ _ => s.vopEach core enc (zipOp fpAdd)

/-- ROWSUM, in lane order. -/
def execRowsum (core : Nat) (enc : BitVec 256) (s : State) : Res :=
  s.issue core enc (.rowsum core enc) 0x50C (fun g _ => vopJudge enc g) fun _ _ =>
    s.vopBody core enc (ceilDiv (vopCols enc) 128 + 28) fun a _ => oneWord (rowSum a)

/-- ROWMAX. -/
def execRowmax (core : Nat) (enc : BitVec 256) (s : State) : Res :=
  s.issue core enc (.rowmax core enc) 0x50D (fun g _ => vopJudge enc g) fun _ _ =>
    s.vopBody core enc (ceilDiv (vopCols enc) 128 + 28) fun a _ => oneWord (rowMax a)

/-- ROWSTAT: mean, variance, rstd (R164). -/
def execRowstat (core : Nat) (enc : BitVec 256) (s : State) : Res :=
  s.issue core enc (.rowstat core enc) 0x50E (fun g _ => vopJudge enc g) fun _ _ =>
    s.vopBody core enc (2 * ceilDiv (vopCols enc) 128 + 40) fun a _ => rowStat (vopScalar enc) a

/-- NORM: (a − mean_r) × rstd_r. -/
def execNorm (core : Nat) (enc : BitVec 256) (s : State) : Res :=
  s.issue core enc (.norm core enc) 0x50F (fun g _ => vopJudge enc g) fun _ _ => s.vopEach core enc fun a b => normRow b a

/-! ## The soft maximum (R162, R165 to R168) -/

/-- SOFTMAX of row `r`: the row and its statistic. -/
def State.softRowAt (s : State) (p : Nat) (enc : BitVec 256) (r : Nat) : SoftRow :=
  let x := s.vopIn p enc (vopA enc) r
  let sc := withWord fpMul (vopScalar enc) x.1
  let o := softRow sc.1 (sc.2 ||| x.2)
  { o with vec := o.vec ||| sc.2 ||| x.2 }

/-- One row of SOFTMAX delivered: result, statistic, flags, the SOFTMAX_RANGE count and the cycles of a recomputation. -/
def State.softOut (s : State) (p : Nat) (enc : BitVec 256) (r : Nat) (o : SoftRow) : State :=
  let cols := vopCols enc
  let s := (s.addFlags p 1 o.vec).addFlags p 2 o.sfu
  let s := if o.range then s.addF (F.JOB_CORE_SOFTMAX_RANGE_COUNT p) 1 else s
  let s := if o.again then s.vecBusy p (ceilDiv cols 128 + 2 * ceilDiv cols 32 + 48) else s
  let d := vopD enc
  let s := s.setStore p d.acc (d.addr + r * d.stride) (o.out.flatMap (leBytes 4))
  match vopB enc with
  | some b => s.setStore p b.acc (b.addr + 4 * r) (leBytes 4 o.lse)
  | none => s

def State.softmaxBody (s : State) (p : Nat) (enc : BitVec 256) : TileRes :=
  if s.checkWait p (vopReads enc) (vopWrites enc) then .wait
  else
    let rows := (List.range (Machine.vopRows enc)).map (s.softRowAt p enc)
    let s := rows.zipIdx.foldl (fun s (o, r) => s.softOut p enc r o) s
    .done (s.vecBusy p (Machine.vopRows enc * (2 * ceilDiv (vopCols enc) 32 + 48) + 16))

/-- SOFTMAX (R166 to R168). -/
def execSoftmax (core : Nat) (enc : BitVec 256) (s : State) : Res :=
  s.issue core enc (.softmax core enc) 0x510 (fun g _ => vopJudge enc g) fun _ _ => s.softmaxBody core enc

/-- SOFTMAX_LSE of a row: words, vector flags, special-function flags. -/
def softLseRow (scalar lse : Nat) (a : List Nat) : List Nat × Flags × Flags :=
  let rs := a.map fun x =>
    let sc := fpMul x scalar
    let r := softLse sc.1 lse
    (r.1, r.2.1 ||| sc.2, r.2.2)
  (rs.map (·.1), rs.foldl (fun f r => f ||| r.2.1) 0, rs.foldl (fun f r => f ||| r.2.2) 0)

def State.softmaxLseBody (s : State) (p : Nat) (enc : BitVec 256) : TileRes :=
  if s.checkWait p (vopReads enc) (vopWrites enc) then .wait
  else
    let rows := (List.range (Machine.vopRows enc)).map fun r =>
      let x := s.vopIn p enc (vopA enc) r
      let o := softLseRow (vopScalar enc) ((s.vopBIn p enc r).1.headD 0) x.1
      (o.1.flatMap (leBytes 4), o.2.1 ||| x.2, o.2.2)
    let s := rows.foldl (fun s o => (s.addFlags p 1 o.2.1).addFlags p 2 o.2.2) s
    .done ((s.writeRows p (vopD enc) (rows.map (·.1))).vecBusy p (Machine.vopRows enc * (ceilDiv (vopCols enc) 32 + 16) + 16))

/-- SOFTMAX_LSE (R168). -/
def execSoftmaxLse (core : Nat) (enc : BitVec 256) (s : State) : Res :=
  s.issue core enc (.softmaxLse core enc) 0x511 (fun g _ => vopJudge enc g) fun _ _ => s.softmaxLseBody core enc

end Sys2Proof.Machine
end

