-- ==== Sys2Proof/Machine/Special.lean ====
section
/-! DEFINITION. SFU (Tables TP-10, VEC-3 to VEC-5; R169 to R171). -/

namespace Sys2Proof.Machine

open Sys2Proof

def sfuRow (enc : BitVec 256) : Nat := if fieldOf enc 0 1 = 6 && fieldOf enc 1 1 ≤ 0xA then 0x600 + fieldOf enc 1 1 else 0

/-- SINCOS_POS: NT, NH, NW. -/
def sincosAxes (enc : BitVec 256) : Nat × Nat × Nat := (fieldOf enc 20 1, fieldOf enc 21 1, fieldOf enc 22 1)
def sincosSum (enc : BitVec 256) : Nat := (sincosAxes enc).1 + (sincosAxes enc).2.1 + (sincosAxes enc).2.2

def sfuLegal (enc : BitVec 256) : Bool :=
  let fmt := fieldOf enc 2 1
  let m := fieldOf enc 3 1
  let a := sincosAxes enc
  fmt < 2 && m < 4 && 1 ≤ fieldOf enc 12 4 && fieldOf enc 12 4 ≤ 262144 && (!bit m 0 || fmt == 0) &&
    (if fieldOf enc 1 1 = 0xA then
      fmt == 0 && !bit m 0 && fieldOf enc 16 4 % 8 == 0 && a.1 ≤ 128 && a.2.1 ≤ 128 && a.2.2 ≤ 128 && 1 ≤ sincosSum enc &&
        fieldOf enc 23 1 == 0 && 8 * sincosSum enc ≤ fieldOf enc 24 4 && fieldOf enc 28 4 == 0
    else fieldOf enc 16 16 == 0)

/-- Operands: source, destination, and SINCOS_POS's frequencies. -/
def sfuSrc (enc : BitVec 256) : Rows :=
  rowOne (bit (fieldOf enc 3 1) 0) (fieldOf enc 4 4)
    (fieldOf enc 12 4 * (if fieldOf enc 1 1 = 0xA then 12 else if fieldOf enc 2 1 = 0 then 4 else 2))

def sfuDst (enc : BitVec 256) : Rows :=
  let acc := bit (fieldOf enc 3 1) 1
  if fieldOf enc 1 1 = 0xA then ⟨acc, fieldOf enc 8 4, fieldOf enc 12 4, 8 * sincosSum enc, fieldOf enc 24 4⟩
  else rowOne acc (fieldOf enc 8 4) (4 * fieldOf enc 12 4)

def sfuFreq (enc : BitVec 256) : List Rows :=
  if fieldOf enc 1 1 = 0xA then [rowOne false (fieldOf enc 16 4) (8 * sincosSum enc)] else []

def sfuJudge (enc : BitVec 256) (g : Program) : Judged :=
  ⟨sfuRow enc, sfuLegal enc, g.overRows (sfuSrc enc :: sfuDst enc :: sfuFreq enc)⟩

def State.sfuWait (s : State) (p : Nat) (enc : BitVec 256) : Bool := s.checkWait p (sfuSrc enc :: sfuFreq enc) [sfuDst enc]

/-- COUNT elements through one function. -/
def State.sfuBody (s : State) (p : Nat) (enc : BitVec 256) (f : Nat → Nat × Flags) : TileRes :=
  if s.sfuWait p enc then .wait
  else
    let src := sfuSrc enc
    let vs := decodeRow (fieldOf enc 2 1) (fieldOf enc 12 4) (s.rowAt p src 0)
    let r := collect (vs.map fun v => f (widenSource v).1)
    .done ((s.addFlags p 2 r.2).writeRows p (sfuDst enc) [r.1.flatMap (leBytes 4)])

/-- A function of Table VEC-3 by its code. -/
def sfuBy (fn w : Nat) : Nat × Flags := (sfuFn fn w).getD (0x7FC00000, flagNV)

/-- EXP. -/
def execExp (core : Nat) (enc : BitVec 256) (s : State) : Res :=
  s.issue core enc (.exp core enc) 0x600 (fun g _ => sfuJudge enc g) fun _ _ => s.sfuBody core enc (sfuBy 0)

/-- LOG. -/
def execLog (core : Nat) (enc : BitVec 256) (s : State) : Res :=
  s.issue core enc (.log core enc) 0x601 (fun g _ => sfuJudge enc g) fun _ _ => s.sfuBody core enc (sfuBy 1)

/-- RECIP. -/
def execRecip (core : Nat) (enc : BitVec 256) (s : State) : Res :=
  s.issue core enc (.recip core enc) 0x602 (fun g _ => sfuJudge enc g) fun _ _ => s.sfuBody core enc (sfuBy 2)

/-- RSQRT. -/
def execRsqrt (core : Nat) (enc : BitVec 256) (s : State) : Res :=
  s.issue core enc (.rsqrt core enc) 0x603 (fun g _ => sfuJudge enc g) fun _ _ => s.sfuBody core enc (sfuBy 3)

/-- SIGMOID. -/
def execSigmoid (core : Nat) (enc : BitVec 256) (s : State) : Res :=
  s.issue core enc (.sigmoid core enc) 0x604 (fun g _ => sfuJudge enc g) fun _ _ => s.sfuBody core enc (sfuBy 4)

/-- TANH. -/
def execTanh (core : Nat) (enc : BitVec 256) (s : State) : Res :=
  s.issue core enc (.tanh core enc) 0x605 (fun g _ => sfuJudge enc g) fun _ _ => s.sfuBody core enc (sfuBy 5)

/-- GELU. -/
def execGelu (core : Nat) (enc : BitVec 256) (s : State) : Res :=
  s.issue core enc (.gelu core enc) 0x606 (fun g _ => sfuJudge enc g) fun _ _ => s.sfuBody core enc (sfuBy 6)

/-- SILU. -/
def execSilu (core : Nat) (enc : BitVec 256) (s : State) : Res :=
  s.issue core enc (.silu core enc) 0x607 (fun g _ => sfuJudge enc g) fun _ _ => s.sfuBody core enc (sfuBy 7)

/-- SIN. -/
def execSin (core : Nat) (enc : BitVec 256) (s : State) : Res :=
  s.issue core enc (.sin core enc) 0x608 (fun g _ => sfuJudge enc g) fun _ _ => s.sfuBody core enc (sfuBy 8)

/-- COS. -/
def execCos (core : Nat) (enc : BitVec 256) (s : State) : Res :=
  s.issue core enc (.cos core enc) 0x609 (fun g _ => sfuJudge enc g) fun _ _ => s.sfuBody core enc (sfuBy 9)

/-- The outputs of one token: its positions t, h, w against the frequencies of their axes (R171). -/
def sincosToken (axes : Nat × Nat × Nat) (freqs : List Nat) (pos : List Nat) : List Nat × Flags :=
  let which (i : Nat) : Nat := if i < axes.1 then 0 else if i < axes.1 + axes.2.1 then 1 else 2
  collect (freqs.zipIdx.flatMap fun (f, i) =>
    let u := pos.getD (which i) 0 * f % 2 ^ 64
    [sincosTurn 0 u, sincosTurn 1 u])

def State.sincosBody (s : State) (p : Nat) (enc : BitVec 256) : TileRes :=
  if s.sfuWait p enc then .wait
  else
    let fb := s.scratch p (fieldOf enc 16 4) (8 * sincosSum enc)
    let freqs := (chunk 8 (sincosSum enc) fb).map leNat
    let toks := (chunk 12 (fieldOf enc 12 4) (s.rowAt p (sfuSrc enc) 0)).map fun t => sincosToken (sincosAxes enc) freqs (wordsOf t)
    let s := toks.foldl (fun s t => s.addFlags p 2 t.2) s
    .done (s.writeRows p (sfuDst enc) (toks.map fun t => t.1.flatMap (leBytes 4)))

/-- SINCOS_POS (R171). -/
def execSincosPos (core : Nat) (enc : BitVec 256) (s : State) : Res :=
  s.issue core enc (.sincosPos core enc) 0x60A (fun g _ => sfuJudge enc g) fun _ _ => s.sincosBody core enc

end Sys2Proof.Machine
end

