-- ==== Sys2Proof/Machine/Video.lean ====
section
/-! DEFINITION. The video commands and what the engines do (R312 to R332, 16_video_ingest.md). -/

namespace Sys2Proof.Machine

open Sys2Proof

/-! ## Memory as an engine reaches it -/

/-- Writes of the pieces of a range for a host command: journaled with no step where banking asks it (R299). -/
def loosePieces (ctx : Nat) : List (Nat × Nat) → List Byte → State → VWrite
  | [], _, s => .ok s
  | (va, n) :: t, bs, s =>
    match s.place ctx va with
    | .hbm a true =>
      match s.journalLoose a n with
      | none => .wait
      | some s => loosePieces ctx t (bs.drop n) (((s.touch a n true).setHbm a (bs.take n)).markCopies (a / pageBytes))
    | .llm k => loosePieces ctx t (bs.drop n) { s with mem.llm := storeSetRun zeroByte s.mem.llm k (bs.take n) }
    | .waiting => .wait
    | _ => .mapFault va

/-- A write by an engine for a unit of a step, or for a host's. -/
def State.engineWrite (s : State) (ctx : Nat) (uid : Option Nat) (va : Nat) (bs : List Byte) : VWrite :=
  match uid with
  | some u => s.vWrite ctx u va bs
  | none => loosePieces ctx (piecesOf va bs.length) bs s

/-- An engine's writes in order; `s0` is the state a unit that must wait is left in. What is no longer mapped is not written (log
entry 98). -/
def engineWrites (s0 : State) (cmd : Instr) (ctx : Nat) (uid : Option Nat) : List (Nat × List Byte) → State → (State → State) → State
  | [], s, k => k s
  | (va, bs) :: t, s, k =>
    match s.engineWrite ctx uid va bs with
    | .ok u => engineWrites s0 cmd ctx uid t u k
    | .wait => s0.hold cmd
    | .undoFull => match uid with | some j => s0.jobFault j Code.UNDO_FULL 0 0 0 | none => s0.hold cmd
    | .bankBad => match uid with | some j => s0.jobFault j Code.BANK_GROUP_BAD 0 0 0 | none => s0.hold cmd
    | _ => engineWrites s0 cmd ctx uid t s k

/-- A unit leaves its stream and is answered. -/
def State.unitDone (s : State) (slot : Nat) (u : VUnit) (code value : Nat) : State :=
  match s.streamAt slot with
  | none => s
  | some v =>
    let s := s.setStream { v with units := v.units.filter (·.arrived != u.arrived) }
    ({ s with vid.bands := s.vid.bands.filter fun b => b.2 != (slot, u.arrived) }.deliverVideo u.via code value).settleStream slot

/-- An engine's read; a unit whose bytes are not mapped ends with VIDEO_COMMAND_BAD (log entry 98). -/
def State.engineRead (s0 : State) (cmd : Instr) (v : Stream) (u : VUnit) (va n : Nat) (s : State) (k : List Byte → State → State) :
    State :=
  match s.vRead v.ctx va n with
  | .ok r => k r.1 r.2
  | .wait => s0.hold cmd
  | .poison a => match u.uid with
    | some j => s0.poisonRead cmd j (if v.engine < 14 then unitId 5 v.engine else unitId 6 (v.engine - 14)) a
    | none => (s0.countStall cmd).hold cmd
  | _ => s0.unitDone v.slot u Code.VIDEO_COMMAND_BAD 0

/-- Is a range in mapped allocations of PERSISTENT partitions, and for a host's stream outside BANKED ones (R316)? -/
def State.regionOk (s : State) (ctx : Nat) (host : Bool) (va n : Nat) : Bool :=
  (piecesOf va n).all fun p => match s.place ctx p.1 with
    | .hbm a true => match s.partitionOfPage (a / pageBytes) with
      | some (_, q) => q.persistent && !(host && q.banked)
      | none => false
    | _ => false

/-! ## Sizes (R321, R326, R330) -/

/-- Bytes of a sample and of a plane row of `w` samples. -/
def sampleBytes (v : Stream) : Nat := if leAt v.desc 0x0D 1 = 10 then 2 else 1
def planeRow (v : Stream) (w : Nat) : Nat := ceilDiv (w * sampleBytes v) 64 * 64

/-- Bytes of a picture in memory (R321). -/
def pictureBytes (v : Stream) (w h : Nat) : Nat := h * planeRow v w + 2 * (ceilDiv h 2 * planeRow v (ceilDiv w 2))

/-- Bytes of a pool buffer (R326), and of the pool. -/
def bufferBytes (w h : Nat) : Nat := ceilDiv (ceilDiv w 16 * ceilDiv h 8 * 257) pageBytes * pageBytes
def Stream.poolBytes (v : Stream) : Nat := v.poolCount * bufferBytes v.width v.height

/-- Pieces of a pool write that lie in the pool. -/
def Stream.poolPieces (v : Stream) (ps : List (Nat × List Byte)) : List (Nat × List Byte) :=
  ps.filterMap fun p => if p.1 < v.poolBytes then some (v.pool + p.1, p.2.take (v.poolBytes - p.1)) else none

def stateBytes : Nat := 65536

/-- Ingest parameters (Table VID-9). -/
def Stream.param (v : Stream) (off n : Nat) : Nat := leAt v.desc (0x30 + off) n
def elemSize (v : Stream) : Nat := match v.param 8 1 with | 0 => 4 | 1 => 2 | _ => 1
def tokenBytes (v : Stream) : Nat := v.param 4 1 * v.param 5 1 * v.param 6 1 * 3 * elemSize v
def rowTable : Nat := 131072
def rowSize (v : Stream) : Nat := rowTable + v.param 0x24 4 * tokenBytes v

/-! ## Descriptors (Tables VID-4, VID-6, VID-9) -/

def zeroAt (d : List Byte) (off n : Nat) : Bool := leAt d off n == 0

/-- Encode parameters within Table VID-6; the maxima of level 6.1, Main tier, are the codecs' (log entry 97). -/
def encodeParamsOk (d : List Byte) : Bool :=
  let p (off n : Nat) : Nat := leAt d (0x30 + off) n
  let rate := p 0 4
  let qmax := if leAt d 3 1 = 0 then 255 else 51
  100 ≤ rate && rate ≤ (if leAt d 3 1 = 0 then 100000 else 120000) && leAt d 4 2 * leAt d 6 2 ≤ 35651584 &&
    p 8 4 * rate ≤ p 4 4 * 90 && 1 ≤ p 0x0C 2 && 1 ≤ p 0x0E 2 && p 0x10 1 ≤ 1 && 1 ≤ p 0x11 1 && p 0x11 1 ≤ 16 &&
    p 0x14 1 ≤ p 0x15 1 && p 0x15 1 ≤ qmax && 1 ≤ p 0x16 1 && p 0x16 1 ≤ 4 && p 0x16 1 + 1 ≤ leAt d 0x0C 1 && zeroAt d 0x47 41

/-- Ingest parameters within Table VID-9. -/
def ingestParamsOk (d : List Byte) : Bool :=
  let v : Stream := ⟨0, 0, 0, d, true, [], none, 0, 0, none, 0, 0, 0, [], [], [], none, none⟩
  let p (off n : Nat) : Nat := leAt d (0x30 + off) n
  1 ≤ p 4 1 && p 4 1 ≤ 8 && 2 ≤ p 5 1 && p 5 1 ≤ 32 && 2 ≤ p 6 1 && p 6 1 ≤ 32 && 1 ≤ p 7 1 && p 7 1 ≤ 16 &&
    p 0 2 ≤ 8192 && p 0 2 % p 6 1 == 0 && p 2 2 ≤ 8192 && p 2 2 % p 5 1 == 0 && p 8 1 ≤ 2 && p 9 1 ≤ 3 && p 0x0A 2 == 0 &&
    ([0x18, 0x1C, 0x20].all fun o => 0 < p o 4 && p o 4 ≤ 0x7F800000) && 1 ≤ p 0x24 4 && p 0x24 4 ≤ 1048576 &&
    1 ≤ p 0x30 2 && p 0x30 2 ≤ 64 && p 0x32 2 == 0 && rowSize v ≤ p 0x34 4 && p 0x38 8 == 0

/-- A stream descriptor within Table VID-4. -/
def descriptorOk (d : List Byte) : Bool :=
  let kind := leAt d 2 1
  let ringBytes := leAt d 0x28 4
  let size (n lim : Nat) : Bool := 16 ≤ n && n ≤ lim && n % 2 == 0
  leAt d 0 2 == 1 && kind ≤ 2 && leAt d 3 1 ≤ 1 && leAt d 0x0E 2 < 4 && (!bit (leAt d 0x0E 2) 0 || (kind == 0 && leAt d 3 1 == 0)) &&
    leAt d 0x10 8 % 4096 == 0 && zeroAt d 0x2C 4 && zeroAt d 0x70 16 &&
    (if kind = 2 then zeroAt d 3 1 && zeroAt d 8 4 && zeroAt d 0x0C 1 && zeroAt d 0x0D 1 && zeroAt d 0x18 8 && ingestParamsOk d
     else size (leAt d 4 2) 8192 && size (leAt d 6 2) 4352 && 1 ≤ leAt d 0x0C 1 && leAt d 0x0C 1 ≤ 16 &&
       (leAt d 0x0D 1 == 8 || leAt d 0x0D 1 == 10) && (if kind = 1 then encodeParamsOk d else zeroAt d 0x30 64)) &&
    (if kind = 0 then zeroAt d 0x20 8
     else leAt d 0x20 8 % 4096 == 0 && ((List.range 31).any fun i => 16 ≤ i && ringBytes == 2 ^ i))

/-! ## Commands (Tables VID-2 and VID-3) -/

/-- A video command answered at once. -/
def State.videoAnswer (s : State) (q : PortCmd) (code value : Nat) : State := (s.taken q).deliverVideo q.via code value

/-- Form of a command: reserved fields, and those zero but for some OPs. -/
def videoForm (q : PortCmd) : Bool :=
  opKnown .video q.op && q.at 1 1 < 4 && q.at 2 2 == 0 && (q.op == 3 || (q.at 16 8 == 0 && q.at 24 4 == 0)) &&
    (q.op == 4 || q.at 28 4 == 0)

/-- The stream a command names, where its context opened it. -/
def State.videoStream (s : State) (q : PortCmd) : Option Stream := (s.streamAt (q.at 4 4)).filter fun v => v.ctx == q.ctx

/-- A row of video commands; one in no form, or with an OP the table does not have, is refused by whichever row takes it. -/
def State.videoRow (s : State) (via : Via) (mine : PortCmd → Bool) (body : PortCmd → State) : Res :=
  match s.portCmd .video via with
  | none => .refused .notDue
  | some q =>
    if opKnown .video q.op && !mine q then .refused .otherRow
    else .next (if videoForm q then body q else s.videoAnswer q Code.VIDEO_COMMAND_BAD 0)

/-- The open stream of some kinds that a command acts on; a STOPPED one answers its code. -/
def State.onStream (s : State) (q : PortCmd) (kind : Nat) (k : Stream → State) : State :=
  match s.videoStream q with
  | none => s.videoAnswer q Code.VIDEO_COMMAND_BAD 0
  | some v =>
    if v.stop ≠ 0 then s.videoAnswer q v.stop 0
    else if v.kind ≠ kind || v.closing.isSome then s.videoAnswer q Code.VIDEO_COMMAND_BAD 0
    else k v

/-- The engine an OPEN is assigned to (R313). -/
def State.engineFor (s : State) (d : List Byte) (slot : Nat) : Option Nat :=
  if leAt d 2 1 = 2 then some (14 + slot % 2)
  else (s.enginesOf (leAt d 2 1)).find? fun e => s.committed e + leAt d 8 4 ≤ engineBudget e

/-- Do STATE, POOL and the row buffers of a descriptor lie where R316 asks? -/
def State.regionsOk (s : State) (ctx : Nat) (host : Bool) (v : Stream) : Bool :=
  s.regionOk ctx host v.state stateBytes &&
    (if v.kind = 2 then (List.range (v.param 0x30 2)).all fun i => s.regionOk ctx host (v.param 0x28 8 + i * v.param 0x34 4) (rowSize v)
     else s.regionOk ctx host v.pool v.poolBytes)

/-- A stream that an OPEN makes. -/
def State.openStream (s : State) (q : PortCmd) (slot e : Nat) (d : List Byte) : State :=
  let v : Stream := ⟨slot, q.ctx, e, d, !bit (leAt d 0x0E 2) 1, [], none, 0, 0, none, 0, 0, 0, [], [], [], q.uid, none⟩
  let s := { s with vid.streams := s.vid.streams ++ [v] }.showEngine e
  let s := (((s.setReg (R.VID_STR_STATUS slot) 0).putF (F.VID_STR_STATUS_STATE slot) 1).putF (F.VID_STR_STATUS_KIND slot) v.kind).putF
    (F.VID_STR_STATUS_ENGINE slot) e
  let s := (s.putF (F.VID_STR_STATUS_CONTEXT slot) q.ctx).putF (F.VID_STR_UNITS_COUNT slot) 0
  let s := ((s.putF (F.VID_STR_OUT_WR_BYTES slot) 0).putF (F.VID_STR_OUT_RD_BYTES slot) 0).putF (F.VID_STR_EMERGENCY_COUNT slot) 0
  (s.setReg (R.VID_STR_DAMAGE_OFFSET slot) 0).setReg (R.VID_STR_DAMAGE_FRAME slot) 0

/-- May a context open streams (Table SI-6 VIDEO)? -/
def State.mayVideo (s : State) (ctx : Nat) : Bool :=
  match s.template (s.getF (F.JOB_CTX_STATE_TEMPLATE ctx)) with
  | some t => bit (leAt t 3 1) 2
  | none => false

/-- VIDEO_OPEN (R313, R316, R323). -/
def execVideoOpen (via : Via) (s : State) : Res :=
  s.videoRow via (·.op == 1) fun q =>
    if !s.mayVideo q.ctx then s.videoAnswer q Code.NOT_AUTHORIZED 0
    else match s.vRead q.ctx (q.at 8 8) 128 with
      | .ok (d, t) =>
        let v : Stream := ⟨0, q.ctx, 0, d, true, [], none, 0, 0, none, 0, 0, 0, [], [], [], none, none⟩
        if q.at 8 8 % 64 ≠ 0 || !descriptorOk d || !t.regionsOk q.ctx q.cell.isNone v then t.videoAnswer q Code.VIDEO_COMMAND_BAD 0
        else
          match (List.range 64).find? fun i => (t.streamAt i).isNone with
          | none => t.videoAnswer q Code.VIDEO_BUSY 0
          | some slot =>
            match t.engineFor d slot with
            | none => t.videoAnswer q Code.VIDEO_BUSY 0
            | some e => (t.openStream q slot e d).videoAnswer q Code.OK slot
      | .wait => s.hold (.videoOpen via)
      | .poison _ => (s.countStall (.videoOpen via)).hold (.videoOpen via)
      | _ => s.videoAnswer q Code.VIDEO_COMMAND_BAD 0

/-- VIDEO_CLOSE: a STOPPED stream closes at once, another once its units are done. -/
def execVideoClose (via : Via) (s : State) : Res :=
  s.videoRow via (·.op == 2) fun q =>
    match s.videoStream q with
    | none => s.videoAnswer q Code.VIDEO_COMMAND_BAD 0
    | some v =>
      if v.closing.isSome then s.videoAnswer q Code.VIDEO_COMMAND_BAD 0
      else if v.stop ≠ 0 then (s.freeStream v.slot).videoAnswer q Code.OK 0
      else ((s.taken q).setStream { v with closing := some q.via }).settleStream v.slot

/-- What a step may change of a stream kept before its first unit. -/
def Stream.keep (v : Stream) (uid : Option Nat) : Stream :=
  match uid with
  | none => v
  | some u =>
    match v.saved with
    | some x => if x.uid = u then v else { v with saved := some ⟨u, v.fresh, v.stop, v.pictures, v.openRow, v.lastRow, v.rowTokens, v.rowSegs, v.busyRows⟩ }
    | none => { v with saved := some ⟨u, v.fresh, v.stop, v.pictures, v.openRow, v.lastRow, v.rowTokens, v.rowSegs, v.busyRows⟩ }

/-- A unit put at the end of its stream. -/
def State.addUnit (s : State) (q : PortCmd) (v : Stream) (u : VUnit) : State :=
  let m := s.stepMark q.uid
  let u := { u with uid := q.uid, step := m.1, replayed := m.2, via := q.via, arrived := s.vid.clock }
  let s := (s.taken q).setStream { v.keep q.uid with units := v.units ++ [u] }
  { s with vid.clock := s.vid.clock + 1 }

/-- A unit of a kind and an address; the rest is filled in by `addUnit`. -/
def blankUnit (kind addr : Nat) : VUnit := ⟨kind, .host 0, addr, 0, 0, none, 0, false, 0, 0, false, 0, [], 0, false, false, [], false⟩

/-- Is a SUBMIT for an encode stream? -/
def State.submitsEncode (s : State) (q : PortCmd) : Bool := match s.videoStream q with | some v => v.kind == 1 | none => false

/-- DECODE_SUBMIT (R320, R321). -/
def execDecodeSubmit (via : Via) (s : State) : Res :=
  s.videoRow via (fun q => q.op == 3 && !s.submitsEncode q) fun q =>
    s.onStream q 0 fun v =>
      s.addUnit q v { blankUnit 0 (q.at 8 8) with addr2 := q.at 16 8, length := q.at 24 4 }

/-- ENCODE_SUBMIT (R321, R324). -/
def execEncodeSubmit (via : Via) (s : State) : Res :=
  s.videoRow via (fun q => q.op == 3 && s.submitsEncode q) fun q =>
    s.onStream q 1 fun v =>
      if q.at 16 8 ≠ 0 || q.at 24 4 ≠ 0 then s.videoAnswer q Code.VIDEO_COMMAND_BAD 0
      else
        s.addUnit q { v.keep q.uid with pictures := v.pictures + 1 }
          { blankUnit 1 (q.at 8 8) with picture := v.pictures, key := bit (q.at 1 1) 1 }

/-! ## Encoding (R324, R325) -/

def recordFlags (last emergency replayed : Bool) : Nat :=
  (if last then 1 else 0) + (if emergency then 2 else 0) + (if replayed then 4 else 0)

/-- STATE and the pool as an engine reads them; nothing where no unit has completed. -/
def State.readStream (s0 : State) (cmd : Instr) (v : Stream) (u : VUnit) (s : State) (k : List Byte → List Byte → State → State) :
    State :=
  if v.fresh then k [] [] s
  else s0.engineRead cmd v u v.state stateBytes s fun st s => s0.engineRead cmd v u v.pool v.poolBytes s fun pool s => k st pool s

/-- The headers of the head picture written as a record; `k` goes on once they are. -/
def State.emitHeaders (s : State) (cmd : Instr) (v : Stream) (u : VUnit) (k : Stream → VUnit → State → State) : State :=
  if u.headers then k v u s
  else
    s.readStream cmd v u s fun st _ t =>
      let bs := Config.encodeHeaders v.desc st u.picture u.key
      let w := t.writeRecord v u.uid u.step
        (recordHead v.slot 1 0 u.step (recordFlags false u.emergency u.replayed) u.picture bs.length 0) bs
      if w.2 then
        let u := { u with headers := true }
        let v := { v with units := u :: v.units.drop 1 }
        k v u (w.1.setStream v)
      else w.1.hold cmd

/-- The oldest picture of a stream whose rows have not all been declared (log entry 99). -/
def Stream.advancing (v : Stream) : Option VUnit := v.units.find? fun u => u.rows < v.height

/-- ADVANCE (R324): rows declared present; the headers of a picture that heads its stream go out at its first ADVANCE if the ring has
room. -/
def execAdvance (via : Via) (s : State) : Res :=
  s.videoRow via (·.op == 4) fun q =>
    s.onStream q 1 fun v =>
      match v.advancing with
      | none => s.videoAnswer q Code.VIDEO_COMMAND_BAD 0
      | some u =>
        if q.at 28 4 ≤ u.rows || v.height < q.at 28 4 then s.videoAnswer q Code.VIDEO_COMMAND_BAD 0
        else
          let v := { v with units := v.units.map fun x => if x.arrived == u.arrived then { x with rows := q.at 28 4 } else x }
          let s := (s.setStream v).videoAnswer q Code.OK 0
          match v.units with
          | h :: _ =>
            if h.arrived = u.arrived && !h.headers then
              let t := s.emitHeaders (.sliceEmit v.slot) v h fun _ _ t => t
              { t with held := s.held }
            else s
          | [] => s

/-- Bands of a picture, and the last band a slice needs. -/
def Stream.bandCount (v : Stream) : Nat := ceilDiv v.height 64
def Stream.sliceEnd (v : Stream) (k : Nat) : Nat := min v.bandCount ((k + 1) * v.param 0x11 1)

/-- SLICE_EMIT (R324, R325, R327): the next slice or tile group of the head picture, once its bands are coded. -/
def execSliceEmit (stream : Nat) (s : State) : Res :=
  whenPart (stream < 64) <|
    match s.streamAt stream with
    | none => .refused .notDue
    | some v =>
      match v.units with
      | [] => .refused .notDue
      | u :: _ =>
        if u.kind ≠ 1 || v.stop ≠ 0 || u.bands.length < v.sliceEnd u.slices then .refused .notDue
        else
          let cmd : Instr := .sliceEmit stream
          .next (s.emitHeaders cmd v u fun v u s =>
            s.readStream cmd v u s fun st pool t =>
              let out := Config.encodeSlice v.desc st pool (u.bands.take (v.sliceEnd u.slices)) u.picture u.key u.slices
              let last : Bool := v.sliceEnd u.slices == v.bandCount
              let emergency : Bool := u.emergency || out.emergency
              let w := t.writeRecord v u.uid u.step
                (recordHead stream 1 0 u.step (recordFlags last emergency u.replayed) u.picture out.bytes.length u.slices) out.bytes
              let count (s : State) : State :=
                if out.emergency && !u.emergency then
                  ((s.addF (F.VID_STR_EMERGENCY_COUNT stream) 1).addSatF F.VID_EMERGENCY_COUNT 1).raise 6
                else s
              if !w.2 then w.1.hold cmd
              else if !last then
                let u := { u with slices := u.slices + 1, emergency := emergency }
                count (w.1.setStream { v with units := u :: v.units.drop 1 })
              else
                let fin := Config.encodeEnd v.desc st pool u.bands u.picture u.key
                engineWrites s cmd v.ctx u.uid
                  ((v.state, (List.range stateBytes).map fin.state) :: v.poolPieces fin.pool) w.1 fun s =>
                    ((count (s.setStream { v with fresh := false })).addF (F.VID_STR_UNITS_COUNT stream) 1).unitDone stream u
                      Code.OK u.picture)

/-! ## Bands (R314) -/

/-- The order R314 gives a unit: decode and encode streams by class, ingest decoding last, then by arrival. -/
def State.bandKey (s : State) (v : Stream) (u : VUnit) : Nat × Nat :=
  ((if v.kind = 2 then 2 else 0) + (if s.ctxClass v.ctx = 1 then 0 else 1), u.arrived)

/-- Units whose next band an engine may take. -/
def State.bandUnits (s : State) (e : Nat) : List (Stream × VUnit) :=
  s.vid.streams.flatMap fun v =>
    if v.stop ≠ 0 then []
    else if v.kind = 2 then
      (if e < 9 && (s.enginesOf 0).contains e then
        (v.units.filter fun u => !s.vid.bands.any fun b => b.2 == (v.slot, u.arrived) && b.1 != e).map fun u => (v, u)
      else [])
    else if v.engine = e then
      match v.units with
      | u :: _ =>
        if v.kind = 1 && (v.bandCount ≤ u.bands.length || u.rows < min v.height (64 * (u.bands.length + 1))) then [] else [(v, u)]
      | [] => []
    else []

/-- The samples of a band of the picture at `addr` read, plane by plane. -/
def State.readBand (s0 : State) (cmd : Instr) (v : Stream) (u : VUnit) (b : Nat) (s : State) (k : List Byte → State → State) : State :=
  let h := v.height
  let ch := ceilDiv h 2
  let yr := planeRow v v.width
  let cr := planeRow v (ceilDiv v.width 2)
  let c0 := u.addr + h * yr
  s0.engineRead cmd v u (u.addr + 64 * b * yr) ((min h (64 * b + 64) - 64 * b) * yr) s fun y s =>
    s0.engineRead cmd v u (c0 + 32 * b * cr) ((min ch (32 * b + 32) - 32 * b) * cr) s fun cb s =>
      s0.engineRead cmd v u (c0 + ch * cr + 32 * b * cr) ((min ch (32 * b + 32) - 32 * b) * cr) s fun cc s => k (y ++ cb ++ cc) s

/-- BAND_SELECT (R314): the engine's next band. -/
def execBandSelect (engine : Nat) (s : State) : Res :=
  whenPart (engine < 14) <|
    match s.bandUnits engine with
    | [] => .refused .notDue
    | x :: t =>
      let before (a b : Stream × VUnit) : Bool :=
        let p := s.bandKey a.1 a.2
        let q := s.bandKey b.1 b.2
        p.1 < q.1 || (p.1 == q.1 && p.2 < q.2)
      let best := t.foldl (fun a y => if before y a then y else a) x
      let v := best.1
      let u := best.2
      let s0 := s
      let take (s : State) : State :=
        { s with vid.bands := s.vid.bands.filter (·.1 != engine) ++ [(engine, v.slot, u.arrived)] }
      .next (if v.kind = 1 then
          s0.readBand (.bandSelect engine) v u u.bands.length s fun bs s =>
            take (s.setStream { v with units := { u with bands := u.bands ++ [bs] } :: v.units.drop 1 })
        else take s)

/-! ## Decoding (R320 to R322) -/

/-- Has an engine taken a unit? -/
def State.unitTaken (s : State) (slot : Nat) (u : VUnit) : Bool := s.vid.bands.any fun b => b.2 == (slot, u.arrived)

/-- A unit that stops its stream: it returns the code and a value, the others the code. -/
def State.stopUnit (s : State) (v : Stream) (u : VUnit) (code value : Nat) : State :=
  let s := (s.setStream { v with units := v.units.drop 1 }).deliverVideo u.via code value
  (s.stopStream v.slot code).settleStream v.slot

/-- DECODE_UNIT_COMPLETE (R320 to R322): the unit at the head of a decode stream. -/
def execDecodeUnitComplete (stream : Nat) (s : State) : Res :=
  whenPart (stream < 64) <|
    match s.streamAt stream with
    | none => .refused .notDue
    | some v =>
      match v.units with
      | [] => .refused .notDue
      | u :: _ =>
        if u.kind ≠ 0 || v.stop ≠ 0 || !s.unitTaken stream u then .refused .notDue
        else
          let cmd : Instr := .decodeUnitComplete stream
          .next (s.readStream cmd v u s fun st pool t => s.engineRead cmd v u u.addr u.length t fun bs t =>
            let out := Config.decodeUnit v.desc st pool bs
            let ovr : Bool := match out.header with
              | some (w, h, dpb) => v.width < w || v.height < h || v.poolCount < (if v.codec = 0 then 9 else dpb + 2)
              | none => false
            if out.unsupported then t.stopUnit v u Code.UNSUPPORTED_TOOL 0
            else if ovr then t.stopUnit v u Code.DIM_LIMIT 0
            else match out.damaged with
              | some (off, n) =>
                let frame := s.getF (F.VID_STR_UNITS_COUNT stream)
                let f := t.freeBytes (min n (pictureBytes v v.width v.height))
                engineWrites s cmd v.ctx u.uid [(u.addr2, f.1)] f.2 fun t =>
                  let t := (t.putF (F.VID_STR_DAMAGE_OFFSET_VALUE stream) off).putF (F.VID_STR_DAMAGE_FRAME_VALUE stream) frame
                  (t.addSatF F.VID_DAMAGED_COUNT 1).stopUnit v u Code.STREAM_DAMAGED (off % 2 ^ 32 + frame * 2 ^ 32)
              | none =>
                let pic := match out.picture with
                  | some (_, w, h, px) => [(u.addr2, (List.range (pictureBytes v (min w v.width) (min h v.height))).map px)]
                  | none => []
                let value := match out.picture with | some (i, _) => i % 2 ^ 32 | none => 0xFFFFFFFF
                engineWrites s cmd v.ctx u.uid (pic ++ (v.state, (List.range stateBytes).map out.state) :: v.poolPieces out.pool) t
                  fun t => ((t.setStream { v with fresh := false }).addF (F.VID_STR_UNITS_COUNT stream) 1).unitDone stream u Code.OK value)

/-! ## Ingest (R328 to R331) -/

/-- T, H and W of a sample's tokens (R330). -/
def tokenDims (v : Stream) (sample : List Byte) : Nat × Nat × Nat × Nat :=
  let f := ceilDiv (leAt sample 0x18 4) (v.param 7 1)
  (f, ceilDiv f (v.param 4 1), v.param 2 2 / v.param 5 1, v.param 0 2 / v.param 6 1)

def tokenCount (v : Stream) (sample : List Byte) : Nat :=
  let d := tokenDims v sample
  d.2.1 * d.2.2.1 * d.2.2.2

/-- Bytes of a sample: a LENGTH of 0 means 4 GiB. -/
def sampleLength (sample : List Byte) : Nat := if leAt sample 0x14 4 = 0 then 2 ^ 32 else leAt sample 0x14 4

/-- The tier-3 object a sample's source names, where the caller may read it. -/
def State.sampleObj (s : State) (ctx handle : Nat) : Option TierObj :=
  (s.obj (handle % 2 ^ 40)).filter fun o => o.tier == 3 && handle / 2 ^ 62 == 3 && bits handle 61 48 == s.gen o.slot &&
    !o.leaving && !o.dying && o.resid != .lost && (o.owner == ctx || o.shared)

/-- A sample's bytes read. -/
def State.readSample (s0 : State) (cmd : Instr) (v : Stream) (u : VUnit) (s : State) (k : List Byte → State → State) : State :=
  let n := sampleLength u.sample
  if u.fromTier then
    match s.sampleObj v.ctx (leAt u.sample 8 8) with
    | some o =>
      let off := leAt u.sample 0x10 4
      if off + n ≤ o.units * pageBytes then k (storeGetRun zeroByte o.data off n) s
      else s0.unitDone v.slot u Code.VIDEO_COMMAND_BAD 0
    | none => s0.unitDone v.slot u Code.VIDEO_COMMAND_BAD 0
  else s0.engineRead cmd v u (leAt u.sample 8 8) n s k

/-- A sample that fails: its record, once the ring has room (R329). -/
def State.failSample (s : State) (cmd : Instr) (v : Stream) (u : VUnit) (code : Nat) : State :=
  let w := s.writeRecord v u.uid u.step
    (recordHead v.slot 3 code u.step (recordFlags false false u.replayed) 0 0 (leAt u.sample 0 8)) []
  if !w.2 then w.1.hold cmd
  else
    let s := if code = Code.STREAM_DAMAGED then w.1.addSatF F.VID_DAMAGED_COUNT 1 else w.1
    s.unitDone v.slot u Code.OK (leAt u.sample 0 8)

/-- INGEST (R315, R328): a sample that fails a check leaves a record; another is queued. -/
def execIngest (via : Via) (s : State) : Res :=
  s.videoRow via (·.op == 5) fun q =>
    s.onStream q 2 fun v =>
      match s.vRead q.ctx (q.at 8 8) 32 with
      | .ok (d, t) =>
        if leAt d 0x18 4 = 0 || 1 < leAt d 0x1C 1 || leAt d 0x1D 3 ≠ 0 then t.videoAnswer q Code.VIDEO_COMMAND_BAD 0
        else
          let u : VUnit := { blankUnit 2 (q.at 8 8) with sample := d, fromTier := bit (q.at 1 1) 0 }
          let v := match q.uid with
            | some j => { v with fed := if v.fed.contains j then v.fed else v.fed ++ [j] }
            | none => v
          let a := t.addUnit q v u
          match a.streamAt v.slot with
          | none => a
          | some v =>
            match v.units.getLast? with
            | none => a
            | some u =>
              let r := a.readSample (.ingest via) v u a fun bs a =>
                let h := Config.sampleHead (leAt d 0x1C 1) bs
                let code :=
                  if 8192 < h.width || 8192 < h.height || 65535 < leAt d 0x18 4 || v.param 0x24 4 < tokenCount v d then Code.DIM_LIMIT
                  else if !h.supported then Code.UNSUPPORTED_TOOL
                  else 0
                if code = 0 then a else a.failSample (.ingest via) v u code
              -- a command that must wait has not been taken
              if a.held.length < r.held.length then { r with vid := s.vid, hostCmds := s.hostCmds } else r
      | .wait => s.hold (.ingest via)
      | .poison _ => (s.countStall (.ingest via)).hold (.ingest via)
      | _ => s.videoAnswer q Code.VIDEO_COMMAND_BAD 0

/-- The next free row of a stream after the last one started. -/
def Stream.nextRow (v : Stream) : Option Nat :=
  let n := v.param 0x30 2
  ((List.range n).map fun i => (v.lastRow + i) % n).find? fun r => !v.busyRows.contains r && v.openRow != some r

/-- A segment mark (Table VID-12). -/
def segmentMark (v : Stream) (sample : List Byte) (first : Nat) : List Byte :=
  let d := tokenDims v sample
  leBytes 8 (leAt sample 0 8) ++ leBytes 4 first ++ leBytes 4 (tokenCount v sample) ++ leBytes 2 d.2.1 ++ leBytes 2 d.2.2.1 ++
    leBytes 2 d.2.2.2 ++ leBytes 2 d.1 ++ leBytes 8 0

/-- A sample packed into the open row, or into a row that starts with it (R331). -/
def State.packSample (s0 : State) (cmd : Instr) (v : Stream) (u : VUnit) (out : SampleOut) (s : State) : State :=
  let n := tokenCount v u.sample
  let row := match v.openRow with | some r => some (r, false) | none => v.nextRow.map fun r => (r, true)
  match row with
  | none => s0.hold cmd
  | some (r, start) =>
    let base := v.param 0x28 8 + r * v.param 0x34 4
    let clear := if start then [(base, List.replicate rowTable (0 : Byte))] else []
    let ws := clear ++ [(base + 32 * v.rowSegs, segmentMark v u.sample v.rowTokens),
      (base + rowTable + v.rowTokens * tokenBytes v, (List.range (n * tokenBytes v)).map out.tokens),
      (v.state, (List.range stateBytes).map out.state)]
    engineWrites s0 cmd v.ctx u.uid ws s fun s =>
      let v := { v with openRow := some r, lastRow := if start then (r + 1) % v.param 0x30 2 else v.lastRow,
                        rowTokens := v.rowTokens + n, rowSegs := v.rowSegs + 1, fresh := false }
      ((s.setStream v).addF (F.VID_STR_UNITS_COUNT v.slot) 1).unitDone v.slot u Code.OK (leAt u.sample 0 8)

/-- SAMPLE_COMPLETE (R329, R331): `index` says which of the stream's samples; samples complete in any order. -/
def execSampleComplete (stream index : Nat) (s : State) : Res :=
  whenPart (stream < 64) <|
    match s.streamAt stream with
    | none => .refused .notDue
    | some v =>
      match v.units[index]? with
      | none => .refused .notDue
      | some u =>
        if u.kind ≠ 2 || v.stop ≠ 0 || !s.unitTaken stream u then .refused .notDue
        else
          let cmd : Instr := .sampleComplete stream index
          .next (s.readSample cmd v u s fun bs t =>
            let out := Config.ingestSample v.desc u.sample bs
            if out.damaged then t.failSample cmd v u Code.STREAM_DAMAGED
            else if v.rowTokens + tokenCount v u.sample ≤ v.param 0x24 4 && v.rowSegs < 4096 then s.packSample cmd v u out t
            else
              let w := t.closeRow v u.uid u.step u.replayed
              if !w.2 then w.1.hold cmd
              else match w.1.streamAt stream with
                | some v => w.1.packSample cmd v u out w.1
                | none => w.1)

/-! ## Engines that fail; the host's registers -/

/-- VIDEO_ENGINE_FAIL (R312, R319). -/
def execVideoEngineFail (engine : Nat) (s : State) : Res :=
  whenPart (engine < 16) <|
    if s.vid.failed.contains engine then .refused .notDue else .next ((s.engineGone engine).setIsland (1200 + engine) 0)

/-- ROW_FREE (R331): the host gives a row back. -/
def execRowFree (_req : Requester) (stream : Nat) (value : Word) (s : State) : Res :=
  whenPart (stream < 64) <|
    .next (match s.streamAt stream with
      | some v => s.setStream { v with busyRows := v.busyRows.filter (· != value.toNat % 64) }
      | none => s)

/-- OUT_RD_WRITE (R327): the bytes the host has consumed. -/
def execOutRdWrite (_req : Requester) (stream : Nat) (value : Word) (s : State) : Res :=
  whenPart (stream < 64) (.next ((s.setReg (R.VID_STR_OUT_RD stream) value).settleStream stream))

end Sys2Proof.Machine
end

