-- ==== Sys2Proof/Machine/Dispatch.lean ====
section
/-! DEFINITION. The dispatch of a command to its meaning: one arm per row of the opcode table. -/

namespace Sys2Proof.Machine

open Sys2Proof

/-- The effect of a command on everything but the queue. -/
def exec (i : Instr) (s : State) : Host.Outcome State Fault Refusal :=
  match i with
  | .bar0BadWidthAccess req write off bytes => Sys2Proof.Machine.execBar0BadWidthAccess req write off bytes s
  | .undefinedOffsetAccess req write off value => Sys2Proof.Machine.execUndefinedOffsetAccess req write off value s
  | .registerWrite req off value => Sys2Proof.Machine.execRegisterWrite req off value s
  | .rcRegisterRead req off arriving => Sys2Proof.Machine.execRcRegisterRead req off arriving s
  | .pairLoRead req off => Sys2Proof.Machine.execPairLoRead req off s
  | .pairHiRead req off => Sys2Proof.Machine.execPairHiRead req off s
  | .pairLoWrite req off value => Sys2Proof.Machine.execPairLoWrite req off value s
  | .pairHiWrite req off value => Sys2Proof.Machine.execPairHiWrite req off value s
  | .silStart req value => Sys2Proof.Machine.execSilStart req value s
  | .silCancel req value => Sys2Proof.Machine.execSilCancel req value s
  | .imageChecksComplete sig => Sys2Proof.Machine.execImageChecksComplete sig s
  | .heldImageApply => Sys2Proof.Machine.execHeldImageApply s
  | .imageApplyCommit fault => Sys2Proof.Machine.execImageApplyCommit fault s
  | .coreRetirePatch => Sys2Proof.Machine.execCoreRetirePatch s
  | .imageWithdraw => Sys2Proof.Machine.execImageWithdraw s
  | .stepBegin => Sys2Proof.Machine.execStepBegin s
  | .preemptSaveComplete job => Sys2Proof.Machine.execPreemptSaveComplete job s
  | .preemptRestoreComplete job => Sys2Proof.Machine.execPreemptRestoreComplete job s
  | .lullDeclare job lateUnit => Sys2Proof.Machine.execLullDeclare job lateUnit s
  | .lullWatchdogExpire job unit => Sys2Proof.Machine.execLullWatchdogExpire job unit s
  | .completionRecordPost ctx => Sys2Proof.Machine.execCompletionRecordPost ctx s
  | .ringHeadWrite req ctx value => Sys2Proof.Machine.execRingHeadWrite req ctx value s
  | .contextCreate req value => Sys2Proof.Machine.execContextCreate req value s
  | .contextClose req ctx value => Sys2Proof.Machine.execContextClose req ctx value s
  | .contextTeardown req ctx value => Sys2Proof.Machine.execContextTeardown req ctx value s
  | .contextTeardownComplete ctx => Sys2Proof.Machine.execContextTeardownComplete ctx s
  | .jobSubmit req ctx value => Sys2Proof.Machine.execJobSubmit req ctx value s
  | .descriptorFetchDone ctx fetch => Sys2Proof.Machine.execDescriptorFetchDone ctx fetch s
  | .descriptorFetchTimeout ctx => Sys2Proof.Machine.execDescriptorFetchTimeout ctx s
  | .submitResultRead req ctx => Sys2Proof.Machine.execSubmitResultRead req ctx s
  | .jobAbort req ctx value => Sys2Proof.Machine.execJobAbort req ctx value s
  | .load core enc => Sys2Proof.Machine.execLoad core enc s
  | .store core enc => Sys2Proof.Machine.execStore core enc s
  | .mma core enc => Sys2Proof.Machine.execMma core enc s
  | .mmaCheckComplete core => Sys2Proof.Machine.execMmaCheckComplete core s
  | .conv core enc => Sys2Proof.Machine.execConv core enc s
  | .convExpanded core enc => Sys2Proof.Machine.execConvExpanded core enc s
  | .maxPool core enc => Sys2Proof.Machine.execMaxPool core enc s
  | .averagePool core enc => Sys2Proof.Machine.execAveragePool core enc s
  | .copy core enc => Sys2Proof.Machine.execCopy core enc s
  | .add core enc => Sys2Proof.Machine.execAdd core enc s
  | .sub core enc => Sys2Proof.Machine.execSub core enc s
  | .mul core enc => Sys2Proof.Machine.execMul core enc s
  | .axpy core enc => Sys2Proof.Machine.execAxpy core enc s
  | .max core enc => Sys2Proof.Machine.execMax core enc s
  | .min core enc => Sys2Proof.Machine.execMin core enc s
  | .scale core enc => Sys2Proof.Machine.execScale core enc s
  | .mulRow core enc => Sys2Proof.Machine.execMulRow core enc s
  | .addRow core enc => Sys2Proof.Machine.execAddRow core enc s
  | .mulCol core enc => Sys2Proof.Machine.execMulCol core enc s
  | .addCol core enc => Sys2Proof.Machine.execAddCol core enc s
  | .rowsum core enc => Sys2Proof.Machine.execRowsum core enc s
  | .rowmax core enc => Sys2Proof.Machine.execRowmax core enc s
  | .rowstat core enc => Sys2Proof.Machine.execRowstat core enc s
  | .norm core enc => Sys2Proof.Machine.execNorm core enc s
  | .softmax core enc => Sys2Proof.Machine.execSoftmax core enc s
  | .softmaxLse core enc => Sys2Proof.Machine.execSoftmaxLse core enc s
  | .exp core enc => Sys2Proof.Machine.execExp core enc s
  | .log core enc => Sys2Proof.Machine.execLog core enc s
  | .recip core enc => Sys2Proof.Machine.execRecip core enc s
  | .rsqrt core enc => Sys2Proof.Machine.execRsqrt core enc s
  | .sigmoid core enc => Sys2Proof.Machine.execSigmoid core enc s
  | .tanh core enc => Sys2Proof.Machine.execTanh core enc s
  | .gelu core enc => Sys2Proof.Machine.execGelu core enc s
  | .silu core enc => Sys2Proof.Machine.execSilu core enc s
  | .sin core enc => Sys2Proof.Machine.execSin core enc s
  | .cos core enc => Sys2Proof.Machine.execCos core enc s
  | .sincosPos core enc => Sys2Proof.Machine.execSincosPos core enc s
  | .attnScanForward core enc => Sys2Proof.Machine.execAttnScanForward core enc s
  | .attnScanBackward core enc => Sys2Proof.Machine.execAttnScanBackward core enc s
  | .haloPut core enc => Sys2Proof.Machine.execHaloPut core enc s
  | .haloWait core enc => Sys2Proof.Machine.execHaloWait core enc s
  | .haloDataArrive core => Sys2Proof.Machine.execHaloDataArrive core s
  | .allReduce core enc => Sys2Proof.Machine.execAllReduce core enc s
  | .reduceScatter core enc => Sys2Proof.Machine.execReduceScatter core enc s
  | .allGather core enc => Sys2Proof.Machine.execAllGather core enc s
  | .allToAll core enc => Sys2Proof.Machine.execAllToAll core enc s
  | .broadcast core enc => Sys2Proof.Machine.execBroadcast core enc s
  | .arrive core enc => Sys2Proof.Machine.execArrive core enc s
  | .wait core enc => Sys2Proof.Machine.execWait core enc s
  | .arriveWait core enc => Sys2Proof.Machine.execArriveWait core enc s
  | .fence core enc => Sys2Proof.Machine.execFence core enc s
  | .check core enc => Sys2Proof.Machine.execCheck core enc s
  | .endProgram core enc => Sys2Proof.Machine.execEndProgram core enc s
  | .kvAlloc via => Sys2Proof.Machine.execKvAlloc via s
  | .kvSeal via => Sys2Proof.Machine.execKvSeal via s
  | .kvRetain via => Sys2Proof.Machine.execKvRetain via s
  | .kvRelease via => Sys2Proof.Machine.execKvRelease via s
  | .kvCopy via => Sys2Proof.Machine.execKvCopy via s
  | .kvPinResume index => Sys2Proof.Machine.execKvPinResume index s
  | .retrievalComplete core => Sys2Proof.Machine.execRetrievalComplete core s
  | .patrolScrub target => Sys2Proof.Machine.execPatrolScrub target s
  | .hbmTempRead stack celsius => Sys2Proof.Machine.execHbmTempRead stack celsius s
  | .regulatorTokensGrant partition waitNs => Sys2Proof.Machine.execRegulatorTokensGrant partition waitNs s
  | .tgStart req pch value => Sys2Proof.Machine.execTgStart req pch value s
  | .tgRunComplete pch ue => Sys2Proof.Machine.execTgRunComplete pch ue s
  | .bar2Read off len => Sys2Proof.Machine.execBar2Read off len s
  | .bar2Write off data => Sys2Proof.Machine.execBar2Write off data s
  | .bar4Read off len => Sys2Proof.Machine.execBar4Read off len s
  | .bar4Write off data => Sys2Proof.Machine.execBar4Write off data s
  | .tierAlloc via => Sys2Proof.Machine.execTierAlloc via s
  | .tierFree via => Sys2Proof.Machine.execTierFree via s
  | .tierPromote via => Sys2Proof.Machine.execTierPromote via s
  | .tierUnpin via => Sys2Proof.Machine.execTierUnpin via s
  | .tierWriteBack via => Sys2Proof.Machine.execTierWriteBack via s
  | .tierEvict via => Sys2Proof.Machine.execTierEvict via s
  | .tierKeep via => Sys2Proof.Machine.execTierKeep via s
  | .tierAdopt via => Sys2Proof.Machine.execTierAdopt via s
  | .tierDiscard via => Sys2Proof.Machine.execTierDiscard via s
  | .promoteComplete slot ok => Sys2Proof.Machine.execPromoteComplete slot ok s
  | .writeBackComplete slot => Sys2Proof.Machine.execWriteBackComplete slot s
  | .tierLate via => Sys2Proof.Machine.execTierLate via s
  | .flashRetentionPatrol block percent => Sys2Proof.Machine.execFlashRetentionPatrol block percent s
  | .flashAllowanceBucketRoll => Sys2Proof.Machine.execFlashAllowanceBucketRoll s
  | .goldenSync req value => Sys2Proof.Machine.execGoldenSync req value s
  | .goldenLoad req value => Sys2Proof.Machine.execGoldenLoad req value s
  | .goldenSyncComplete => Sys2Proof.Machine.execGoldenSyncComplete s
  | .goldenLoadComplete ok => Sys2Proof.Machine.execGoldenLoadComplete ok s
  | .goldenReloadComplete page ok => Sys2Proof.Machine.execGoldenReloadComplete page ok s
  | .capabilityWordReceived port cap => Sys2Proof.Machine.execCapabilityWordReceived port cap s
  | .linkTrainingAttemptEnd port passes => Sys2Proof.Machine.execLinkTrainingAttemptEnd port passes s
  | .trainingRetryTimer port => Sys2Proof.Machine.execTrainingRetryTimer port s
  | .frameReceive port frame => Sys2Proof.Machine.execFrameReceive port frame s
  | .ackReceived port seq => Sys2Proof.Machine.execAckReceived port seq s
  | .nakReceived port seq => Sys2Proof.Machine.execNakReceived port seq s
  | .replayTimeout port => Sys2Proof.Machine.execReplayTimeout port s
  | .controlFlitSend port => Sys2Proof.Machine.execControlFlitSend port s
  | .egressFrameSelect port slots noCredit => Sys2Proof.Machine.execEgressFrameSelect port slots noCredit s
  | .heartbeatSend port => Sys2Proof.Machine.execHeartbeatSend port s
  | .heartbeatReceived port device => Sys2Proof.Machine.execHeartbeatReceived port device s
  | .heartbeatMissLimit port => Sys2Proof.Machine.execHeartbeatMissLimit port s
  | .lossOfSignal port => Sys2Proof.Machine.execLossOfSignal port s
  | .laneBerWindow port lane degraded => Sys2Proof.Machine.execLaneBerWindow port lane degraded s
  | .laneLossOfLock port lane => Sys2Proof.Machine.execLaneLossOfLock port lane s
  | .laneSpareTrained port => Sys2Proof.Machine.execLaneSpareTrained port s
  | .laneSwapCommand port lane spare => Sys2Proof.Machine.execLaneSwapCommand port lane spare s
  | .portDisable req port value => Sys2Proof.Machine.execPortDisable req port value s
  | .portRetrain req port value => Sys2Proof.Machine.execPortRetrain req port value s
  | .squallEnable req port value => Sys2Proof.Machine.execSquallEnable req port value s
  | .squallSeedWrite req port value => Sys2Proof.Machine.execSquallSeedWrite req port value s
  | .squallHoldDown req port value => Sys2Proof.Machine.execSquallHoldDown req port value s
  | .squallReorderTimeout port cls => Sys2Proof.Machine.execSquallReorderTimeout port cls s
  | .writeFrame => Sys2Proof.Machine.execWriteFrame s
  | .readRequestFrame => Sys2Proof.Machine.execReadRequestFrame s
  | .readResponseFrame => Sys2Proof.Machine.execReadResponseFrame s
  | .reduceFrame => Sys2Proof.Machine.execReduceFrame s
  | .syncArriveFrame => Sys2Proof.Machine.execSyncArriveFrame s
  | .syncReleaseFrame => Sys2Proof.Machine.execSyncReleaseFrame s
  | .syncCreditFrame => Sys2Proof.Machine.execSyncCreditFrame s
  | .syncReadyFrame => Sys2Proof.Machine.execSyncReadyFrame s
  | .creditSendTimer => Sys2Proof.Machine.execCreditSendTimer s
  | .syncDumpStart req value => Sys2Proof.Machine.execSyncDumpStart req value s
  | .syncDumpComplete => Sys2Proof.Machine.execSyncDumpComplete s
  | .livenessRefresh => Sys2Proof.Machine.execLivenessRefresh s
  | .systemControllerFailover => Sys2Proof.Machine.execSystemControllerFailover s
  | .livenessLostRetire => Sys2Proof.Machine.execLivenessLostRetire s
  | .marginReport island margin predicted => Sys2Proof.Machine.execMarginReport island margin predicted s
  | .coreProbe core answered => Sys2Proof.Machine.execCoreProbe core answered s
  | .coreProbeTimeout core => Sys2Proof.Machine.execCoreProbeTimeout core s
  | .stripeForm req value => Sys2Proof.Machine.execStripeForm req value s
  | .stripeJoin => Sys2Proof.Machine.execStripeJoin s
  | .bankDelta => Sys2Proof.Machine.execBankDelta s
  | .bankStaged => Sys2Proof.Machine.execBankStaged s
  | .bankDrop => Sys2Proof.Machine.execBankDrop s
  | .rebuildBegin => Sys2Proof.Machine.execRebuildBegin s
  | .rebuildData => Sys2Proof.Machine.execRebuildData s
  | .rebuildEnd => Sys2Proof.Machine.execRebuildEnd s
  | .bankedUnitRebuildDone unit => Sys2Proof.Machine.execBankedUnitRebuildDone unit s
  | .bankDecideCommit req ctx value => Sys2Proof.Machine.execBankDecideCommit req ctx value s
  | .bankDecideAbort req ctx value => Sys2Proof.Machine.execBankDecideAbort req ctx value s
  | .replayDiscard req value => Sys2Proof.Machine.execReplayDiscard req value s
  | .replayResume req value => Sys2Proof.Machine.execReplayResume req value s
  | .replayQuietExpire => Sys2Proof.Machine.execReplayQuietExpire s
  | .videoOpen via => Sys2Proof.Machine.execVideoOpen via s
  | .videoClose via => Sys2Proof.Machine.execVideoClose via s
  | .decodeSubmit via => Sys2Proof.Machine.execDecodeSubmit via s
  | .encodeSubmit via => Sys2Proof.Machine.execEncodeSubmit via s
  | .advance via => Sys2Proof.Machine.execAdvance via s
  | .ingest via => Sys2Proof.Machine.execIngest via s
  | .bandSelect engine => Sys2Proof.Machine.execBandSelect engine s
  | .decodeUnitComplete stream => Sys2Proof.Machine.execDecodeUnitComplete stream s
  | .sliceEmit stream => Sys2Proof.Machine.execSliceEmit stream s
  | .sampleComplete stream index => Sys2Proof.Machine.execSampleComplete stream index s
  | .videoEngineFail engine => Sys2Proof.Machine.execVideoEngineFail engine s
  | .rowFree req stream value => Sys2Proof.Machine.execRowFree req stream value s
  | .outRdWrite req stream value => Sys2Proof.Machine.execOutRdWrite req stream value s
  | .powerApplied addr a b => Sys2Proof.Machine.execPowerApplied addr a b s
  | .supplyLost => Sys2Proof.Machine.execSupplyLost s
  | .secondHalfStart tests => Sys2Proof.Machine.execSecondHalfStart tests s
  | .inputVoltageSample mv tenthAmps watts => Sys2Proof.Machine.execInputVoltageSample mv tenthAmps watts s
  | .islandMonitorReport island load temp droops mhz => Sys2Proof.Machine.execIslandMonitorReport island load temp droops mhz s
  | .recalibrationSweep failed => Sys2Proof.Machine.execRecalibrationSweep failed s
  | .recalAll req value => Sys2Proof.Machine.execRecalAll req value s
  | .goStandby req value => Sys2Proof.Machine.execGoStandby req value s
  | .quiesceDrainComplete => Sys2Proof.Machine.execQuiesceDrainComplete s
  | .islandReset req island value => Sys2Proof.Machine.execIslandReset req island value s
  | .islandRecal req island value => Sys2Proof.Machine.execIslandRecal req island value s
  | .islandDrained island => Sys2Proof.Machine.execIslandDrained island s
  | .quiesceTimeout island => Sys2Proof.Machine.execQuiesceTimeout island s
  | .windbreakRetry => Sys2Proof.Machine.execWindbreakRetry s
  | .coreIdleRetention core => Sys2Proof.Machine.execCoreIdleRetention core s
  | .wakeLatchSet island => Sys2Proof.Machine.execWakeLatchSet island s
  | .regulatorPhaseFail island => Sys2Proof.Machine.execRegulatorPhaseFail island s
  | .clockGeneratorFail island => Sys2Proof.Machine.execClockGeneratorFail island s
  | .portLpEnter port => Sys2Proof.Machine.execPortLpEnter port s
  | .portWakePattern port => Sys2Proof.Machine.execPortWakePattern port s
  | .laserPowerUpdate port a b => Sys2Proof.Machine.execLaserPowerUpdate port a b s
  | .thermalSensorRead kind index celsius => Sys2Proof.Machine.execThermalSensorRead kind index celsius s
  | .hostLinkTrained gen width => Sys2Proof.Machine.execHostLinkTrained gen width s
  | .hostLinkReset down => Sys2Proof.Machine.execHostLinkReset down s
  | .d3hotEntry => Sys2Proof.Machine.execD3hotEntry s
  | .doorbell req channel value payload => Sys2Proof.Machine.execDoorbell req channel value payload s
  | .noticeAck channel code => Sys2Proof.Machine.execNoticeAck channel code s
  | .noticeUnimplemented channel => Sys2Proof.Machine.execNoticeUnimplemented channel s
  | .nop channel => Sys2Proof.Machine.execNop channel s
  | .targetNoticePost channel ptr op seq data => Sys2Proof.Machine.execTargetNoticePost channel ptr op seq data s
  | .targetNoticeAck req channel value => Sys2Proof.Machine.execTargetNoticeAck req channel value s
  | .getInfo channel => Sys2Proof.Machine.execGetInfo channel s
  | .warmReset caller => Sys2Proof.Machine.execWarmReset caller s
  | .setBoot caller => Sys2Proof.Machine.execSetBoot caller s
  | .storeImage channel sig => Sys2Proof.Machine.execStoreImage channel sig s
  | .start caller => Sys2Proof.Machine.execStart caller s
  | .debugChallenge channel => Sys2Proof.Machine.execDebugChallenge channel s
  | .debugToken channel valid => Sys2Proof.Machine.execDebugToken channel valid s
  | .debugRevoke channel => Sys2Proof.Machine.execDebugRevoke channel s
  | .getCertificates channel => Sys2Proof.Machine.execGetCertificates channel s
  | .importWeights channel page => Sys2Proof.Machine.execImportWeights channel page s
  | .enrol channel valid => Sys2Proof.Machine.execEnrol channel valid s
  | .revoke channel valid => Sys2Proof.Machine.execRevoke channel valid s
  | .modelKey channel => Sys2Proof.Machine.execModelKey channel s
  | .signPatch channel => Sys2Proof.Machine.execSignPatch channel s
  | .nonceExpire who => Sys2Proof.Machine.execNonceExpire who s
  | .tokenExpired who => Sys2Proof.Machine.execTokenExpired who s
  | .mctpMessage msg => Sys2Proof.Machine.execMctpMessage msg s
  | .spdmKeyExchange => Sys2Proof.Machine.execSpdmKeyExchange s
  | .spdmGetMeasurements => Sys2Proof.Machine.execSpdmGetMeasurements s
  | .pldmSensorRead sensor => Sys2Proof.Machine.execPldmSensorRead sensor s
  | .fwVerifyComplete bundle verdict => Sys2Proof.Machine.execFwVerifyComplete bundle verdict s
  | .activateFirmware => Sys2Proof.Machine.execActivateFirmware s
  | .firmwareActivation => Sys2Proof.Machine.execFirmwareActivation s
  | .dmaStallTimeout vc accepted => Sys2Proof.Machine.execDmaStallTimeout vc accepted s
  | .hostCreditReturn vc more => Sys2Proof.Machine.execHostCreditReturn vc more s
  | .dmaResume req value => Sys2Proof.Machine.execDmaResume req value s
  | .interruptDeliver target vector late => Sys2Proof.Machine.execInterruptDeliver target vector late s
  | .irqTgtEoi req target value => Sys2Proof.Machine.execIrqTgtEoi req target value s
  | .irqHostEoi req value => Sys2Proof.Machine.execIrqHostEoi req value s
  | .flitCrcError port => Sys2Proof.Machine.execFlitCrcError port s
  | .d3hotExit => Sys2Proof.Machine.execD3hotExit s
  | .configSpaceWrite busMaster msix vcs masked bar4GiB => Sys2Proof.Machine.execConfigSpaceWrite busMaster msix vcs masked bar4GiB s
  | .moduleConverterFail converter => Sys2Proof.Machine.execModuleConverterFail converter s
  | .secureOnlyAccess req write off value => Sys2Proof.Machine.execSecureOnlyAccess req write off value s

end Sys2Proof.Machine
end

