-- ==== Sys2Proof/Machine/Idle.lean ====
section
/-! DEFINITION. What the block does on an empty queue: time passes, and the oldest command that waits is tried again. -/

namespace Sys2Proof.Machine

open Sys2Proof

/-- What goes on by itself at a tick: time, the inbound mesh queues, the epilogues that wait, streams whose rows or CLOSE wait for
room in their rings, notices taken by their targets, and the clocks of engines (R54, R76, R155, R331, R338, R364). -/
def State.advance (s : State) : State := s.tick.serveAllInbound.serveAllEpilogues.settleStreams.takeNotices.restEngines

/-- An idle step (log entry 1): one tick, then the oldest waiting command once; one that answers no next state is dropped. -/
def State.idleStep (s : State) : State :=
  match s.advance.held with
  | [] => s.advance
  | c :: rest =>
    match exec c { s.advance with held := rest } with
    | .next t => t
    | _ => { s.advance with held := rest }

end Sys2Proof.Machine
end

