-- ==== Sys2Proof/Safety.lean ====
section
/-! DEFINITION. What the statements about the block are made of: completion, the canonical form of registers and memories, what a
command leaves alone, and when a tile instruction issues. -/

namespace Sys2Proof.Machine

open Sys2Proof

/-- A command completes: its meaning answers a next state, of which `P` holds. -/
def Completes (r : Res) (P : State → Prop) : Prop := ∃ t, r = .next t ∧ P t

/-- Registers, HBM, LLM tier-1 bytes, the marks of 64-byte units and the message store are in canonical form: keys strictly rising,
no entry equal to what an unlisted key reads as. -/
def State.canonical (s : State) : Bool :=
  storeWf regDefault s.regs && storeWf zeroByte s.mem.hbm && storeWf zeroByte s.mem.llm && storeWf noPoison s.mem.poison &&
    storeWf noPoison s.mem.orphanCipher && storeWf zeroByte s.mail.store

/-! ## Frames -/

/-- Every register but those of a list reads in `t` as in `s`. -/
def State.regsKept (s t : State) (l : List Nat) : Prop := ∀ o, o ∉ l → t.reg o = s.reg o

/-- `t` differs from `s` in registers of a list and in nothing else. -/
def State.onlyRegs (s t : State) (l : List Nat) : Prop := t = { s with regs := t.regs } ∧ s.regsKept t l

/-- `t` differs from `s` in registers of a list and in what has crossed the boundary outward, and in nothing else. -/
def State.onlyRegsOut (s t : State) (l : List Nat) : Prop := t = { s with regs := t.regs, out := t.out } ∧ s.regsKept t l

/-- What a command on one tile's core may change: registers of a list and that core. -/
def State.onlyCore (s t : State) (p : Nat) (l : List Nat) : Prop :=
  t = { s with regs := t.regs, cores := t.cores } ∧ (∀ q, q ≠ p → t.core q = s.core q) ∧ s.regsKept t l

/-- The same bytes in HBM and in tier-1 LLM memory, the same poison. -/
def State.memSame (s t : State) : Prop :=
  t.mem.hbm = s.mem.hbm ∧ t.mem.llm = s.mem.llm ∧ t.mem.poison = s.mem.poison

/-! ## Tile instructions -/

/-- The sequencer of core `p` has fetched `enc` (R138, R139): its program `g` of the running job `j` has not retired, its instruction
counter is below COUNT, and the 32 bytes it names in the context's virtual space spell `enc`. -/
def State.fetched (s : State) (p : Nat) (enc : BitVec 256) (g : Program) (j : Job) : Prop :=
  p < 1088 ∧ (s.core p).prog = some g ∧ s.jobOf g.job = some j ∧ g.retired = false ∧ j.phase = .running ∧
  s.getF (F.JOB_CORE_PROGRAM_NEXT p) < g.count ∧
  ∃ bs, s.vFetch g.ctx (g.va + 0x40 + 32 * s.getF (F.JOB_CORE_PROGRAM_NEXT p)) 32 = .ok bs ∧ leNat bs = enc.toNat

/-- The commands of an instruction at a core's sequencer, one for each row of the table that issues one. -/
def tileCommands (p : Nat) (e : BitVec 256) : List Instr :=
  [.load p e, .store p e, .mma p e, .conv p e, .convExpanded p e, .maxPool p e, .averagePool p e, .copy p e, .add p e, .sub p e,
    .mul p e, .axpy p e, .max p e, .min p e, .scale p e, .mulRow p e, .addRow p e, .mulCol p e, .addCol p e, .rowsum p e,
    .rowmax p e, .rowstat p e, .norm p e, .softmax p e, .softmaxLse p e, .exp p e, .log p e, .recip p e, .rsqrt p e, .sigmoid p e,
    .tanh p e, .gelu p e, .silu p e, .sin p e, .cos p e, .sincosPos p e, .attnScanForward p e, .attnScanBackward p e, .haloPut p e,
    .haloWait p e, .allReduce p e, .reduceScatter p e, .allGather p e, .allToAll p e, .broadcast p e, .arrive p e, .wait p e,
    .arriveWait p e, .fence p e, .check p e, .endProgram p e]

/-- The instruction counter of a core has moved on by one. -/
def State.advanced (s t : State) (p : Nat) : Prop :=
  t.getF (F.JOB_CORE_PROGRAM_NEXT p) = (s.getF (F.JOB_CORE_PROGRAM_NEXT p) + 1) % 2 ^ 16

/-- A job fault has been taken: the context is in TEARDOWN with the code and the detail word, and the job is gone. -/
def State.faulted (t : State) (j : Job) (code detail : Nat) : Prop :=
  t.ctxState j.ctx = 3 ∧ (t.ctx j.ctx).fault = code ∧ (t.ctx j.ctx).detail = detail ∧ t.jobOf j.uid = none

/-- Ranges of a context's virtual space read one after another, none of them in a port: their bytes, and the state after. -/
def readRuns (ctx : Nat) : List (Nat × Nat) → State → Option (List (List Byte) × State)
  | [], s => some ([], s)
  | (va, n) :: l, s =>
    match s.portMet ctx va n, s.vRead ctx va n with
    | none, .ok r => (readRuns ctx l r.2).map fun q => (r.1 :: q.1, q.2)
    | _, _ => none

/-- Ranges of a context's virtual space written one after another by a job's step, none of them in a port: the state after. -/
def writeRuns (ctx uid : Nat) : List (Nat × List Byte) → State → Option State
  | [], s => some s
  | (va, bs) :: l, s =>
    match s.portMet ctx va bs.length, s.vWrite ctx uid va bs with
    | none, .ok t => writeRuns ctx uid l t
    | _, _ => none

/-- An engine's writes for a unit made one after another: the state after. -/
def engineRuns (ctx : Nat) (uid : Option Nat) : List (Nat × List Byte) → State → Option State
  | [], s => some s
  | (va, bs) :: l, s => match s.engineWrite ctx uid va bs with
    | .ok t => engineRuns ctx uid l t
    | _ => none

/-- The bytes of an operand's store at an address. -/
def State.runAt (s : State) (p : Nat) (acc : Bool) (addr n : Nat) : List Byte :=
  if acc then s.accBytes p addr n else s.scratch p addr n

/-- Rows of an operand hold given bytes, and every other byte of both stores of the core is as before. -/
def State.rowsSet (s t : State) (p : Nat) (d : Rows) (bs : List (List Byte)) : Prop :=
  (∀ i, i < d.rows → t.runAt p d.acc (d.addr + i * d.stride) d.bytes = bs.getD i []) ∧
  (∀ acc a, (acc = d.acc → ∀ i, i < d.rows → a < d.addr + i * d.stride ∨ d.addr + i * d.stride + d.bytes ≤ a) →
    t.runAt p acc a 1 = s.runAt p acc a 1)

/-- Rows of an operand lie apart. -/
abbrev Rows.apart (d : Rows) : Prop := d.bytes ≤ d.stride ∨ d.rows ≤ 1

/-- The projection words and V columns that output tile `k` of a plan is corrected with; none without a sidecar (R117, R118). -/
def State.tileProj (s : State) (p : Nat) (x : Plan) (ab : Src × Src) (k : Nat) : Option (List (List Nat) × List (List FV)) :=
  (s.guardAt p x).bind fun g => (s.sidecarAt p g).map fun h =>
    ((s.projection p x g h ab.1).1.rows.drop (64 * k), s.sideV p h)

/-- The command of a VOP, by its operation (Table VEC-1). -/
def vopCommand (p : Nat) (e : BitVec 256) : Instr :=
  match vopOp e with
  | 0 => .copy p e
  | 1 => .add p e
  | 2 => .sub p e
  | 3 => .mul p e
  | 4 => .axpy p e
  | 5 => .max p e
  | 6 => .min p e
  | 7 => .scale p e
  | 8 => .mulRow p e
  | 9 => .addRow p e
  | 0xA => .mulCol p e
  | 0xB => .addCol p e
  | 0xC => .rowsum p e
  | 0xD => .rowmax p e
  | 0xE => .rowstat p e
  | 0xF => .norm p e
  | 0x10 => .softmax p e
  | _ => .softmaxLse p e

/-- A result row of a VOP, of A's and B's words, for every operation but the two of the soft maximum (Table VEC-1). -/
def vopResult (e : BitVec 256) (a b : List Nat) : List Nat × Flags :=
  match vopOp e with
  | 0 => collect (a.map fpCopy)
  | 1 => zipOp fpAdd a b
  | 2 => zipOp fpSub a b
  | 3 => zipOp fpMul a b
  | 4 => zipOp (fun x y => fpFma x (vopScalar e) y) a b
  | 5 => zipOp fpMax a b
  | 6 => zipOp fpMin a b
  | 7 => withWord fpMul (vopScalar e) a
  | 8 => withWord fpMul (b.headD 0) a
  | 9 => withWord fpAdd (b.headD 0) a
  | 0xA => zipOp fpMul a b
  | 0xB => zipOp fpAdd a b
  | 0xC => oneWord (rowSum a)
  | 0xD => oneWord (rowMax a)
  | 0xE => rowStat (vopScalar e) a
  | _ => normRow b a

/-- Vector-unit cycles of a row of a VOP (Table VEC-6). -/
def vopCost (e : BitVec 256) : Nat :=
  match vopOp e with
  | 0xC => ceilDiv (vopCols e) 128 + 28
  | 0xD => ceilDiv (vopCols e) 128 + 28
  | 0xE => 2 * ceilDiv (vopCols e) 128 + 40
  | _ => ceilDiv (vopCols e) 128

/-- The flags row `r` of a VOP raises before it is delivered: its widening's, and the operation's. -/
def State.vopFlags (s : State) (p : Nat) (e : BitVec 256) (r : Nat) : Flags :=
  (vopResult e (s.vopIn p e (vopA e) r).1 (s.vopBIn p e r).1).2 ||| (s.vopIn p e (vopA e) r).2 ||| (s.vopBIn p e r).2

/-- The command of an SFU function, by its code (Table VEC-3). -/
def sfuCommand (p : Nat) (e : BitVec 256) : Instr :=
  match fieldOf e 1 1 with
  | 0 => .exp p e
  | 1 => .log p e
  | 2 => .recip p e
  | 3 => .rsqrt p e
  | 4 => .sigmoid p e
  | 5 => .tanh p e
  | 6 => .gelu p e
  | 7 => .silu p e
  | 8 => .sin p e
  | _ => .cos p e

/-- The command of a COLL, by its operation (Table COL-2). -/
def collCommand (p : Nat) (e : BitVec 256) : Instr :=
  match collOp e with
  | 0 => .allReduce p e
  | 1 => .reduceScatter p e
  | 2 => .allGather p e
  | 3 => .allToAll p e
  | _ => .broadcast p e

/-! ## Memory and ports -/

/-- No unit of HBM is poisoned, fenced, or under an erased key. -/
abbrev State.clean (s : State) : Prop := s.mem.poison = [] ∧ s.mem.fenced = [] ∧ s.mem.orphanCipher = []

/-- HBM reads as before outside a range. -/
def State.hbmKept (s t : State) (a n : Nat) : Prop := ∀ b, b < a ∨ a + n ≤ b → t.hbm b 1 = s.hbm b 1

/-- The device may make its write of a range for a command: the journal takes it, leaving `u` (R299, R302). -/
def State.deviceReady (s : State) (q : PortCmd) (addr n : Nat) (u : State) : Prop :=
  match q.uid with
  | some j => s.inBanked addr = false ∧ s.journal j addr n = some u
  | none => s.journalLoose addr n = some u

/-- The command of a page port, by its OP (Table KV-3). -/
def kvCommand (op : Nat) (via : Via) : Instr :=
  match op with
  | 1 => .kvAlloc via
  | 2 => .kvSeal via
  | 3 => .kvRetain via
  | 4 => .kvRelease via
  | _ => .kvCopy via

/-- The command of a tier port, by its OP (Table TIR-4). -/
def tierCommand (op : Nat) (via : Via) : Instr :=
  match op with
  | 1 => .tierAlloc via
  | 2 => .tierFree via
  | 3 => .tierPromote via
  | 4 => .tierUnpin via
  | 5 => .tierWriteBack via
  | 6 => .tierEvict via
  | 7 => .tierKeep via
  | 8 => .tierAdopt via
  | _ => .tierDiscard via

/-! ## Notices -/

/-- A notice is in flight on a channel, its opcode is one its target's firmware implements, and its payload can be read. -/
abbrev State.asks (s : State) (channel op : Nat) (n : Notice) : Prop :=
  channel < 64 ∧ s.notice channel = some n ∧ n.op = op ∧ opImplemented channel op = true ∧
    (channel < 32 → s.poisoned n.ptr n.len = false ∧ s.mem.orphanCipher = [])

/-- A notice has been acknowledged with a code, and its channel is free for the next. -/
def State.acked (t : State) (n : Notice) (code : Nat) : Prop :=
  t.getF (ackState n.chan) = 3 ∧ t.getF (ackCode n.chan) = code ∧ t.getF (ackSeq n.chan) = n.seq % 2 ^ 16 ∧ t.notice n.chan = none

/-- A reply stands at a notice's POINTER, or at an address beside it: in HBM, or in the secure controller's message store. -/
def State.replied (s t : State) (n : Notice) (addr : Nat) (bs : List Byte) : Prop :=
  (n.chan < 32 → s.clean → t.hbm addr bs.length = bs ∧ s.hbmKept t addr bs.length) ∧
  (32 ≤ n.chan → storeGetRun zeroByte t.mail.store addr bs.length = bs)

/-- The 256 bytes with which a system controller answers GET_INFO (R396). -/
def State.infoBytes (s : State) : List Byte :=
  (List.range 256).map fun i => Config.infoByte Config.fuseUid.toNat (s.getF F.GLB_FW_VERSION_VALUE) (s.getF F.GLB_FW_SECURITY_VALUE)
    (s.getF F.SIL_ROLLBACK_VALUE) (bits (s.reg R.GLB_BOOT_STATUS).toNat 2 0) (s.reg R.GLB_BOOT_STATUS).toNat i

/-- The free bytes a reply of `n` bytes reads first. -/
def State.fresh (s : State) (n : Nat) : List Byte := (List.range n).map fun i => Config.freeByte (s.free + i)

/-- A management request was answered with bytes its standard gives. -/
def State.answered (s t : State) : Prop :=
  ∃ bs, t.out = s.out ++ [.mgmt (.answer bs)]

end Sys2Proof.Machine
end

