-- ==== Sys2Proof/Certificates/Slice0/Obligations.lean ====
section
/-! DEFINITION. What the block does, as statements for the provers: the queue, registers, images, jobs, tile instructions, memory,
tiers, links, recovery, video, power, the host link, mailboxes and security. Every row of the table completes in some statement. -/

open Sys2Proof Sys2Proof.Machine

/-! ## The block -/

/-- A step with a command at the front of the queue is that command on the queue's rest. -/
def Obligations.StepRunsTheFront : Prop :=
  ∀ (c : Instr) (rest : List Instr) (s : State),
    step { s with pending := c :: rest } = exec c { s with pending := rest }

/-- On an empty queue the block idles (log entry 1): the step completes with the queue still empty, and without a supply, nothing
waiting and no engine, stream or notice at work, nothing changes at all. -/
def Obligations.IdleStepCompletes : Prop :=
  (∀ s : State, s.pending = [] → Completes (step s) fun t => t.pending = []) ∧ step State.reset = .next State.reset

/-- No word spells a command, since the table gives its rows no bits: nothing is decoded and nothing put in front of the queue. -/
def Obligations.WordsSpellNoCommand : Prop :=
  (∀ nbits w : Nat, decodeTableWord nbits w = none) ∧ ∀ (s : State) (nbits w : Nat), s.withFetchWord nbits w = s

/-- Reset leaves the queue empty, JOB_DEVICE_STATE at STANDBY, device time zero, every memory with nothing listed, and every register at the
value its table gives: the part number, the default timeouts and periods, the liveness period. Unlisted memory bytes read zero (the
model's choice, log entry 2). -/
def Obligations.ResetLeavesTableValues : Prop :=
  State.reset.pending = [] ∧ State.reset.held = [] ∧ State.reset.timeNs = 0 ∧ State.reset.devState = 1 ∧
  (∀ o, State.reset.reg o = regDefault o) ∧
  State.reset.reg R.GLB_PART_ID = 0x00031024 ∧
  State.reset.getF F.GLB_DMA_STALL_TIMEOUT_MS = 50 ∧
  State.reset.mem.hbm = [] ∧ State.reset.mem.llm = [] ∧ State.reset.mem.poison = [] ∧ State.reset.job.jobs = [] ∧
  State.reset.kv.pages = [] ∧ State.reset.tier.objs = [] ∧ State.reset.vid.streams = [] ∧ State.reset.mail.notices = [] ∧
  (∀ p, State.reset.core p = Core.idle) ∧ (∀ c, State.reset.ctx c = Ctx.fresh)

/-- Memories, registers and marks are in canonical form after reset. -/
def Obligations.ResetIsCanonical : Prop := State.reset.canonical = true

/-- Every step keeps the canonical form of registers, HBM, LLM bytes, poison marks, erased-key marks and the message store, in every
state, reachable or not. -/
def Obligations.EveryStepKeepsCanonicalForm : Prop :=
  ∀ s t : State, s.canonical = true → step s = .next t → t.canonical = true

/-- No command's meaning touches the queue of commands: what waits there is what it found. -/
def Obligations.MeaningsLeaveTheQueue : Prop :=
  ∀ (c : Instr) (s t : State), exec c s = .next t → t.pending = s.pending

/-- A command whose parts are numbered beyond what the device has is answered by the fault that says so: a port of 32 and above, a core
of 1,088 and above, an island of 1,220 and above, a context of 256 and above, a stream, a channel, a stack, a partition, a
pseudo-channel, a virtual channel, a target, a converter. -/
def Obligations.PartsOutOfRangeFault : Prop :=
  (∀ (core : Nat) (enc : BitVec 256) (s : State), 1088 ≤ core →
    exec (.load core enc) s = .fault .noSuchPart ∧ exec (.add core enc) s = .fault .noSuchPart ∧
    exec (.endProgram core enc) s = .fault .noSuchPart) ∧
  (∀ (port : Nat) (f : Frame) (s : State), 32 ≤ port →
    exec (.frameReceive port f) s = .fault .noSuchPart ∧ exec (.replayTimeout port) s = .fault .noSuchPart ∧
    exec (.flitCrcError port) s = .fault .noSuchPart) ∧
  (∀ (island : Nat) (s : State), 1220 ≤ island →
    exec (.islandDrained island) s = .fault .noSuchPart ∧ exec (.clockGeneratorFail island) s = .fault .noSuchPart) ∧
  (∀ (req : Requester) (ctx : Nat) (v : Word) (s : State), 256 ≤ ctx →
    exec (.contextClose req ctx v) s = .fault .noSuchPart ∧ exec (.jobSubmit req ctx v) s = .fault .noSuchPart) ∧
  (∀ (req : Requester) (n : Nat) (v : Word) (s : State), 64 ≤ n →
    exec (.rowFree req n v) s = .fault .noSuchPart ∧ exec (.doorbell req n v []) s = .fault .noSuchPart) ∧
  (∀ (n c : Nat) (s : State), 8 ≤ n →
    exec (.hbmTempRead n c) s = .fault .noSuchPart ∧ exec (.moduleConverterFail n) s = .fault .noSuchPart) ∧
  (∀ (n w : Nat) (s : State), 16 ≤ n →
    exec (.regulatorTokensGrant n w) s = .fault .noSuchPart ∧ exec (.videoEngineFail n) s = .fault .noSuchPart) ∧
  (∀ (n v : Nat) (late : Bool) (s : State), 7 ≤ n → exec (.interruptDeliver n v late) s = .fault .noSuchPart) ∧
  (∀ (n a : Nat) (s : State), 3 ≤ n → exec (.dmaStallTimeout n a) s = .fault .noSuchPart)

/-! ## Registers -/

/-- R7: an access that is not 32 bits wide, or not aligned: a read completes with Unsupported Request, a write is dropped, and in either
case nothing in the device changes. -/
def Obligations.BadWidthAccessIsUnsupported : Prop :=
  ∀ (req : Requester) (off bytes : Nat) (s : State), bytes ≠ 4 ∨ off % 4 ≠ 0 →
    exec (.bar0BadWidthAccess req false off bytes) s = .next { s with out := s.out ++ [.unsupported req] } ∧
    exec (.bar0BadWidthAccess req true off bytes) s = .next s

/-- R9: an aligned access where no register is defined reads zero, and a write there is ignored. -/
def Obligations.UndefinedOffsetReadsZero : Prop :=
  ∀ (req : Requester) (off : Nat) (v : Word) (s : State),
    off % 4 = 0 → off < 0x4000000 → regAt off = none → s.denied req off = false →
    exec (.undefinedOffsetAccess req false off v) s = .next { s with out := s.out ++ [.readData req [0, 0, 0, 0]] } ∧
    exec (.undefinedOffsetAccess req true off v) s = .next s

/-- R359: the secure requesters are the secure controller, system controllers A and B, and a management session. A non-secure request to the
secure mailbox block or another secure-only register reads zero, or is dropped; GLB_ACCESS_DENIED counts it, GLB_ACCESS_LAST records
SECURE_ONLY and the offset, and nothing else changes. -/
def Obligations.SecureOnlyAccessIsAnswered : Prop :=
  (∀ req : Requester, isSecure req = true ↔ req = .secure ∨ req = .ctrlA ∨ req = .ctrlB ∨ req = .session) ∧
  ∀ (req : Requester) (write : Bool) (off : Nat) (v : Word) (s : State),
    off % 4 = 0 → off < 0x4000000 → secureOnly off = true → isSecure req = false →
    Completes (exec (.secureOnlyAccess req write off v) s) fun t =>
      t.getF F.GLB_ACCESS_DENIED_COUNT = (s.getF F.GLB_ACCESS_DENIED_COUNT + 1) % 2 ^ 32 ∧
      t.getF F.GLB_ACCESS_LAST_CODE = Code.SECURE_ONLY ∧ t.getF F.GLB_ACCESS_LAST_ADDR_OFFSET = off ∧
      t.out = s.out ++ (if write then [] else [.readData req [0, 0, 0, 0]]) ∧
      s.onlyRegsOut t [R.GLB_ACCESS_DENIED, R.GLB_ACCESS_LAST, R.GLB_ACCESS_LAST_ADDR]

/-- R360: a debug facility is open to a requester exactly while a debug token of that requester opens it and the policy's DEBUG_TOKENS and the
facility's own flag are set. Any other access to the debug block reads zero, but for the two status registers, which read their live values,
and a write is dropped; GLB_ACCESS_LAST records NOT_AUTHORIZED; a START written to DBG_SYNC_DUMP_CONTROL or DBG_TG_CONTROL sets that
function's STATE to 3, REFUSED, and the dump's LAST_CODE reads NOT_AUTHORIZED. -/
def Obligations.UnauthorizedDebugAccessIsAnswered : Prop :=
  (∀ (req : Requester) (f : Nat) (s : State), s.facilityOpen req f = true ↔
    s.policyFlag 0 = true ∧ s.policyFlag (f + 1) = true ∧
      ∃ x ∈ s.sec.tokens, s.debugWho req = some x.who ∧ bit x.facilities f = true) ∧
  (∀ (req : Requester) (off : Nat) (v : Word) (s : State), off % 4 = 0 → inDebug off = true → s.debugOpen req off = false →
    Completes (exec (.secureOnlyAccess req false off v) s) fun t =>
      t.getF F.GLB_ACCESS_LAST_CODE = Code.NOT_AUTHORIZED ∧ t.getF F.GLB_ACCESS_LAST_ADDR_OFFSET = off ∧
      (off = R.DBG_SYNC_DUMP_STATUS ∨ (∃ g, g < 512 ∧ off = (F.DBG_TG_STATUS_STATE g).off) →
        t.out = s.out ++ [.readData req (leBytes 4 (s.view off).toNat)]) ∧
      (off ≠ R.DBG_SYNC_DUMP_STATUS → (∀ g, g < 512 → off ≠ (F.DBG_TG_STATUS_STATE g).off) →
        t.out = s.out ++ [.readData req [0, 0, 0, 0]]) ∧
      s.onlyRegsOut t [R.GLB_ACCESS_DENIED, R.GLB_ACCESS_LAST, R.GLB_ACCESS_LAST_ADDR]) ∧
  (∀ (req : Requester) (off : Nat) (v : Word) (s : State), off % 4 = 0 → inDebug off = true → s.debugOpen req off = false →
    bit v.toNat 0 = false ∨ (off ≠ R.DBG_SYNC_DUMP_CONTROL ∧ ∀ g, g < 512 → off ≠ R.DBG_TG_CONTROL g) →
    Completes (exec (.secureOnlyAccess req true off v) s) fun t =>
      t.getF F.GLB_ACCESS_LAST_CODE = Code.NOT_AUTHORIZED ∧ t.getF F.GLB_ACCESS_LAST_ADDR_OFFSET = off ∧
      s.onlyRegs t [R.GLB_ACCESS_DENIED, R.GLB_ACCESS_LAST, R.GLB_ACCESS_LAST_ADDR]) ∧
  (∀ (req : Requester) (pch : Nat) (v : Word) (s : State), pch < 512 → bit v.toNat 0 = true →
    s.facilityOpen req 1 = false →
    Completes (exec (.secureOnlyAccess req true (R.DBG_TG_CONTROL pch) v) s) fun t =>
      t.getF (F.DBG_TG_STATUS_STATE pch) = 3 ∧ t.getF F.GLB_ACCESS_LAST_CODE = Code.NOT_AUTHORIZED ∧
      s.onlyRegs t [(F.DBG_TG_STATUS_STATE pch).off, R.GLB_ACCESS_DENIED, R.GLB_ACCESS_LAST, R.GLB_ACCESS_LAST_ADDR]) ∧
  (∀ (req : Requester) (v : Word) (s : State), bit v.toNat 0 = true → s.facilityOpen req 2 = false →
    Completes (exec (.secureOnlyAccess req true R.DBG_SYNC_DUMP_CONTROL v) s) fun t =>
      t.getF F.DBG_SYNC_DUMP_STATUS_STATE = 3 ∧ t.getF F.DBG_SYNC_DUMP_STATUS_LAST_CODE = Code.NOT_AUTHORIZED ∧
      t.getF F.GLB_ACCESS_LAST_CODE = Code.NOT_AUTHORIZED ∧
      s.onlyRegs t [F.DBG_SYNC_DUMP_STATUS_STATE.off, R.GLB_ACCESS_DENIED, R.GLB_ACCESS_LAST, R.GLB_ACCESS_LAST_ADDR])

/-- R8, R415: a write of a register that has no row of its own and is no half of a pair. Each field takes the write by its access code:
a read-only or read-to-clear field ignores it, a RW field takes the value, or where its table gives a range keeps its own outside it, a
W1C field loses the bits written as one, a W1S field gains them, a WO field takes them, and a RWL field takes it only until an image has
locked it. Bits that lie in no field stay as they were, no other register changes, nothing crosses the boundary, and no memory is
touched. Stated for registers that are neither interrupt sources (their fixed target masks ignore writes) nor commands of a port. -/
def Obligations.RegisterWriteTakesEachField : Prop :=
  ∀ (req : Requester) (off : Nat) (v : Word) (r : RegDef) (s : State),
    regAt off = some r → r.ownWrite = false → r.half = .single → s.denied req off = false → s.quietIsland off = none →
    s.regDown off = false → s.gateOpen r off = true → (off < 0x400000 ∨ 0x400400 ≤ off) →
    off ≠ R.JOB_CTX_KV_CMD_3 (ctxOfOff off) → off ≠ R.JOB_CTX_TIER_CMD_7 (ctxOfOff off) → off ≠ R.VID_CTX_CMD_7 (ctxOfOff off) →
    off ≠ R.LNK_ROUTE_SELECT →
    Completes (exec (.registerWrite req off v) s) fun t =>
      (∀ f ∈ r.fields,
        let old := bits (s.reg off).toNat f.hi f.lo
        let new := bits v.toNat f.hi f.lo
        let got := bits (t.reg off).toNat f.hi f.lo
        (f.acc = .ro ∨ f.acc = .rc → got = old) ∧
        (f.acc = .rw → f.range = .any → got = new) ∧
        (∀ lo hi, f.acc = .rw → f.range = .keep lo hi → got = if lo ≤ new ∧ new ≤ hi then new else old) ∧
        (∀ lo hi d, f.acc = .rw → f.range = .back lo hi d →
          got = if lo ≤ new ∧ new ≤ hi then new else d % 2 ^ (f.hi + 1 - f.lo)) ∧
        (f.acc = .w1c → ∀ i, i < f.hi + 1 - f.lo → bit got i = (bit old i && !bit new i)) ∧
        (f.acc = .w1s → ∀ i, i < f.hi + 1 - f.lo → bit got i = (bit old i || bit new i)) ∧
        (f.acc = .wo → got = new) ∧
        (f.acc = .rwl → s.img.locked = true → got = old) ∧
        (f.acc = .rwl → s.img.locked = false → f.range = .any → got = new)) ∧
      (∀ i, i < 32 → (∀ f ∈ r.fields, ¬(f.lo ≤ i ∧ i ≤ f.hi)) → bit (t.reg off).toNat i = bit (s.reg off).toNat i) ∧
      s.regsKept t [off] ∧
      t = { s with regs := t.regs, mail.staged := t.mail.staged }

/-- R8: a read of a register with a field that a read clears answers the word it holds and clears those fields: an event that arrives
during the read is kept and stands in the field afterwards. Its other fields, and every other register, stay. -/
def Obligations.ReadClearsCounters : Prop :=
  ∀ (req : Requester) (off arriving : Nat) (r : RegDef) (s : State),
    regAt off = some r → isRc r = true →
    Completes (exec (.rcRegisterRead req off arriving) s) fun t =>
      t.out = s.out ++ [.readData req (leBytes 4 (s.reg off).toNat)] ∧
      (∀ f ∈ r.fields,
        (f.acc = .rc → bits (t.reg off).toNat f.hi f.lo = min arriving (2 ^ (f.hi + 1 - f.lo) - 1)) ∧
        (f.acc ≠ .rc → bits (t.reg off).toNat f.hi f.lo = bits (s.reg off).toNat f.hi f.lo)) ∧
      s.onlyRegsOut t [off]

/-- R10: a read of _LO answers the lower half and captures the upper one for its requester: that requester's next read of _HI answers
the captured word, whatever the live one has become meanwhile, and uses the capture up. Other requesters' captures stay. A read of _HI
with nothing captured answers the live upper half. -/
def Obligations.PairReadsAreConsistent : Prop :=
  (∀ (req : Requester) (off : Nat) (r : RegDef) (s : State),
    regAt off = some r → r.half = .lo → s.denied req off = false → s.quietIsland off = none → s.pageDown off = false →
    Completes (exec (.pairLoRead req off) s) fun t =>
      t.out = s.out ++ [.readData req (leBytes 4 (s.view off).toNat)] ∧
      stagedLo t.captures req off = some (s.view (off + 4)) ∧
      (∀ q o, (q, o) ≠ (req, off) → stagedLo t.captures q o = stagedLo s.captures q o) ∧
      t = { s with captures := t.captures, out := t.out }) ∧
  (∀ (req : Requester) (off : Nat) (r : RegDef) (s : State),
    regAt off = some r → r.half = .hi → s.denied req off = false → s.quietIsland off = none → s.pageDown off = false →
    Completes (exec (.pairHiRead req off) s) fun t =>
      (∀ w, stagedLo s.captures req (off - 4) = some w → t.out = s.out ++ [.readData req (leBytes 4 w.toNat)]) ∧
      (stagedLo s.captures req (off - 4) = none → t.out = s.out ++ [.readData req (leBytes 4 (s.view off).toNat)]) ∧
      stagedLo t.captures req (off - 4) = none ∧
      (∀ q o, (q, o) ≠ (req, off - 4) → stagedLo t.captures q o = stagedLo s.captures q o) ∧
      t = { s with captures := t.captures, out := t.out })

/-- R10: a write of _LO stages the lower half for its requester and changes neither half; a write of _HI commits both halves at once,
the staged one or, where nothing is staged, the lower half that stands, and uses the staged half up. Another requester's staged half
stays. Stated for pairs whose whole words are RW and take every value. -/
def Obligations.PairWritesCommitBothHalves : Prop :=
  (∀ (req : Requester) (off : Nat) (v : Word) (r : RegDef) (s : State),
    regAt off = some r → r.half = .lo → writable r = true → s.denied req off = false → s.quietIsland off = none →
    s.gateOpen r off = true →
    Completes (exec (.pairLoWrite req off v) s) fun t =>
      stagedLo t.stages req off = some v ∧
      (∀ q o, (q, o) ≠ (req, off) → stagedLo t.stages q o = stagedLo s.stages q o) ∧
      t = { s with stages := t.stages, mail.staged := t.mail.staged }) ∧
  (∀ (req : Requester) (off : Nat) (v : Word) (rl rh : RegDef) (s : State),
    regAt off = some rh → regAt (off - 4) = some rl → 4 ≤ off → rh.half = .hi → rh.ownWrite = false → rh.gate ≠ .bar4 →
    rl.fields = [⟨31, 0, .rw, 0, .any⟩] → rh.fields = [⟨31, 0, .rw, 0, .any⟩] →
    s.denied req off = false → s.quietIsland off = none → s.regDown off = false → s.gateOpen rh off = true →
    Completes (exec (.pairHiWrite req off v) s) fun t =>
      t.reg off = v ∧ t.reg (off - 4) = (stagedLo s.stages req (off - 4)).getD (s.reg (off - 4)) ∧
      stagedLo t.stages req (off - 4) = none ∧
      (∀ q o, (q, o) ≠ (req, off - 4) → stagedLo t.stages q o = stagedLo s.stages q o) ∧
      s.regsKept t [off, off - 4] ∧
      t = { s with regs := t.regs, stages := t.stages, mail.staged := t.mail.staged })

/-! ## The structure image -/

/-- R41, R42: START on an idle loader stores SOURCE and WAIT and takes the image's bytes from the source named: the window range of
SIL_SRC_ADDR and SIL_LENGTH where it is aligned, within the window and free of poison, or the image slot A or B; the loader checks. On
a loader that is not idle it answers IMAGE_BUSY and leaves the load in progress alone, on a retired device DEVICE_RETIRE, and SOURCE 3
fails check 1. CANCEL discards a held image with IMAGE_CANCELLED; with none held it does nothing but store the fields. -/
def Obligations.ImageLoadStartsAndCancels : Prop :=
  (∀ (req : Requester) (v : Word) (s : State), bit v.toNat 0 = true → bit v.toNat 1 = false →
    s.getF F.GLB_PROFILE_RETIRE = 0 → s.getF F.SIL_STATUS_STATE = 0 → bits v.toNat 3 2 ≠ 3 →
    Completes (exec (.silStart req v) s) fun t =>
      t.getF F.SIL_STATUS_STATE = 1 ∧ t.img.wait = bit v.toNat 4 ∧
      (bits v.toNat 3 2 = 1 → t.img.image = s.sec.imageA) ∧ (bits v.toNat 3 2 = 2 → t.img.image = s.sec.imageB) ∧
      (bits v.toNat 3 2 = 0 → s.getP P.SIL_SRC_ADDR % 64 = 0 → s.getP P.SIL_SRC_ADDR + s.getF F.SIL_LENGTH_LENGTH ≤ 2 ^ 30 →
        s.poisoned (s.getP P.SIL_SRC_ADDR) (s.getF F.SIL_LENGTH_LENGTH) = false →
        t.img.image = s.hbm (s.getP P.SIL_SRC_ADDR) (s.getF F.SIL_LENGTH_LENGTH)) ∧
      s.regsKept t [R.SIL_CONTROL, R.SIL_STATUS] ∧
      t = { s with regs := t.regs, img.image := t.img.image, img.wait := t.img.wait }) ∧
  (∀ (req : Requester) (v : Word) (s : State), bit v.toNat 0 = true → bit v.toNat 1 = false →
    s.getF F.GLB_PROFILE_RETIRE = 0 → s.getF F.SIL_STATUS_STATE ≠ 0 →
    Completes (exec (.silStart req v) s) fun t =>
      t.getF F.SIL_STATUS_LAST_CODE = Code.IMAGE_BUSY ∧ t.getF F.SIL_STATUS_DONE = 1 ∧
      t.getF F.SIL_STATUS_STATE = s.getF F.SIL_STATUS_STATE ∧
      s.onlyRegs t [R.SIL_CONTROL, R.SIL_STATUS, R.SIL_FAIL_DETAIL, (F.IRQ_SRC_PENDING 2).off]) ∧
  (∀ (req : Requester) (v : Word) (s : State), bit v.toNat 0 = true → bit v.toNat 1 = false → s.getF F.GLB_PROFILE_RETIRE = 1 →
    Completes (exec (.silStart req v) s) fun t => t.getF F.SIL_STATUS_LAST_CODE = Code.DEVICE_RETIRE ∧ t.img = s.img) ∧
  (∀ (req : Requester) (v : Word) (s : State), bit v.toNat 0 = true → bit v.toNat 1 = false → bits v.toNat 3 2 = 3 →
    s.getF F.GLB_PROFILE_RETIRE = 0 → s.getF F.SIL_STATUS_STATE = 0 →
    Completes (exec (.silStart req v) s) fun t =>
      t.getF F.SIL_STATUS_LAST_CODE = Code.IMAGE_FORMAT ∧ t.getF F.SIL_FAIL_DETAIL_CHECK = 1 ∧ t.getF F.SIL_STATUS_STATE = 0) ∧
  (∀ (req : Requester) (v : Word) (s : State), bit v.toNat 0 = false → bit v.toNat 1 = true → s.getF F.SIL_STATUS_STATE = 2 →
    Completes (exec (.silCancel req v) s) fun t =>
      t.getF F.SIL_STATUS_STATE = 0 ∧ t.getF F.SIL_STATUS_LAST_CODE = Code.IMAGE_CANCELLED ∧ t.img = { s.img with image := [] } ∧
      t.mem = s.mem) ∧
  (∀ (req : Requester) (v : Word) (s : State), bit v.toNat 0 = false → (bit v.toNat 1 = false ∨ s.getF F.SIL_STATUS_STATE ≠ 2) →
    Completes (exec (.silCancel req v) s) fun t => s.onlyRegs t [R.SIL_CONTROL])

/-- R40, R42, R43, R416: when checks 1 to 5 end, the first failure ends the load with its code and its place and leaves the structure in
force as it is; an image that passes is held where WAIT was set, fails check 6 at a moment its KIND does not allow, and is applied where
checks 7 to 9 pass as well. At its moment a held image is checked again from check 5. An image being applied commits, or is discarded
after a fault inside the device; either way the loader is idle afterwards and holds no image, and a commit reports OK and clears the
place of failure. -/
def Obligations.ImageChecksHoldAndCommit : Prop :=
  (∀ (sig : SigVerdict) (s : State) (f : ImageFail), s.getF F.SIL_STATUS_STATE = 1 → s.checks1to4 s.img.image sig = some f →
    Completes (exec (.imageChecksComplete sig) s) fun t =>
      t.getF F.SIL_STATUS_STATE = 0 ∧ t.getF F.SIL_STATUS_DONE = 1 ∧ t.getF F.SIL_STATUS_LAST_CODE = f.code % 2 ^ 16 ∧
      t.getF F.SIL_FAIL_DETAIL_CHECK = f.check % 2 ^ 4 ∧ t.getF F.SIL_FAIL_DETAIL_SECTION = f.place.1 % 2 ^ 6 ∧
      t.getF F.SIL_FAIL_DETAIL_ENTRY = f.place.2 % 2 ^ 22 ∧ t.img = { s.img with image := [] } ∧ t.mem = s.mem) ∧
  (∀ (sig : SigVerdict) (s : State), s.getF F.SIL_STATUS_STATE = 1 → s.checks1to4 s.img.image sig = none →
    s.check5 s.img.image = none → s.img.wait = true →
    Completes (exec (.imageChecksComplete sig) s) fun t =>
      t.getF F.SIL_STATUS_STATE = 2 ∧ t.img = { s.img with digest := sig.digest } ∧ t.mem = s.mem) ∧
  (∀ (sig : SigVerdict) (s : State), s.getF F.SIL_STATUS_STATE = 1 → s.checks1to4 s.img.image sig = none →
    s.check5 s.img.image = none → s.img.wait = false → s.momentOk (imageKind s.img.image) = false →
    Completes (exec (.imageChecksComplete sig) s) fun t =>
      t.getF F.SIL_STATUS_STATE = 0 ∧ t.getF F.SIL_STATUS_LAST_CODE = Code.IMAGE_NOT_AT_LULL ∧
      t.getF F.SIL_FAIL_DETAIL_CHECK = 6 ∧ t.img.sections = s.img.sections ∧ t.img.image = []) ∧
  (∀ (sig : SigVerdict) (s : State), s.getF F.SIL_STATUS_STATE = 1 → s.checks1to4 s.img.image sig = none →
    s.check5 s.img.image = none → s.img.wait = false → s.momentOk (imageKind s.img.image) = true →
    { s with img.digest := sig.digest }.checks7to9 s.img.image = none →
    Completes (exec (.imageChecksComplete sig) s) fun t =>
      t.getF F.SIL_STATUS_STATE = 3 ∧ t.img = { s.img with digest := sig.digest }) ∧
  (∀ s : State, s.getF F.SIL_STATUS_STATE = 2 → s.momentOk (imageKind s.img.image) = true → s.check5 s.img.image = none →
    s.checks7to9 s.img.image = none →
    Completes (exec .heldImageApply s) fun t => t.getF F.SIL_STATUS_STATE = 3 ∧ t.img = s.img ∧ t.mem = s.mem) ∧
  (∀ (s : State) (f : ImageFail), s.getF F.SIL_STATUS_STATE = 2 → s.momentOk (imageKind s.img.image) = true →
    s.check5 s.img.image = some f →
    Completes (exec .heldImageApply s) fun t =>
      t.getF F.SIL_STATUS_STATE = 0 ∧ t.getF F.SIL_STATUS_LAST_CODE = f.code % 2 ^ 16 ∧ t.img = { s.img with image := [] }) ∧
  (∀ s : State, s.getF F.SIL_STATUS_STATE = 3 →
    Completes (exec (.imageApplyCommit false) s) fun t =>
      t.getF F.SIL_STATUS_STATE = 0 ∧ t.getF F.SIL_STATUS_DONE = 1 ∧ t.getF F.SIL_STATUS_LAST_CODE = Code.OK ∧
      t.reg R.SIL_FAIL_DETAIL = 0 ∧ t.img.image = []) ∧
  (∀ s : State, s.getF F.SIL_STATUS_STATE = 3 →
    Completes (exec (.imageApplyCommit true) s) fun t =>
      t.getF F.SIL_STATUS_STATE = 0 ∧ t.getF F.SIL_STATUS_DONE = 1 ∧ t.img = { s.img with image := [] } ∧ t.mem = s.mem)

/-- R47, R48, R205: at a full Lull with no load in the way the oldest core due is retired and leaves the list; where a load is being
checked or applied, or waits for the same full Lull, it waits. An image that no longer fits is withdrawn at a full Lull: no image is in
force, its sections are gone, and every context is FREE. -/
def Obligations.RetirementAndWithdrawal : Prop :=
  (∀ (s : State) (p : Nat) (rest : List Nat), s.momentOk 1 = true → s.rel.retire = p :: rest → s.getF F.SIL_STATUS_STATE = 0 →
    Completes (exec .coreRetirePatch s) fun t => t.rel.retire = rest) ∧
  (∀ s : State, s.momentOk 1 = true → s.rel.retire ≠ [] → s.getF F.SIL_STATUS_STATE = 3 →
    exec .coreRetirePatch s = .next { s with held := s.held ++ [.coreRetirePatch] }) ∧
  (∀ s : State, s.rel.withdraw = true → s.momentOk 1 = true →
    Completes (exec .imageWithdraw s) fun t =>
      t.imageValid = false ∧ t.img.sections = [] ∧ t.rel.withdraw = false ∧ t.rel.deltas = [] ∧ t.job.jobs = [])

/-! ## Steps, jobs and contexts -/

/-- R65, R66, R136, R138: the job whose turn it is takes its cores and its programs start; a start whose structures cannot be read yet is
tried again; where cores are taken from bulk steps, the step waits for their save, and STEP_BEGIN leaves the job saving. A victim whose
cores are all free runs again, one preemption counted. A started core is RUNNING at instruction 0 with its generator seeded, its storage
empty, and no other core changes. -/
def Obligations.StepsBeginAndResume : Prop :=
  (∀ (s t : State) (j : Job) (cores : List Nat), s.nextJob = some j → s.coresFor j = some (cores, []) →
    (s.placeStep j cores []).startPrograms j.uid = some t → exec .stepBegin s = .next t) ∧
  (∀ (s : State) (j : Job) (cores : List Nat), s.nextJob = some j → s.coresFor j = some (cores, []) →
    (s.placeStep j cores []).startPrograms j.uid = none → exec .stepBegin s = .next { s with held := s.held ++ [.stepBegin] }) ∧
  (∀ (s : State) (j : Job) (cores taken : List Nat), s.nextJob = some j → s.coresFor j = some (cores, taken) → taken ≠ [] →
    s.jobOf j.uid = some j →
    Completes (exec .stepBegin s) fun t => ∃ k st, t.jobOf j.uid = some k ∧ k.phase = .saving ∧ k.step = some st ∧
      st.cores = cores ∧ st.number = (j.firstStep + j.done) % 2 ^ 48) ∧
  (∀ (s t : State) (j : Job), s.jobOf j.uid = some j → j.phase = .saving → s.startPrograms j.uid = some t →
    exec (.preemptSaveComplete j.uid) s = .next t) ∧
  (∀ (s : State) (v : Job), s.jobOf v.uid = some v → s.victimReady v = true →
    Completes (exec (.preemptRestoreComplete v.uid) s) fun t =>
      ∃ k, t.jobOf v.uid = some k ∧ k.phase = .running ∧ k.preempts = v.preempts + 1 ∧
        k.delayNs = v.delayNs + (s.timeNs - v.waitFrom)) ∧
  (∀ (s : State) (p logical : Nat) (g : Program), p < 1088 → logical < 2 ^ 11 → g.ctx < 256 →
    let t := s.startCore p logical g
    (t.core p).prog = some g ∧ (t.core p).scratch = [] ∧ (t.core p).acc = [] ∧ (t.core p).checks = [] ∧
    t.getF (F.JOB_CORE_PROGRAM_NEXT p) = 0 ∧ t.getF (F.JOB_CORE_STATUS_LOGICAL p) = logical ∧
    ∀ q, q ≠ p → t.core q = s.core q)

/-- R52, R55: a step that has not drained keeps its Lull waiting. A drained step with no summary to write, in a context that does not
bank, is declared: its job has committed one step more and stands at its Lull, or, after its last step, is gone and has left a
completion record with the status of a finished job. A step that the Lull watchdog finds late is named once in JOB_LATE_UNIT, with no
other effect. -/
def Obligations.LullCommitsTheStep : Prop :=
  (∀ (s : State) (j : Job) (st : StepRun) (late : Nat), s.jobOf j.uid = some j → j.step = some st → st.bankPhase = 0 →
    s.drained j st = false →
    exec (.lullDeclare j.uid late) s = .next { s with held := s.held ++ [.lullDeclare j.uid late] }) ∧
  (∀ (s : State) (j : Job) (st : StepRun) (late : Nat), s.jobOf j.uid = some j → j.step = some st → st.bankPhase = 0 →
    s.drained j st = true → st.summary = 0 → s.banks j.ctx = false → j.done + 1 < j.stepCount →
    Completes (exec (.lullDeclare j.uid late) s) fun t =>
      ∃ k, t.jobOf j.uid = some k ∧ k.done = j.done + 1 ∧ k.step = none ∧ k.phase = .lull ∧ k.waitFrom = s.timeNs) ∧
  (∀ (s : State) (j : Job) (st : StepRun) (late : Nat), s.jobOf j.uid = some j → j.step = some st → st.bankPhase = 0 →
    s.drained j st = true → st.summary = 0 → s.banks j.ctx = false → j.stepCount ≤ j.done + 1 →
    Completes (exec (.lullDeclare j.uid late) s) fun t =>
      t.jobOf j.uid = none ∧ ∃ r, t.job.records = s.job.records ++ [r] ∧ r.uid = j.uid ∧ r.ctx = j.ctx ∧ r.success = true ∧
        (r.status = Code.OK ∨ r.status = Code.OK_EMPTY ∨ r.status = Code.OK_ESCALATED)) ∧
  (∀ (s : State) (j : Job) (st : StepRun) (unit : Nat), s.jobOf j.uid = some j → j.step = some st → st.retiredAt.isSome = true →
    st.watchdog = false → s.getF F.JOB_LULL_WATCHDOG_TIMEOUT_US ≠ 0 →
    Completes (exec (.lullWatchdogExpire j.uid unit) s) fun t =>
      t.getF F.JOB_LATE_UNIT_CONTEXT = j.ctx % 2 ^ 8 ∧ t.getF F.JOB_LATE_UNIT_VALUE = unit % 2 ^ 16 ∧
      t.jobOf j.uid = some { j with step := some { st with watchdog := true } } ∧
      t = { s with regs := t.regs, job.jobs := t.job.jobs } ∧ s.regsKept t [R.JOB_LATE_UNIT, (F.IRQ_SRC_PENDING 3).off])

/-- R71, R62, Table EX-10: the oldest record of a context goes to its slot, 64 bytes with SEQ one above the tail, when the host has
released the slot and the staging has room: the tail and the counter of its status go up by one, and its source is pending. With no room
it waits. A write of RING_HEAD is the host's release. Stated of the record for a context that is not CLOSING. -/
def Obligations.CompletionRecordsArePosted : Prop :=
  (∀ (s : State) (ctx : Nat) (r : Record), ctx < 256 → s.job.records.find? (·.ctx == ctx) = some r → s.postRoom ctx = true →
    s.ctxState ctx ≠ 2 → s.vcOpen (s.vcOf (s.ctxClass ctx)) = true →
    Completes (exec (.completionRecordPost ctx) s) fun t =>
      t.job.records = s.job.records.filter (fun x => x.uid != r.uid) ∧
      t.getF (F.JOB_CTX_RING_TAIL_VALUE ctx) = (s.getF (F.JOB_CTX_RING_TAIL_VALUE ctx) + 1) % 2 ^ 32 ∧
      (isSuccess r.status = true →
        t.getF (F.JOB_CTX_COMPLETED_COUNT ctx) = (s.getF (F.JOB_CTX_COMPLETED_COUNT ctx) + 1) % 2 ^ 32) ∧
      (r.status = Code.ABORTED →
        t.getF (F.JOB_CTX_ABORTED_COUNT ctx) = (s.getF (F.JOB_CTX_ABORTED_COUNT ctx) + 1) % 2 ^ 32) ∧
      .hostWrite (s.vcOf (s.ctxClass ctx)) (s.getP (P.JOB_CTX_RING ctx) + s.getF (F.JOB_CTX_RING_TAIL_VALUE ctx) % 1024 * 64)
        (r.body ++ leBytes 4 (s.getF (F.JOB_CTX_RING_TAIL_VALUE ctx) + 1)) ∈ t.out ∧
      r.job ∈ (t.ctx ctx).recent ∧ t.mem = s.mem ∧ t.img = s.img ∧ t.cores = s.cores) ∧
  (∀ (s : State) (ctx : Nat) (r : Record), s.job.records.find? (·.ctx == ctx) = some r → s.postRoom ctx = false →
    exec (.completionRecordPost ctx) s = .next { s with held := s.held ++ [.completionRecordPost ctx] }) ∧
  (∀ (s : State) (req : Requester) (ctx : Nat) (v : Word), ctx < 256 →
    exec (.ringHeadWrite req ctx v) s = .next (s.setReg (R.JOB_CTX_RING_HEAD ctx) v))

/-- R60, R61, Table EX-15: a creation without an image answers NO_IMAGE, one whose template is not there, is full or finds no free ID
CONTEXT_LIMIT; another opens the free context and names it. A CLOSE of an OPEN context with jobs left makes it CLOSING. A TEARDOWN of an
OPEN context ends its jobs and submissions and makes it TEARDOWN, and it is FREE once its records are posted; until then it waits. -/
def Obligations.ContextsOpenAndClose : Prop :=
  (∀ (s : State) (req : Requester) (v : Word), s.imageValid = false →
    Completes (exec (.contextCreate req v) s) fun t =>
      t.getF F.JOB_CTX_CREATE_RESULT_VALUE = Code.NO_IMAGE ∧ s.onlyRegs t [R.JOB_CTX_CREATE_RESULT]) ∧
  (∀ (s : State) (req : Requester) (v : Word), s.imageValid = true →
    (s.template (bits v.toNat 5 0) = none ∨ s.freeContextId = none) →
    Completes (exec (.contextCreate req v) s) fun t =>
      t.getF F.JOB_CTX_CREATE_RESULT_VALUE = Code.CONTEXT_LIMIT ∧ s.onlyRegs t [R.JOB_CTX_CREATE_RESULT]) ∧
  (∀ (s : State) (req : Requester) (v : Word) (e : List Byte) (c : Nat), s.imageValid = true →
    s.template (bits v.toNat 5 0) = some e → s.freeContextId = some c → s.contextsOf (bits v.toNat 5 0) < leAt e 6 2 →
    (bit (leAt e 3 1) 0 = true ∨ s.policy 6 = false) →
    Completes (exec (.contextCreate req v) s) fun t =>
      t.getF F.JOB_CTX_CREATE_RESULT_VALUE = 0 ∧ t.getF F.JOB_CTX_CREATE_RESULT_CONTEXT = c ∧ t.ctxState c = 1 ∧
      (t.ctx c).partitions = leAt e 4 2 ∧ (t.ctx c).class_ = leAt e 1 1 ∧ (t.ctx c).subs = 0 ∧
      (∀ d, d ≠ c → t.ctx d = s.ctx d) ∧ t.mem = s.mem ∧ t.job.jobs = s.job.jobs) ∧
  (∀ (s : State) (req : Requester) (ctx : Nat) (v : Word), ctx < 256 → bit v.toNat 1 = false → bit v.toNat 0 = true →
    s.ctxState ctx = 1 → s.queueDepth ctx ≠ 0 →
    Completes (exec (.contextClose req ctx v) s) fun t => t.ctxState ctx = 2 ∧ s.onlyRegs t [R.JOB_CTX_STATE ctx]) ∧
  (∀ (s : State) (req : Requester) (ctx : Nat) (v : Word), ctx < 256 → bit v.toNat 1 = false → s.ctxState ctx ≠ 1 →
    exec (.contextClose req ctx v) s = .next s) ∧
  (∀ (s : State) (req : Requester) (ctx : Nat) (v : Word), ctx < 256 → bit v.toNat 1 = true → s.ctxState ctx = 1 →
    Completes (exec (.contextTeardown req ctx v) s) fun t =>
      t.ctxState ctx = 3 ∧ (∀ j ∈ t.job.jobs, j.ctx ≠ ctx) ∧ (∀ f ∈ t.job.fetching, f.ctx ≠ ctx)) ∧
  (∀ (s : State) (req : Requester) (ctx : Nat) (v : Word), ctx < 256 → bit v.toNat 1 = true →
    s.ctxState ctx ≠ 1 → s.ctxState ctx ≠ 2 → s.ctxState ctx ≠ 4 → exec (.contextTeardown req ctx v) s = .next s) ∧
  (∀ (s : State) (ctx : Nat), ctx < 256 → s.ctxState ctx = 3 → s.queueDepth ctx = 0 →
    Completes (exec (.contextTeardownComplete ctx) s) fun t => t.ctxState ctx = 0) ∧
  (∀ (s : State) (ctx : Nat), ctx < 256 → s.ctxState ctx = 3 → s.queueDepth ctx ≠ 0 →
    exec (.contextTeardownComplete ctx) s = .next { s with held := s.held ++ [.contextTeardownComplete ctx] })

/-- R63, R64: a submission commits its pair; one that fails a test at once is decided with that test's code and counted as refused, any
other has its 64-byte descriptor fetched from the host. When the fetch ends, a bad descriptor or a failed fetch is BAD_JOB; a descriptor
that passes every test puts a job at the end of the queue and is counted as submitted. A fetch that the link stalls past its bound is
HOST_STALL_SUSPENDED. The result register answers at once when nothing is being fetched for the context, and waits otherwise. -/
def Obligations.SubmissionsAreDecided : Prop :=
  (∀ (s : State) (req : Requester) (ctx : Nat) (hi lo : Word), ctx < 256 →
    (stagedLo s.stages req (R.JOB_CTX_SUBMIT_LO ctx)).getD (s.reg (R.JOB_CTX_SUBMIT_LO ctx)) = lo →
    s.submitTest ctx (lo.toNat + hi.toNat * 2 ^ 32) = 0 →
    Completes (exec (.jobSubmit req ctx hi) s) fun t =>
      t.reg (R.JOB_CTX_SUBMIT_LO ctx) = lo ∧ t.reg (R.JOB_CTX_SUBMIT_HI ctx) = hi ∧
      t.job.fetching = s.job.fetching ++ [⟨ctx, lo.toNat + hi.toNat * 2 ^ 32, (s.ctx ctx).subs + 1⟩] ∧
      t.out = s.out ++ [.hostRead (s.vcOf (s.ctxClass ctx)) (lo.toNat + hi.toNat * 2 ^ 32) 64] ∧
      (t.ctx ctx).subs = (s.ctx ctx).subs + 1 ∧ t.job.jobs = s.job.jobs ∧
      s.regsKept t [R.JOB_CTX_SUBMIT_LO ctx, R.JOB_CTX_SUBMIT_HI ctx]) ∧
  (∀ (s : State) (req : Requester) (ctx : Nat) (hi lo : Word), ctx < 256 →
    (stagedLo s.stages req (R.JOB_CTX_SUBMIT_LO ctx)).getD (s.reg (R.JOB_CTX_SUBMIT_LO ctx)) = lo →
    s.submitTest ctx (lo.toNat + hi.toNat * 2 ^ 32) ≠ 0 → (s.ctx ctx).decided ≤ (s.ctx ctx).subs + 1 →
    Completes (exec (.jobSubmit req ctx hi) s) fun t =>
      t.getF (F.JOB_CTX_SUBMIT_RESULT_STATUS ctx) = s.submitTest ctx (lo.toNat + hi.toNat * 2 ^ 32) % 2 ^ 16 ∧
      t.getF (F.JOB_CTX_SUBMITTED_COUNT ctx) = (s.getF (F.JOB_CTX_SUBMITTED_COUNT ctx) + 1) % 2 ^ 32 ∧
      t.getF (F.JOB_CTX_REFUSED_COUNT ctx) = (s.getF (F.JOB_CTX_REFUSED_COUNT ctx) + 1) % 2 ^ 32 ∧
      t.job.jobs = s.job.jobs ∧ t.job.fetching = s.job.fetching ∧ t.out = s.out) ∧
  (∀ (s : State) (ctx : Nat) (f : Fetching) (d : List Byte), ctx < 256 → s.job.fetching.find? (·.ctx == ctx) = some f →
    d.length = 64 → s.ctxState ctx = 1 → s.presentTest ctx = 0 → s.descriptorTest ctx d = 0 → (s.ctx ctx).decided ≤ f.number →
    Completes (exec (.descriptorFetchDone ctx (.data d)) s) fun t =>
      (∃ j, t.job.jobs = s.job.jobs ++ [j] ∧ j.ctx = ctx ∧ j.id = leAt d 0 4 ∧ j.coresWanted = leAt d 4 2 ∧ j.program = leAt d 0x10 8 ∧
        j.firstStep = leAt d 0x18 6 ∧ j.stepCount = leAt d 0x20 4 ∧ j.phase = .queued ∧ j.done = 0) ∧
      t.job.fetching = s.job.fetching.filter (· != f) ∧
      t.getF (F.JOB_CTX_SUBMIT_RESULT_STATUS ctx) = 0 ∧ t.getF (F.JOB_CTX_SUBMIT_JOB_VALUE ctx) = leAt d 0 4 ∧ t.mem = s.mem) ∧
  (∀ (s : State) (ctx : Nat) (f : Fetching), ctx < 256 → s.job.fetching.find? (·.ctx == ctx) = some f → s.ctxState ctx = 1 →
    (s.ctx ctx).decided ≤ f.number →
    (Completes (exec (.descriptorFetchDone ctx .failed) s) fun t =>
      t.getF (F.JOB_CTX_SUBMIT_RESULT_STATUS ctx) = Code.BAD_JOB ∧ t.job.jobs = s.job.jobs ∧
      t.job.fetching = s.job.fetching.filter (· != f)) ∧
    (Completes (exec (.descriptorFetchTimeout ctx) s) fun t =>
      t.getF (F.JOB_CTX_SUBMIT_RESULT_STATUS ctx) = Code.HOST_STALL_SUSPENDED ∧ t.job.jobs = s.job.jobs ∧
      t.job.fetching = s.job.fetching.filter (· != f))) ∧
  (∀ (s : State) (req : Requester) (ctx : Nat), ctx < 256 → (∀ f ∈ s.job.fetching, f.ctx ≠ ctx) →
    exec (.submitResultRead req ctx) s =
      .next { s with out := s.out ++ [.readData req (leBytes 4 (s.reg (R.JOB_CTX_SUBMIT_RESULT ctx)).toNat)] }) ∧
  (∀ (s : State) (req : Requester) (ctx : Nat), ctx < 256 → (∃ f ∈ s.job.fetching, f.ctx = ctx) →
    exec (.submitResultRead req ctx) s = .next { s with held := s.held ++ [.submitResultRead req ctx] })

/-- R70: an abort names a job by its ID. A job that holds a queue entry ends with ABORTED and RESULT 1, its step discarded; one whose
success record waits becomes OK_ABORT_LATE, RESULT 2, as for one among the last 64 posted; any other ID is not found, RESULT 3. -/
def Obligations.AbortsFindTheirJob : Prop :=
  (∀ (s : State) (req : Requester) (ctx : Nat) (v : Word) (j : Job), ctx < 256 →
    s.job.jobs.find? (fun j => j.ctx == ctx && j.id == v.toNat) = some j → s.jobOf j.uid = some j →
    Completes (exec (.jobAbort req ctx v) s) fun t =>
      t.getF (F.JOB_CTX_ABORT_RESULT_RESULT ctx) = 1 ∧ (∀ k ∈ t.job.jobs, k.uid ≠ j.uid) ∧
      ∃ r ∈ t.job.records, r.uid = j.uid ∧ r.status = Code.ABORTED ∧ r.ctx = ctx) ∧
  (∀ (s : State) (req : Requester) (ctx : Nat) (v : Word) (r : Record), ctx < 256 →
    s.job.jobs.find? (fun j => j.ctx == ctx && j.id == v.toNat) = none →
    s.job.records.find? (fun r => r.ctx == ctx && r.job == v.toNat && r.success) = some r →
    Completes (exec (.jobAbort req ctx v) s) fun t =>
      t.getF (F.JOB_CTX_ABORT_RESULT_RESULT ctx) = 2 ∧
      (∃ x ∈ t.job.records, x.uid = r.uid ∧ x.status = Code.OK_ABORT_LATE) ∧
      t = { s with regs := t.regs, job.records := t.job.records } ∧
      s.regsKept t [R.JOB_CTX_ABORT ctx, R.JOB_CTX_ABORT_RESULT ctx]) ∧
  (∀ (s : State) (req : Requester) (ctx : Nat) (v : Word), ctx < 256 →
    s.job.jobs.find? (fun j => j.ctx == ctx && j.id == v.toNat) = none →
    s.job.records.find? (fun r => r.ctx == ctx && r.job == v.toNat && r.success) = none →
    Completes (exec (.jobAbort req ctx v) s) fun t =>
      t.getF (F.JOB_CTX_ABORT_RESULT_RESULT ctx) = (if v.toNat ∈ (s.ctx ctx).recent then 2 else 3) ∧
      s.onlyRegs t [R.JOB_CTX_ABORT ctx, R.JOB_CTX_ABORT_RESULT ctx])

/-! ## Tile programs -/

/-- R138, R139, R141, R61: an instruction whose job is preempted, or whose own bytes are not yet readable, waits. A counter that has run
past COUNT, an opcode the table does not have, and an encoding its family does not allow are job faults with ILLEGAL_INSTRUCTION; an
instruction that is not in mapped memory is BAD_PROGRAM; one whose operands break a limit is RESOURCE_OVERFLOW with the lowest kind
broken. A fault ends the job and puts the context in TEARDOWN with the code and the detail. -/
def Obligations.InstructionsIssueInOrder : Prop :=
  (∀ (s : State) (p : Nat) (enc : BitVec 256) (c : Instr) (g : Program) (j : Job), c ∈ tileCommands p enc → p < 1088 →
    (s.core p).prog = some g → s.jobOf g.job = some j → g.retired = false →
    let n := s.getF (F.JOB_CORE_PROGRAM_NEXT p)
    let l := s.getF (F.JOB_CORE_STATUS_LOGICAL p)
    (j.phase = .preempted → exec c s = .next { s with held := s.held ++ [c] }) ∧
    (j.phase = .running → j.ctx < 256 → g.count ≤ n → Completes (exec c s) fun t =>
      t.faulted j Code.ILLEGAL_INSTRUCTION (detailWord Code.ILLEGAL_INSTRUCTION g.count 0 l)) ∧
    (j.phase = .running → n < g.count → s.vFetch g.ctx (g.va + 0x40 + 32 * n) 32 = .wait →
      exec c s = .next { s with held := s.held ++ [c] }) ∧
    (∀ va, j.phase = .running → j.ctx < 256 → n < g.count → s.vFetch g.ctx (g.va + 0x40 + 32 * n) 32 = .mapFault va →
      Completes (exec c s) fun t => t.faulted j Code.BAD_PROGRAM (detailWord Code.BAD_PROGRAM n 0 l))) ∧
  (∀ (s : State) (p : Nat) (enc : BitVec 256) (c : Instr) (g : Program) (j : Job), c ∈ tileCommands p enc → s.fetched p enc g j →
    j.ctx < 256 → fieldOf enc 0 1 = 0 ∨ 0xC < fieldOf enc 0 1 →
    Completes (exec c s) fun t => t.faulted j Code.ILLEGAL_INSTRUCTION
      (detailWord Code.ILLEGAL_INSTRUCTION (s.getF (F.JOB_CORE_PROGRAM_NEXT p)) 0 (s.getF (F.JOB_CORE_STATUS_LOGICAL p)))) ∧
  (∀ (s : State) (p : Nat) (enc : BitVec 256) (c : Instr) (g : Program) (j : Job), s.fetched p enc g j → j.ctx < 256 →
    (fieldOf enc 0 1 = 1 ∧ c = .load p enc ∧ loadLegal enc = false ∨ fieldOf enc 0 1 = 2 ∧ c = .store p enc ∧ storeLegal enc = false ∨
      fieldOf enc 0 1 = 3 ∧ c = .mma p enc ∧ mmaLegal enc = false ∨
      fieldOf enc 0 1 = 5 ∧ vopOp enc ≤ 0x11 ∧ c = vopCommand p enc ∧ vopLegal enc = false ∨
      fieldOf enc 0 1 = 6 ∧ fieldOf enc 1 1 ≤ 9 ∧ c = sfuCommand p enc ∧ sfuLegal enc = false ∨
      fieldOf enc 0 1 = 9 ∧ collOp enc < 5 ∧ c = collCommand p enc ∧ collLegal enc = false) →
    Completes (exec c s) fun t => t.faulted j Code.ILLEGAL_INSTRUCTION
      (detailWord Code.ILLEGAL_INSTRUCTION (s.getF (F.JOB_CORE_PROGRAM_NEXT p)) 0 (s.getF (F.JOB_CORE_STATUS_LOGICAL p)))) ∧
  (∀ (s : State) (p : Nat) (enc : BitVec 256) (c : Instr) (g : Program) (j : Job) (k : Nat), s.fetched p enc g j → j.ctx < 256 →
    k ≠ 0 →
    (fieldOf enc 0 1 = 1 ∧ c = .load p enc ∧ loadLegal enc = true ∧ g.overRows [loadDst enc] = k ∨
      fieldOf enc 0 1 = 5 ∧ vopOp enc ≤ 0x11 ∧ c = vopCommand p enc ∧ vopLegal enc = true ∧ g.overRows (vopOperands enc) = k ∨
      fieldOf enc 0 1 = 6 ∧ fieldOf enc 1 1 ≤ 9 ∧ c = sfuCommand p enc ∧ sfuLegal enc = true ∧
        g.overRows (sfuSrc enc :: sfuDst enc :: sfuFreq enc) = k) →
    Completes (exec c s) fun t => t.faulted j Code.RESOURCE_OVERFLOW
      (detailWord Code.RESOURCE_OVERFLOW (s.getF (F.JOB_CORE_PROGRAM_NEXT p)) k (s.getF (F.JOB_CORE_STATUS_LOGICAL p))))

/-- Tables TP-5 and TP-6: a LOAD puts the bytes it reads of each row in context virtual space into its scratchpad rows, and a STORE puts
its rows, converted or unchanged, into scratchpad rows or into context virtual space; every other byte of the core's stores, every
other core and, but for what a STORE writes, memory stay. A row in one page of HBM reads and writes the bytes at its place (R226). A
STORE in the form of a command fills a free cell of a port, and waits while the cell is busy (R184). -/
def Obligations.LoadsAndStoresMoveRows : Prop :=
  (∀ (s u : State) (p : Nat) (enc : BitVec 256) (g : Program) (j : Job) (bs : List (List Byte)), s.fetched p enc g j →
    fieldOf enc 0 1 = 1 → loadLegal enc = true → g.overRows [loadDst enc] = 0 → s.checkWait p [] [loadDst enc] = false →
    s.collWait p (fieldOf enc 4 8) (loadSpan enc) = false → (s.core p).inbound = [] → (loadDst enc).apart →
    readRuns g.ctx ((List.range (fieldOf enc 20 2)).map fun i => (fieldOf enc 4 8 + i * fieldOf enc 24 4, fieldOf enc 16 4)) s =
      some (bs, u) →
    Completes (exec (.load p enc) s) fun t =>
      s.rowsSet t p (loadDst enc) bs ∧ s.advanced t p ∧ u.onlyCore t p [(F.JOB_CORE_PROGRAM_NEXT p).off] ∧
      (∀ q, q ≠ p → t.core q = s.core q) ∧ t.job = s.job ∧ t.mem.llm = s.mem.llm ∧
      (s.mem.orphanCipher = [] → t.mem.hbm = s.mem.hbm)) ∧
  (∀ (s : State) (ctx va n a : Nat) (w : Bool), va % pageBytes + n ≤ pageBytes → 0 < n → s.portMet ctx va n = none →
    s.place ctx va = .hbm a w → s.poisoned a n = false → s.mem.orphanCipher = [] →
    ∃ u, readRuns ctx [(va, n)] s = some ([s.hbm a n], u) ∧ u.mem.hbm = s.mem.hbm ∧ u.cores = s.cores ∧ u.job = s.job) ∧
  (∀ (s : State) (p : Nat) (enc : BitVec 256) (g : Program) (j : Job), s.fetched p enc g j → fieldOf enc 0 1 = 2 →
    storeLegal enc = true → bit (fieldOf enc 1 1) 1 = false → g.overRows [storeSrc enc, storeDst enc] = 0 →
    s.checkWait p [storeSrc enc] [storeDst enc] = false → (storeDst enc).apart →
    Completes (exec (.store p enc) s) fun t =>
      s.rowsSet t p (storeDst enc) (s.storeRows p enc).1 ∧ s.advanced t p ∧
      ((storeFmts enc).1 = (storeFmts enc).2 → ∀ i, i < (storeSrc enc).rows →
        (s.storeRows p enc).1.getD i [] = s.rowAt p (storeSrc enc) i) ∧
      s.onlyCore t p [(F.JOB_CORE_FLAGS_VECTOR p).off, (F.JOB_CORE_LFSR_STATE p).off, P.JOB_CORE_VEC_BUSY p, P.JOB_CORE_VEC_BUSY p + 4,
        (F.JOB_CORE_PROGRAM_NEXT p).off]) ∧
  (∀ (s u : State) (p : Nat) (enc : BitVec 256) (g : Program) (j : Job), s.fetched p enc g j → fieldOf enc 0 1 = 2 →
    storeLegal enc = true → bit (fieldOf enc 1 1) 1 = true → g.overRows [storeSrc enc] = 0 → s.checkWait p [storeSrc enc] [] = false →
    s.collWait p (storeDst enc).addr ((storeDst enc).stop - (storeDst enc).addr) = false →
    s.queueReads p (storeDst enc).addr ((storeDst enc).stop - (storeDst enc).addr) = false →
    (storeFmts enc).1 = (storeFmts enc).2 →
    writeRuns g.ctx j.uid ((List.range (storeDst enc).rows).map fun i =>
      ((storeDst enc).addr + i * (storeDst enc).stride, s.rowAt p (storeSrc enc) i)) s = some u →
    Completes (exec (.store p enc) s) fun t => u.onlyRegs t [(F.JOB_CORE_PROGRAM_NEXT p).off] ∧ s.advanced t p ∧ t.cores = s.cores) ∧
  (∀ (s : State) (ctx uid va a : Nat) (bs : List Byte), va % pageBytes + bs.length ≤ pageBytes → bs ≠ [] →
    s.portMet ctx va bs.length = none → s.place ctx va = .hbm a true → s.inBanked a = false → s.journal uid a bs.length = some s →
    s.mem.poison = [] → s.mem.fenced = [] → s.mem.orphanCipher = [] →
    ∃ u, writeRuns ctx uid [(va, bs)] s = some u ∧ u.hbm a bs.length = bs ∧
      (∀ b, b < a ∨ a + bs.length ≤ b → u.hbm b 1 = s.hbm b 1) ∧ u.cores = s.cores ∧ u.job = s.job ∧ u.mem.llm = s.mem.llm) ∧
  (∀ (s : State) (p : Nat) (enc : BitVec 256) (g : Program) (j : Job) (kind : PortKind) (o : Nat), s.fetched p enc g j →
    fieldOf enc 0 1 = 2 → storeLegal enc = true → bit (fieldOf enc 1 1) 1 = true → g.overRows [storeSrc enc] = 0 →
    s.checkWait p [storeSrc enc] [] = false →
    s.collWait p (storeDst enc).addr ((storeDst enc).stop - (storeDst enc).addr) = false →
    s.queueReads p (storeDst enc).addr ((storeDst enc).stop - (storeDst enc).addr) = false →
    fieldOf enc 16 2 = 1 → storeFmts enc = (0, 0) → 4 * fieldOf enc 18 2 = cellCmdBytes kind →
    s.portMet g.ctx (storeDst enc).addr (cellCmdBytes kind) = some (kind, some o) → o < 65536 → o % 64 = 0 →
    ((s.cell kind g.ctx (o / 64)).any (·.busy) = true →
      exec (.store p enc) s = .next { s with held := s.held ++ [.store p enc] }) ∧
    ((s.cell kind g.ctx (o / 64)).any (·.busy) = false →
      Completes (exec (.store p enc) s) fun t => s.advanced t p ∧ t.cores = s.cores ∧ t.mem = s.mem ∧
        ∃ c, t.cell kind g.ctx (o / 64) = some c ∧ c.busy = true ∧ c.job = j.uid ∧ c.core = p ∧
          c.cmd = leNat (s.rowAt p (storeSrc enc) 0)))

/-- Tables TP-7 and TP-8, R80 to R89, R155: an MMA, and a CONV on the matrix engine, leaves in each of its output tiles what the engine
makes of the operands at the rung it runs at; its partial tiles read zero; a tile selected for verification is with the check unit; the
scratchpad, but for a CONV's OUT rows, and every other core stay. A CONV with no row present changes no store. -/
def Obligations.MatrixTilesAreComputed : Prop :=
  (∀ (s : State) (p : Nat) (enc : BitVec 256) (g : Program) (j : Job) (c : Instr) (x : Plan), s.fetched p enc g j →
    (fieldOf enc 0 1 = 3 ∧ c = .mma p enc ∧ x = mmaPlan enc ∧ mmaLegal enc = true ∧ s.planOver p j.uid x g = 0 ∧
        s.mmaWait p j.uid x = false ∨
      (s.convCode p enc = 0x400 ∧ c = .conv p enc ∨ s.convCode p enc = 0x401 ∧ c = .convExpanded p enc) ∧ x = s.convPlan p enc ∧
        (g.breaks (rowOne false (fieldOf enc 12 4) 64)).1 = false ∧ s.convLegal p enc = true ∧ s.convOver p enc j.uid g = 0 ∧
        x.empty = false ∧ s.convWait p enc j.uid = false) →
    s.guardBad p j.uid x = false →
    Completes (exec c s) fun t =>
      (∀ k, k < x.tiles → t.accBytes p (x.tileAt k).1 (x.tileAt k).2 =
        (s.runTile p x (srcsAt x (s.guardAt p x) (s.firstRung p j.uid x)) k (s.tileBytes p x k)
          (s.tileProj p x (srcsAt x (s.guardAt p x) (s.firstRung p j.uid x)) k)).1) ∧
      (needsPartial x.cls x.p = true → t.accBytes p ((x.first + x.tiles) * 16384) (x.tiles * 16384) =
        List.replicate (x.tiles * 16384) 0) ∧
      (t.core p).checks.length = (s.core p).checks.length + (s.selected p j.uid x).length ∧
      (fieldOf enc 0 1 = 3 → (t.core p).scratch = (s.core p).scratch) ∧
      s.advanced t p ∧ (∀ q, q ≠ p → t.core q = s.core q) ∧
      t = { s with regs := t.regs, cores := t.cores, job.jobs := t.job.jobs } ∧
      s.regsKept t [R.JOB_CORE_FLAGS p, P.JOB_CORE_MMA_BUSY p, P.JOB_CORE_MMA_BUSY p + 4, P.JOB_CORE_WSTALL p, P.JOB_CORE_WSTALL p + 4,
        P.JOB_CORE_PSTALL p, P.JOB_CORE_PSTALL p + 4, P.JOB_CORE_SIDESTALL p, P.JOB_CORE_SIDESTALL p + 4,
        P.JOB_CORE_CONV_VECTORS p, P.JOB_CORE_CONV_VECTORS p + 4, (F.JOB_CORE_CONV_PADDED_COUNT p).off, P.JOB_CORE_VEC_BUSY p,
        P.JOB_CORE_VEC_BUSY p + 4, (F.JOB_CORE_LFSR_STATE p).off, (F.JOB_CORE_PROGRAM_NEXT p).off]) ∧
  (∀ (s : State) (p : Nat) (enc : BitVec 256) (g : Program) (j : Job) (c : Instr), s.fetched p enc g j →
    (s.convCode p enc = 0x400 ∧ c = .conv p enc ∧ s.guardBad p j.uid (s.convPlan p enc) = false ∨
      s.convCode p enc = 0x402 ∧ c = .maxPool p enc ∨ s.convCode p enc = 0x403 ∧ c = .averagePool p enc) →
    (g.breaks (rowOne false (fieldOf enc 12 4) 64)).1 = false → s.convLegal p enc = true → s.convOver p enc j.uid g = 0 →
    (s.convPlan p enc).empty = true → s.checkWait p [rowOne false (fieldOf enc 12 4) 64] [] = false →
    Completes (exec c s) fun t =>
      t.core p = { s.core p with emptyConv := true } ∧ s.advanced t p ∧
      t.getF (F.JOB_CORE_CONV_EMPTY_COUNT p) = (s.getF (F.JOB_CORE_CONV_EMPTY_COUNT p) + 1) % 2 ^ 32 ∧
      s.onlyCore t p [(F.JOB_CORE_CONV_EMPTY_COUNT p).off, (F.JOB_CORE_PROGRAM_NEXT p).off])

/-- R156, Table CNV-4: a pool leaves in row m of its tiles the 64 largest or average values of the taps of output position m, zero
where the position is not present or the channel lies beyond C; the rows of its last tile beyond M stay. -/
def Obligations.PoolsReduceTheirTaps : Prop :=
  ∀ (s : State) (p : Nat) (enc : BitVec 256) (g : Program) (j : Job) (c : Instr) (w : Window) (a : Nat), s.fetched p enc g j →
    (s.convCode p enc = 0x402 ∧ c = .maxPool p enc ∨ s.convCode p enc = 0x403 ∧ c = .averagePool p enc) →
    (g.breaks (rowOne false (fieldOf enc 12 4) 64)).1 = false → s.convLegal p enc = true → s.convOver p enc j.uid g = 0 →
    (s.convPlan p enc).rows = .window w a → (s.convPlan p enc).empty = false → hasEpilogue enc = false →
    s.checkWait p (rowOne false (s.convPlan p enc).desc 64 :: (s.convPlan p enc).actRows a (s.convPlan p enc).aFmt 0 (s.convPlan p enc).m)
      [rowOne true ((s.convPlan p enc).first * 16384) ((s.convPlan p enc).tiles * 16384)] = false →
    Completes (exec c s) fun t =>
      (∀ m, m < (s.convPlan p enc).m → t.accBytes p ((s.convPlan p enc).first * 16384 + 256 * m) 256 =
        (s.poolRow p w a (s.convPlan p enc).aFmt m).1) ∧
      (∀ m, w.present m = false → (s.poolRow p w a (s.convPlan p enc).aFmt m).1 = List.replicate 256 0) ∧
      (∀ b, b < (s.convPlan p enc).first * 16384 ∨ (s.convPlan p enc).first * 16384 + 256 * (s.convPlan p enc).m ≤ b →
        t.accBytes p b 1 = s.accBytes p b 1) ∧
      (t.core p).scratch = (s.core p).scratch ∧ s.advanced t p ∧
      s.onlyCore t p [R.JOB_CORE_FLAGS p, P.JOB_CORE_CONV_VECTORS p, P.JOB_CORE_CONV_VECTORS p + 4, P.JOB_CORE_VEC_BUSY p,
        P.JOB_CORE_VEC_BUSY p + 4, (F.JOB_CORE_PROGRAM_NEXT p).off]

/-- Table VEC-1, R160, R161, Table VEC-6: each of the VOPs but those of the soft maximum leaves in row r of D what its operation makes of
row r of A and of B, delivered in DST_FMT; with FP32 there, the words themselves. Every source row is read before any result is written. The
vector flags gain what the rows raise, the vector unit is busy for the operation's cycles, and nothing else changes. -/
def Obligations.VectorOpsComputeRows : Prop :=
  ∀ (s : State) (p : Nat) (enc : BitVec 256) (g : Program) (j : Job), s.fetched p enc g j → fieldOf enc 0 1 = 5 → vopOp enc < 0x10 →
    vopLegal enc = true → g.overRows (vopOperands enc) = 0 → s.checkWait p (vopReads enc) (vopWrites enc) = false →
    (vopD enc).apart →
    Completes (exec (vopCommand p enc) s) fun t =>
      s.rowsSet t p (vopD enc) (s.vopRows p enc (vopResult enc)).1 ∧
      (vopDstFmt enc = 0 → ∀ r, r < vopRows enc → (s.vopRows p enc (vopResult enc)).1.getD r [] =
        (vopResult enc (s.vopIn p enc (vopA enc) r).1 (s.vopBIn p enc r).1).1.flatMap (leBytes 4)) ∧
      (vopDstFmt enc = 0 → ∀ i, i < 32 → bit (t.reg (R.JOB_CORE_FLAGS p)).toNat i =
        (bit (s.reg (R.JOB_CORE_FLAGS p)).toNat i ||
          (decide (4 ≤ i ∧ i < 8) && (List.range (vopRows enc)).any fun r => bit (s.vopFlags p enc r).toNat (i - 4)))) ∧
      t.getP (P.JOB_CORE_VEC_BUSY p) = (s.getP (P.JOB_CORE_VEC_BUSY p) + (vopRows enc * vopCost enc + 16)) % 2 ^ 64 ∧
      s.advanced t p ∧
      s.onlyCore t p ([R.JOB_CORE_FLAGS p, P.JOB_CORE_VEC_BUSY p, P.JOB_CORE_VEC_BUSY p + 4, (F.JOB_CORE_PROGRAM_NEXT p).off] ++
        if vopModes enc % 4 = 2 then [(F.JOB_CORE_LFSR_STATE p).off] else [])

/-- R166 to R168, R162: SOFTMAX leaves in row r of D the soft maximum of the scaled scores of row r of A and, where B is given, the row's
log-sum-exp in B's word r; a row out of range is counted once. SOFTMAX_LSE rebuilds row r of D from the scores and B's word r. -/
def Obligations.SoftMaximumRows : Prop :=
  (∀ (s : State) (p : Nat) (enc : BitVec 256) (g : Program) (j : Job), s.fetched p enc g j → fieldOf enc 0 1 = 5 → vopOp enc = 0x10 →
    vopLegal enc = true → g.overRows (vopOperands enc) = 0 → s.checkWait p (vopReads enc) (vopWrites enc) = false →
    (vopD enc).apart →
    Completes (exec (.softmax p enc) s) fun t =>
      (∀ r, r < vopRows enc → t.rowAt p (vopD enc) r = (s.softRowAt p enc r).out.flatMap (leBytes 4)) ∧
      (∀ b r, vopB enc = some b → r < vopRows enc → t.runAt p b.acc (b.addr + 4 * r) 4 = leBytes 4 (s.softRowAt p enc r).lse) ∧
      t.getF (F.JOB_CORE_SOFTMAX_RANGE_COUNT p) = (s.getF (F.JOB_CORE_SOFTMAX_RANGE_COUNT p) +
        ((List.range (vopRows enc)).filter fun r => (s.softRowAt p enc r).range).length) % 2 ^ 32 ∧
      s.advanced t p ∧
      s.onlyCore t p [R.JOB_CORE_FLAGS p, (F.JOB_CORE_SOFTMAX_RANGE_COUNT p).off, P.JOB_CORE_VEC_BUSY p, P.JOB_CORE_VEC_BUSY p + 4,
        (F.JOB_CORE_PROGRAM_NEXT p).off]) ∧
  (∀ (s : State) (p : Nat) (enc : BitVec 256) (g : Program) (j : Job), s.fetched p enc g j → fieldOf enc 0 1 = 5 → vopOp enc = 0x11 →
    vopLegal enc = true → g.overRows (vopOperands enc) = 0 → s.checkWait p (vopReads enc) (vopWrites enc) = false →
    (vopD enc).apart →
    Completes (exec (.softmaxLse p enc) s) fun t =>
      s.rowsSet t p (vopD enc) ((List.range (vopRows enc)).map fun r =>
        (softLseRow (vopScalar enc) ((s.vopBIn p enc r).1.headD 0) (s.vopIn p enc (vopA enc) r).1).1.flatMap (leBytes 4)) ∧
      s.advanced t p ∧
      s.onlyCore t p [R.JOB_CORE_FLAGS p, P.JOB_CORE_VEC_BUSY p, P.JOB_CORE_VEC_BUSY p + 4, (F.JOB_CORE_PROGRAM_NEXT p).off])

/-- Table VEC-3, R169 to R171: an SFU function leaves in word i of its destination the function of element i of its source, and
SINCOS_POS the sine and cosine of each axis position times each frequency; the special-function flags gain what the elements raise, and
nothing else changes. -/
def Obligations.SpecialFunctionsComputeElements : Prop :=
  (∀ (s : State) (p : Nat) (enc : BitVec 256) (g : Program) (j : Job), s.fetched p enc g j → fieldOf enc 0 1 = 6 → fieldOf enc 1 1 ≤ 9 →
    sfuLegal enc = true → g.overRows (sfuSrc enc :: sfuDst enc :: sfuFreq enc) = 0 → s.sfuWait p enc = false →
    let vs := decodeRow (fieldOf enc 2 1) (fieldOf enc 12 4) (s.rowAt p (sfuSrc enc) 0)
    Completes (exec (sfuCommand p enc) s) fun t =>
      s.rowsSet t p (sfuDst enc) [vs.flatMap fun v => leBytes 4 (sfuBy (fieldOf enc 1 1) (widenSource v).1).1] ∧
      (∀ i, i < 32 → bit (t.reg (R.JOB_CORE_FLAGS p)).toNat i = (bit (s.reg (R.JOB_CORE_FLAGS p)).toNat i ||
        (decide (8 ≤ i ∧ i < 12) && vs.any fun v => bit (sfuBy (fieldOf enc 1 1) (widenSource v).1).2.toNat (i - 8)))) ∧
      s.advanced t p ∧ s.onlyCore t p [R.JOB_CORE_FLAGS p, (F.JOB_CORE_PROGRAM_NEXT p).off]) ∧
  (∀ (s : State) (p : Nat) (enc : BitVec 256) (g : Program) (j : Job), s.fetched p enc g j → fieldOf enc 0 1 = 6 →
    fieldOf enc 1 1 = 0xA → sfuLegal enc = true → g.overRows (sfuSrc enc :: sfuDst enc :: sfuFreq enc) = 0 → s.sfuWait p enc = false →
    let freqs := (chunk 8 (sincosSum enc) (s.scratch p (fieldOf enc 16 4) (8 * sincosSum enc))).map leNat
    Completes (exec (.sincosPos p enc) s) fun t =>
      s.rowsSet t p (sfuDst enc) ((chunk 12 (fieldOf enc 12 4) (s.rowAt p (sfuSrc enc) 0)).map fun b =>
        (sincosToken (sincosAxes enc) freqs (wordsOf b)).1.flatMap (leBytes 4)) ∧
      s.advanced t p ∧ s.onlyCore t p [R.JOB_CORE_FLAGS p, (F.JOB_CORE_PROGRAM_NEXT p).off])

/-- R191, R192, R197, R199: a scan without SELECT reads its header and list, pins the pages, each as often as the list names it, and runs
when it is tried again; a scan of pinned pages leaves in OUT row r the BF16 results and in STATS word r the log-sum-exp of query row r,
or backward the BF16 probabilities of each page, and its pins are released. A damaged page that is lost is KV_PAGE_LOST; a scan whose list
the retrieval engine still owes waits. R188, R189: the engine answers the oldest request of its die with pages of the candidates, or null
pages, and writes no memory. -/
def Obligations.ListsArePinnedAndScanned : Prop :=
  (∀ (s s1 s2 : State) (p : Nat) (enc : BitVec 256) (g : Program) (j : Job) (c : Instr) (h es : List Byte), s.fetched p enc g j →
    fieldOf enc 0 1 = 7 → (attnBack enc = false ∧ c = .attnScanForward p enc ∨ attnBack enc = true ∧ c = .attnScanBackward p enc) →
    attnLegal enc = true → g.overRows [attnStats enc] = 0 → (s.core p).scan = none → s.kvPart.isSome = true → attnList enc % 64 = 0 →
    s.vRead g.ctx (attnList enc) 64 = .ok (h, s1) → hdrOk enc h = true → hdrSelect h = false →
    (∀ r ∈ attnRanges enc h, s.collWait p r.1 r.2 = false) →
    s1.vRead g.ctx (attnList enc + 64) (4 * attnPages enc) = .ok (es, s2) → s2.judgeList g.ctx (wordsOf es) = .ok →
    s2.pinShort (wordsOf es) = none →
    Completes (exec c s) fun t =>
      (t.core p).scan = some ⟨attnPages enc, h, [], [], wordsOf es, 2⟩ ∧ t.held = s.held ++ [c] ∧
      (∀ i, (t.kvPage i).pins = (s.kvPage i).pins + ((realIds (wordsOf es)).filter (· % 2 ^ 24 == i)).length) ∧
      (∀ q, q ≠ p → t.core q = s.core q)) ∧
  (∀ (s : State) (p : Nat) (enc : BitVec 256) (g : Program) (j : Job) (x : Scan), s.fetched p enc g j → fieldOf enc 0 1 = 7 →
    attnBack enc = false → attnLegal enc = true → g.overRows [attnStats enc] = 0 → (s.core p).scan = some x → x.stage = 2 →
    realIds x.ids ≠ [] → (∀ id ∈ realIds x.ids, (s.kvPage (id % 2 ^ 24)).state ≠ 4 ∧ (s.kvPage (id % 2 ^ 24)).state ≠ 5) →
    let d := kvDim (s.listFmt x.ids)
    g.overRows ((attnUses enc x.hdr d).1 ++ (attnUses enc x.hdr d).2) = 0 →
    s.checkWait p (attnUses enc x.hdr d).1 (attnUses enc x.hdr d).2 = false →
    (∀ r ∈ attnRanges enc x.hdr, s.collWait p r.1 r.2 = false) → (hdrWrite x.hdr = false ∨ hdrStore x.hdr = 0) →
    (attnOut enc d).overlaps (attnStats enc) = false →
    Completes (exec (.attnScanForward p enc) s) fun t =>
      (∀ r q, (s.attnQRows p enc x.hdr d)[r]? = some q →
        let o := attnRowOut (hdrFmt x.hdr == 1) (hdrCausal x.hdr) (leAt x.hdr 4 4) (leAt x.hdr 8 4 + r % attnRows enc) d (s.listData x.ids) q
        t.scratch p (fieldOf enc 8 4 + r * (attnOut enc d).stride) (2 * d) =
            (convertRow 0 1 .rne false (o.words.map fun _ => 0) (o.words.map fp)).bytes ∧
          t.scratch p (fieldOf enc 12 4 + 4 * r) 4 = leBytes 4 o.lse) ∧
      (t.core p).scan = none ∧ s.advanced t p ∧ t.mem.hbm = s.mem.hbm ∧ t.mem.llm = s.mem.llm ∧ ∀ q, q ≠ p → t.core q = s.core q) ∧
  (∀ (s : State) (p : Nat) (enc : BitVec 256) (g : Program) (j : Job) (x : Scan), s.fetched p enc g j → fieldOf enc 0 1 = 7 →
    attnBack enc = true → attnLegal enc = true → g.overRows [attnStats enc] = 0 → (s.core p).scan = some x → x.stage = 2 →
    realIds x.ids ≠ [] → x.ids.length ≤ attnPages enc →
    (∀ id ∈ realIds x.ids, (s.kvPage (id % 2 ^ 24)).state ≠ 4 ∧ (s.kvPage (id % 2 ^ 24)).state ≠ 5 ∧ (s.kvPage (id % 2 ^ 24)).fill ≤ 256) →
    let d := kvDim (s.listFmt x.ids)
    g.overRows ((attnUses enc x.hdr d).1 ++ (attnUses enc x.hdr d).2) = 0 →
    s.checkWait p (attnUses enc x.hdr d).1 (attnUses enc x.hdr d).2 = false →
    (∀ r ∈ attnRanges enc x.hdr, s.collWait p r.1 r.2 = false) → hdrRead x.hdr = false →
    Completes (exec (.attnScanBackward p enc) s) fun t =>
      (∀ r q i y, (s.attnQRows p enc x.hdr d)[r]? = some q → (s.listData x.ids)[i]? = some y →
        t.scratch p (scoreAddr enc 0 r i * 2 + fieldOf enc 8 4) 512 =
          (pageProbs true (s.attnLse p enc r) (pageScores (hdrFmt x.hdr == 1) (hdrCausal x.hdr) (leAt x.hdr 4 4)
            (leAt x.hdr 8 4 + r % attnRows enc) q y).1).flatMap (leBytes 2)) ∧
      (t.core p).scan = none ∧ s.advanced t p ∧ t.mem.hbm = s.mem.hbm ∧ t.mem.llm = s.mem.llm ∧ ∀ q, q ≠ p → t.core q = s.core q) ∧
  (∀ (s : State) (p : Nat) (enc : BitVec 256) (g : Program) (j : Job) (x : Scan) (c : Instr), s.fetched p enc g j → fieldOf enc 0 1 = 7 →
    (attnBack enc = false ∧ c = .attnScanForward p enc ∨ attnBack enc = true ∧ c = .attnScanBackward p enc) → attnLegal enc = true →
    g.overRows [attnStats enc] = 0 → (s.core p).scan = some x →
    (x.stage = 0 → exec c s = .next { s with held := s.held ++ [c] }) ∧
    (x.stage = 2 → j.ctx < 256 → (∃ id ∈ realIds x.ids, (s.kvPage (id % 2 ^ 24)).state = 5) →
      Completes (exec c s) fun t => t.ctxState j.ctx = 3 ∧ (t.ctx j.ctx).fault = Code.KV_PAGE_LOST ∧ t.jobOf j.uid = none)) ∧
  (∀ (s : State) (core : Nat) (x : Scan) (g : Program), s.kv.asked.find? (fun c => c / 272 == core / 272) = some core →
    (s.core core).scan = some x → (s.core core).prog = some g →
    Completes (exec (.retrievalComplete core) s) fun t =>
      (∃ y, (t.core core).scan = some y ∧ y.stage = 1 ∧ y.hdr = x.hdr ∧ ∀ id ∈ y.ids, id = nullPage ∨ id ∈ x.cands) ∧
      t.kv.asked = s.kv.asked.erase core ∧ t.kv.pages = s.kv.pages ∧ t.mem.hbm = s.mem.hbm ∧ t.mem.llm = s.mem.llm ∧
      ∀ q, q ≠ core → t.core q = s.core q)

/-- R145, R146, R76: a PUT hands its rows to the mesh for the partner's halo buffer. The oldest PUT to a core that runs lands at its offset in
the buffer and is counted there; a PUT that does not fit is a fault of its sender; for a core that is not running it waits. A WAIT whose
bytes have arrived takes them from the count; before that it stands in the inbound queue, and the program goes on. -/
def Obligations.HaloBytesArrive : Prop :=
  (∀ (s : State) (p : Nat) (enc : BitVec 256) (g : Program) (j : Job), s.fetched p enc g j → fieldOf enc 0 1 = 8 → fieldOf enc 2 1 = 0 →
    haloLegal enc j.coresWanted = true → g.overRows [putSrc enc] = 0 → s.checkWait p [putSrc enc] [] = false →
    Completes (exec (.haloPut p enc) s) fun t =>
      t.job.puts = s.job.puts ++ [⟨j.uid, p, s.getF (F.JOB_CORE_PROGRAM_NEXT p), fieldOf enc 4 2, fieldOf enc 1 1, fieldOf enc 24 4,
        (List.range (putSrc enc).rows).flatMap (s.rowAt p (putSrc enc))⟩] ∧
      t.core p = { s.core p with prog := some { g with communicated := true } } ∧ s.advanced t p ∧
      t = { s with regs := t.regs, cores := t.cores, job.puts := t.job.puts } ∧ (∀ q, q ≠ p → t.core q = s.core q) ∧
      s.regsKept t [(F.JOB_CORE_PROGRAM_NEXT p).off]) ∧
  (∀ (s : State) (p : Nat) (enc : BitVec 256) (g : Program) (j : Job), s.fetched p enc g j → fieldOf enc 0 1 = 8 → fieldOf enc 2 1 = 1 →
    haloLegal enc j.coresWanted = true → g.haloBreaks (fieldOf enc 1 1) = false →
    s.checkWait p [] [rowOne false (g.haloBuf (fieldOf enc 1 1)).addr (g.haloBuf (fieldOf enc 1 1)).size] = false →
    (s.core p).inbound = [] →
    Completes (exec (.haloWait p enc) s) fun t =>
      (fieldOf enc 12 4 ≤ s.haloCount p (fieldOf enc 1 1) →
        t.haloCount p (fieldOf enc 1 1) = s.haloCount p (fieldOf enc 1 1) - fieldOf enc 12 4 ∧ (t.core p).inbound = []) ∧
      (s.haloCount p (fieldOf enc 1 1) < fieldOf enc 12 4 →
        t.haloCount p (fieldOf enc 1 1) = s.haloCount p (fieldOf enc 1 1) ∧ (t.core p).inbound.map (·.enc) = [enc]) ∧
      (t.core p).scratch = (s.core p).scratch ∧ s.advanced t p ∧ s.onlyCore t p [(F.JOB_CORE_PROGRAM_NEXT p).off]) ∧
  (∀ (s : State) (core : Nat) (q : MeshPut) (g : Program) (j : Job),
    s.job.puts.find? (fun q => s.rankCore q.job q.dest == some core) = some q →
    (s.runsJob core q.job = none → exec (.haloDataArrive core) s = .next { s with held := s.held ++ [.haloDataArrive core] }) ∧
    (s.runsJob core q.job = some g → g.haloBreaks q.buf = false → q.offset + q.data.length ≤ (g.haloBuf q.buf).size →
      (s.core core).inbound = [] → q.buf < (s.core core).halo.length →
      Completes (exec (.haloDataArrive core) s) fun t =>
        t.scratch core ((g.haloBuf q.buf).addr + q.offset) q.data.length = q.data ∧
        t.haloCount core q.buf = s.haloCount core q.buf + q.data.length ∧ (t.core core).haloHit = true ∧
        t.job.puts = s.job.puts.erase q ∧ (∀ p, p ≠ core → t.core p = s.core p) ∧
        t = { s with cores := t.cores, job.puts := t.job.puts }) ∧
    (s.runsJob core q.job = some g → (g.haloBreaks q.buf = true ∨ (g.haloBuf q.buf).size < q.offset + q.data.length) →
      s.jobOf q.job = some j → j.ctx < 256 →
      Completes (exec (.haloDataArrive core) s) fun t => t.faulted j Code.RESOURCE_OVERFLOW
        (detailWord Code.RESOURCE_OVERFLOW q.index 4 (s.getF (F.JOB_CORE_STATUS_LOGICAL q.from_)))))

/-- R268, R269: the first SYNC of an identifier binds a clear object to the group its descriptor names. An ARRIVE counts its rank once a
phase, and waits where the rank has arrived already; the last arrival at a root with no children completes the phase. A WAIT is complete
once the phase of its rank's last arrival is, and waits before that. An ARRIVE_WAIT that completes the phase is complete; otherwise it has
arrived, once, and waits for the phase. Another descriptor for a bound identifier, or a rank outside the group, is SYNC_GROUP_BAD. -/
def Obligations.BarriersArriveAndRelease : Prop :=
  (∀ (s s1 s2 : State) (p : Nat) (enc : BitVec 256) (g : Program) (j : Job) (d e : List Byte), s.fetched p enc g j →
    fieldOf enc 0 1 = 0xA → fieldOf enc 1 1 = 1 → syncLegal enc = true → g.slotOver (fieldOf enc 4 2) = 0 →
    s.boundTo g.ctx j.uid (fieldOf enc 4 2) = none → g.arrived = [] →
    (∀ st, j.step = some st → (s.fab.objs.filter (·.job == j.uid)).length < 2 * st.cores.length) → j.step.isSome = true →
    s.vRead g.ctx (fieldOf enc 8 8) 160 = .ok (d, s1) → s1.groupBad g.ctx j.uid (fieldOf enc 4 2) (fieldOf enc 8 8) g.rank d = false →
    leAt d 8 4 = 1 → s1.vRead g.ctx (leAt d 0x18 8) 4 = .ok (e, s2) → leNat e = s2.deviceId + g.ctx * 2 ^ 20 →
    Completes (exec (.wait p enc) s) fun t =>
      (∃ o, t.boundTo g.ctx j.uid (fieldOf enc 4 2) = some o ∧ o.desc = fieldOf enc 8 8 ∧ o.ranks = maskRanks (leAt d 0x20 128) ∧
        o.members = 1 ∧ o.phase = 0 ∧ o.arrived = [] ∧ o.run = none) ∧
      (∃ h, (t.core p).prog = some h ∧ fieldOf enc 4 2 ∈ h.named) ∧ s.advanced t p) ∧
  (∀ (s : State) (p : Nat) (enc : BitVec 256) (g : Program) (j : Job) (o : SyncObj), s.fetched p enc g j → fieldOf enc 0 1 = 0xA →
    syncLegal enc = true → g.slotOver (fieldOf enc 4 2) = 0 → s.boundTo g.ctx j.uid (fieldOf enc 4 2) = some o →
    s.syncAt o.index = some o → o.desc = fieldOf enc 8 8 → g.rank ∈ o.ranks →
    (fieldOf enc 1 1 = 0 → g.rank ∈ o.arrived → exec (.arrive p enc) s = .next { s with held := s.held ++ [.arrive p enc] }) ∧
    (fieldOf enc 1 1 = 0 → g.rank ∉ o.arrived → o.arrived.length + 1 < o.ranks.length →
      Completes (exec (.arrive p enc) s) fun t =>
        (∃ x, t.syncAt o.index = some x ∧ x.arrived = o.arrived ++ [g.rank] ∧ x.phase = o.phase) ∧
        (∃ h, (t.core p).prog = some h ∧ (o.ident, o.phase) ∈ h.arrived) ∧ s.advanced t p ∧ t.mem = s.mem ∧
        ∀ q, q ≠ p → t.core q = s.core q) ∧
    (fieldOf enc 1 1 = 0 → g.rank ∉ o.arrived → o.arrived.length + 1 = o.ranks.length → o.parent = none → o.children = [] →
      o.childArrived = [] →
      Completes (exec (.arrive p enc) s) fun t =>
        (∃ x, t.syncAt o.index = some x ∧ x.arrived = [] ∧ x.phase = o.phase + 1) ∧ s.advanced t p ∧ t.mem = s.mem ∧
        ∀ q, q ≠ p → t.core q = s.core q) ∧
    (∀ ph, fieldOf enc 1 1 = 1 → g.arrived.find? (fun e => e.1 == o.ident) = some (o.ident, ph) → ph < o.phase →
      Completes (exec (.wait p enc) s) fun t =>
        s.advanced t p ∧ t.fab = s.fab ∧ s.onlyCore t p [(F.JOB_CORE_PROGRAM_NEXT p).off]) ∧
    (∀ ph, fieldOf enc 1 1 = 1 → g.arrived.find? (fun e => e.1 == o.ident) = some (o.ident, ph) → o.phase ≤ ph →
      exec (.wait p enc) s = .next { s with held := s.held ++ [.wait p enc] }) ∧
    (fieldOf enc 1 1 = 2 → g.await = none → o.ranks = [g.rank] → o.arrived = [] → o.parent = none → o.children = [] →
      o.childArrived = [] →
      Completes (exec (.arriveWait p enc) s) fun t =>
        (∃ x, t.syncAt o.index = some x ∧ x.arrived = [] ∧ x.phase = o.phase + 1) ∧ s.advanced t p) ∧
    (fieldOf enc 1 1 = 2 → g.await = none → g.rank ∉ o.arrived → o.arrived.length + 1 < o.ranks.length →
      Completes (exec (.arriveWait p enc) s) fun t =>
        (∃ x, t.syncAt o.index = some x ∧ x.arrived = o.arrived ++ [g.rank] ∧ x.phase = o.phase) ∧
        (∃ h, (t.core p).prog = some h ∧ h.await = some (s.getF (F.JOB_CORE_PROGRAM_NEXT p), o.phase)) ∧
        t.held = s.held ++ [.arriveWait p enc]) ∧
    (∀ ph, fieldOf enc 1 1 = 2 → g.await = some (s.getF (F.JOB_CORE_PROGRAM_NEXT p), ph) → ph < o.phase →
      Completes (exec (.arriveWait p enc) s) fun t =>
        t.core p = { s.core p with prog := some { g with await := none } } ∧ s.advanced t p ∧
        s.onlyCore t p [(F.JOB_CORE_PROGRAM_NEXT p).off])) ∧
  (∀ (s : State) (p : Nat) (enc : BitVec 256) (g : Program) (j : Job) (o : SyncObj) (c : Instr), s.fetched p enc g j →
    fieldOf enc 0 1 = 0xA → syncLegal enc = true → g.slotOver (fieldOf enc 4 2) = 0 → j.ctx < 256 →
    (fieldOf enc 1 1 = 0 ∧ c = .arrive p enc ∨ fieldOf enc 1 1 = 1 ∧ c = .wait p enc ∨ fieldOf enc 1 1 = 2 ∧ c = .arriveWait p enc) →
    s.boundTo g.ctx j.uid (fieldOf enc 4 2) = some o → (o.desc ≠ fieldOf enc 8 8 ∨ g.rank ∉ o.ranks) →
    Completes (exec c s) fun t => t.ctxState j.ctx = 3 ∧ (t.ctx j.ctx).fault = Code.SYNC_GROUP_BAD ∧ t.jobOf j.uid = none)

/-- R273, R275, R280: a COLL of an identifier no SYNC has bound is SYNC_GROUP_BAD, one that differs from the collective it joins is
COLL_MISMATCH, and one before the group's first phase has completed waits. The first rank of several to issue a COLL opens the group's
collective with its own part and goes on; the data moves when every rank has come. -/
def Obligations.CollectivesJoinTheirGroup : Prop :=
  (∀ (s : State) (p : Nat) (enc : BitVec 256) (g : Program) (j : Job), s.fetched p enc g j → fieldOf enc 0 1 = 9 → collOp enc < 5 →
    collLegal enc = true → g.slotOver (fieldOf enc 24 2) = 0 →
    (j.ctx < 256 → s.boundTo g.ctx j.uid (fieldOf enc 24 2) = none → Completes (exec (collCommand p enc) s) fun t =>
      t.ctxState j.ctx = 3 ∧ (t.ctx j.ctx).fault = Code.SYNC_GROUP_BAD ∧ t.jobOf j.uid = none) ∧
    (∀ o, s.boundTo g.ctx j.uid (fieldOf enc 24 2) = some o → fieldOf enc 24 2 ∈ g.named → o.phase = 0 →
      exec (collCommand p enc) s = .next { s with held := s.held ++ [collCommand p enc] }) ∧
    (∀ o r, j.ctx < 256 → s.boundTo g.ctx j.uid (fieldOf enc 24 2) = some o → fieldOf enc 24 2 ∈ g.named → o.phase ≠ 0 →
      s.collWait p (fieldOf enc 4 8) (collSizes enc o.size).1 = false → s.collWait p (fieldOf enc 12 8) (collSizes enc o.size).2 = false →
      s.queueReads p (fieldOf enc 12 8) (collSizes enc o.size).2 = false → o.run = some r → (∀ q ∈ r.parts, q.rank ≠ g.rank) →
      r.parts.length ≠ o.ranks.length → sameColl r.enc enc = false →
      Completes (exec (collCommand p enc) s) fun t =>
        t.ctxState j.ctx = 3 ∧ (t.ctx j.ctx).fault = Code.COLL_MISMATCH ∧ t.jobOf j.uid = none)) ∧
  (∀ (s : State) (p : Nat) (enc : BitVec 256) (g : Program) (j : Job) (o : SyncObj) (a : Nat) (w : Bool), s.fetched p enc g j →
    fieldOf enc 0 1 = 9 → collOp enc < 5 → collLegal enc = true → g.slotOver (fieldOf enc 24 2) = 0 →
    s.boundTo g.ctx j.uid (fieldOf enc 24 2) = some o → s.syncAt o.index = some o → fieldOf enc 24 2 ∈ g.named → o.phase ≠ 0 →
    s.collWait p (fieldOf enc 4 8) (collSizes enc o.size).1 = false → s.collWait p (fieldOf enc 12 8) (collSizes enc o.size).2 = false →
    s.queueReads p (fieldOf enc 12 8) (collSizes enc o.size).2 = false → o.run = none → o.members = 1 → o.self = 0 → g.rank ∈ o.ranks →
    (∃ r ∈ o.ranks, r ≠ g.rank) → o.readyRanks = [] → g.ctx < 256 → fieldOf enc 4 8 % pageBytes + (collSizes enc o.size).1 ≤ pageBytes →
    s.place g.ctx (fieldOf enc 4 8) = .hbm a w → s.poisoned a (collSizes enc o.size).1 = false → s.mem.orphanCipher = [] →
    Completes (exec (collCommand p enc) s) fun t =>
      (∃ x r, t.syncAt o.index = some x ∧ x.run = some r ∧ r.enc = enc ∧ r.parts.map (·.rank) = [g.rank] ∧
        r.parts.map (·.core) = [p] ∧
        (collOp enc ≠ 4 → r.parts.map (·.src) = [s.hbm a (collSizes enc o.size).1])) ∧
      (∃ h, (t.core p).prog = some h ∧ h.communicated = true) ∧ (t.core p).scratch = (s.core p).scratch ∧ s.advanced t p ∧
      t.mem.hbm = s.mem.hbm ∧ t.mem.llm = s.mem.llm ∧ ∀ q, q ≠ p → t.core q = s.core q)

/-- R140, R143, R55, R317, Table TP-14: a FENCE is complete when every earlier instruction of its core is, a CHECK when no check is pending on
the tiles it names, and until then they wait. END retires the program; the step's last one starts the Lull's clock, and faults where a
picture of the step lacks rows. -/
def Obligations.FenceCheckEnd : Prop :=
  (∀ (s : State) (p : Nat) (enc : BitVec 256) (g : Program) (j : Job), s.fetched p enc g j → fieldOf enc 0 1 = 0xA → fieldOf enc 1 1 = 3 →
    fieldOf enc 2 30 = 0 →
    (s.coreDrained p g = false → exec (.fence p enc) s = .next { s with held := s.held ++ [.fence p enc] }) ∧
    (s.coreDrained p g = true → Completes (exec (.fence p enc) s) fun t =>
      t.core p = { s.core p with prog := some { g with communicated := true } } ∧ s.advanced t p ∧
      s.onlyCore t p [(F.JOB_CORE_PROGRAM_NEXT p).off])) ∧
  (∀ (s : State) (p : Nat) (enc : BitVec 256) (g : Program) (j : Job), s.fetched p enc g j → fieldOf enc 0 1 = 0xB →
    fieldOf enc 1 3 = 0 → fieldOf enc 6 26 = 0 →
    ((∃ k ∈ (s.core p).checks, fieldOf enc 4 2 = 0 ∨ bit (fieldOf enc 4 2) (fieldOf k.enc 3 1 % 16 + k.tile) = true) →
      exec (.check p enc) s = .next { s with held := s.held ++ [.check p enc] }) ∧
    ((∀ k ∈ (s.core p).checks, fieldOf enc 4 2 ≠ 0 ∧ bit (fieldOf enc 4 2) (fieldOf k.enc 3 1 % 16 + k.tile) = false) →
      Completes (exec (.check p enc) s) fun t => s.advanced t p ∧ s.onlyRegs t [(F.JOB_CORE_PROGRAM_NEXT p).off])) ∧
  (∀ (s : State) (p : Nat) (enc : BitVec 256) (g : Program) (j : Job), s.fetched p enc g j → fieldOf enc 0 1 = 0xC →
    fieldOf enc 1 31 = 0 →
    let last := (s.setProg p { g with retired := true }).allRetired j.uid
    (s.coreDrained p g = false → exec (.endProgram p enc) s = .next { s with held := s.held ++ [.endProgram p enc] }) ∧
    (s.coreDrained p g = true → last = false → Completes (exec (.endProgram p enc) s) fun t =>
      t.core p = { s.core p with prog := some { g with retired := true } } ∧ s.advanced t p ∧
      s.onlyCore t p [(F.JOB_CORE_PROGRAM_NEXT p).off]) ∧
    (s.coreDrained p g = true → last = true → s.rowsMissing j.uid = false → Completes (exec (.endProgram p enc) s) fun t =>
      (∃ h, (t.core p).prog = some h ∧ h.retired = true) ∧ s.advanced t p ∧
      ∃ k st, t.jobOf j.uid = some k ∧ k.step = some st ∧ st.retiredAt = some s.timeNs) ∧
    (s.coreDrained p g = true → last = true → s.rowsMissing j.uid = true → j.ctx < 256 →
      Completes (exec (.endProgram p enc) s) fun t =>
        t.ctxState j.ctx = 3 ∧ (t.ctx j.ctx).fault = Code.VIDEO_ROWS_MISSING ∧ t.jobOf j.uid = none))

/-- R122 to R129: a check that ends without a miss keeps the tile: the check is gone, the matrix flags gain the tile's, and the core's and
the layer's counts of checks go up by one. A miss repeats the tile at the next rung; at the top a master's miss is
ESCALATION_EXHAUSTED where the layer does not accept it, and a self reference that misses is checked once more. A check of a job that
is not running waits. -/
def Obligations.ChecksKeepTheirTiles : Prop :=
  ∀ (s : State) (p : Nat) (k : Check) (rest : List Check) (prog : Program) (j : Job) (g : Guard),
    (s.core p).checks = k :: rest → (s.core p).prog = some prog → s.jobOf prog.job = some j → s.guardAt p (s.planOf p k.enc) = some g →
    (j.phase ≠ .running → exec (.mmaCheckComplete p) s = .next { s with held := s.held ++ [.mmaCheckComplete p] }) ∧
    let n := s.checkNorms p (s.planOf p k.enc) g k false
    (p < 1088 → j.phase = .running → k.selfPass = false →
      (n.2 && failsArithmetic (s.planOf p k.enc).k (s.planOf p k.enc).p n.1) = false →
      (j.suspect = none → (s.core p).epilogue = [] → tileMisses (s.layerSet j.uid k.layer).tol n.1 = false →
        Completes (exec (.mmaCheckComplete p) s) fun t =>
          t.core p = { s.core p with checks := rest } ∧
          t.getF (F.JOB_CORE_GUARD_CHECKS_COUNT p) = (s.getF (F.JOB_CORE_GUARD_CHECKS_COUNT p) + 1) % 2 ^ 32 ∧
          (j.step.isSome = true → (t.layerState j.uid k.layer).checks = (s.layerState j.uid k.layer).checks + 1) ∧
          (∀ i, i < 32 → bit (t.reg (R.JOB_CORE_FLAGS p)).toNat i =
            (bit (s.reg (R.JOB_CORE_FLAGS p)).toNat i || (decide (i < 4) && bit k.flags.toNat i))) ∧
          t = { s with regs := t.regs, cores := t.cores, job.jobs := t.job.jobs } ∧ (∀ q, q ≠ p → t.core q = s.core q) ∧
          s.regsKept t [R.JOB_CORE_FLAGS p, (F.JOB_CORE_GUARD_CHECKS_COUNT p).off]) ∧
      (∀ r, tileMisses (s.layerSet j.uid k.layer).tol n.1 = true → nextRung (s.planOf p k.enc) (some g) k.rung = some r →
        Completes (exec (.mmaCheckComplete p) s) fun t =>
          (∃ y, (t.core p).checks = y :: rest ∧ y.rung = r ∧ y.up = true ∧ y.tile = k.tile ∧ y.enc = k.enc) ∧
          t.getF (F.JOB_CORE_GUARD_MISSES_COUNT p) = (s.getF (F.JOB_CORE_GUARD_MISSES_COUNT p) + 1) % 2 ^ 32 ∧
          (t.core p).scratch = (s.core p).scratch ∧ (∀ q, q ≠ p → t.core q = s.core q) ∧ t.mem = s.mem) ∧
      (tileMisses (s.layerSet j.uid k.layer).tol n.1 = true → nextRung (s.planOf p k.enc) (some g) k.rung = none →
        (n.2 = false → Completes (exec (.mmaCheckComplete p) s) fun t => (t.core p).checks = { k with selfPass := true } :: rest) ∧
        (n.2 = true → (s.layerSet j.uid k.layer).accept = false → j.ctx < 256 →
          Completes (exec (.mmaCheckComplete p) s) fun t =>
            t.ctxState j.ctx = 3 ∧ (t.ctx j.ctx).fault = Code.ESCALATION_EXHAUSTED ∧ t.jobOf j.uid = none)))

/-! ## Memory -/

/-- R181 to R187: ALLOC fills a free slot with a WRITABLE page of zeros; SEAL gives it its FILL and summary and seals it; RETAIN and
RELEASE count the caller's references, the page's own count following at once for the host and at the Lull for a step; COPY makes a
WRITABLE page with the sealed one's contents. A command out of form, or with the page units off, is answered with its code: to the host in
its result registers, to a program with KV_PORT_FAULT. A reference not held is KV_REF_UNDERFLOW. A pin that waited is tried again. -/
def Obligations.PageCommandsServeTheirSlots : Prop :=
  (∀ (s : State) (op ctx : Nat) (q : PortCmd), 1 ≤ op → op ≤ 5 → ctx < 256 → s.portCmd .page (.host ctx) = some q → q.op = op →
    (s.kvPart.isNone = true → Completes (exec (kvCommand op (.host ctx)) s) fun t =>
      t.getF (F.JOB_CTX_KV_RESULT_STATUS ctx) = Code.KV_TABLE_FULL ∧ t.kv = s.kv ∧ t.mem = s.mem) ∧
    (s.kvPart.isSome = true → kvForm q = false → Completes (exec (kvCommand op (.host ctx)) s) fun t =>
      t.getF (F.JOB_CTX_KV_RESULT_STATUS ctx) = Code.KV_COMMAND_BAD ∧ t.kv = s.kv ∧ t.mem = s.mem)) ∧
  (∀ (s : State) (op ctx cell : Nat) (q : PortCmd) (c : Cell) (j : Job), 1 ≤ op → op ≤ 5 →
    s.portCmd .page (.cell ctx cell) = some q → q.op = op → q.cell = some c → s.jobOf c.job = some j → j.ctx < 256 →
    (s.kvPart.isNone = true ∨ kvForm q = false) → Completes (exec (kvCommand op (.cell ctx cell)) s) fun t =>
      t.ctxState j.ctx = 3 ∧ (t.ctx j.ctx).fault = Code.KV_PORT_FAULT ∧ t.jobOf c.job = none) ∧
  (∀ (s s1 s2 : State) (via : Via) (q : PortCmd) (c : Cell) (i a m : Nat), s.portCmd .page via = some q → q.op = 1 → q.cell = some c →
    s.kvPart.isSome = true → kvForm q = true → s.kvSlot q.ctx q.slot = none → s.overQuota q.ctx 2 (kvPageBytes q.fmt + 264 + 8) = false →
    (s.kvJournal q.ctx).length < journalMax → s.kvSpace q.fmt = some (i, a, m) → s.deviceReady q (s.descAddr i) 32 s1 →
    s1.deviceReady q a (kvPageBytes q.fmt) s2 → s.clean →
    Completes (exec (.kvAlloc via) s) fun t =>
      (∃ pg, t.kvSlot q.ctx q.slot = some (i, pg) ∧ pg.address = a ∧ pg.format = q.fmt ∧ pg.fill = 0 ∧ pg.firstPos = q.word2 ∧
        pg.refs = 1 ∧ pg.state = 1 ∧ pg.owner = q.ctx ∧ t.kvHeld q.ctx (kvId i pg) = 1 ∧
        ∃ y, t.cell c.kind c.ctx c.cell = some y ∧ y.busy = false ∧ y.result = kvResult Code.OK (kvId i pg)) ∧
      t.hbm a (kvPageBytes q.fmt) = List.replicate (kvPageBytes q.fmt) 0 ∧ s.hbmKept t a (kvPageBytes q.fmt) ∧
      (∀ k, k ≠ i → t.kvPage k = s.kvPage k) ∧ t.cores = s.cores) ∧
  (∀ (s s1 s2 : State) (via : Via) (q : PortCmd) (c : Cell) (i : Nat) (pg : KvPage), s.portCmd .page via = some q → q.op = 2 →
    q.cell = some c → s.kvPart.isSome = true → kvForm q = true → s.slotPage q.ctx q.slot = some (i, pg) → pg.state = 1 →
    s.deviceReady q (s.descAddr i) 32 s1 → s1.deviceReady q pg.summary 264 s2 → s.clean →
    Completes (exec (.kvSeal via) s) fun t =>
      t.kvPage i = { pg with fill := q.word2, state := 2, sealPending := true, slot := 0xFF } ∧
      t.hbm pg.summary 264 = s.kvSummary pg q.word2 ∧ s.hbmKept t pg.summary 264 ∧ (∀ k, k ≠ i → t.kvPage k = s.kvPage k) ∧
      ∃ y, t.cell c.kind c.ctx c.cell = some y ∧ y.busy = false ∧ y.result = kvResult Code.OK (kvId i pg)) ∧
  (∀ (s s1 : State) (via : Via) (q : PortCmd) (i : Nat) (pg : KvPage), s.portCmd .page via = some q → q.op = 3 →
    s.kvPart.isSome = true → kvForm q = true → s.kvNamed q.page = some (i, pg) → pg.state = 2 →
    (pg.sealPending = false ∨ pg.owner = q.ctx) → pg.refs < 65535 → s.kvHeld q.ctx q.page < 65535 →
    (s.privPage pg = false ∨ pg.owner = q.ctx) → (s.kvJournal q.ctx).length < journalMax → s.deviceReady q (s.descAddr i) 32 s1 →
    Completes (exec (.kvRetain via) s) fun t =>
      t.kvPage i = { pg with refs := pg.refs + 1 } ∧ t.kvHeld q.ctx q.page = s.kvHeld q.ctx q.page + 1 ∧
      (∀ k, k ≠ i → t.kvPage k = s.kvPage k) ∧ t.cores = s.cores) ∧
  (∀ (s s1 : State) (via : Via) (q : PortCmd) (i : Nat) (pg : KvPage), s.portCmd .page via = some q → q.op = 4 →
    s.kvPart.isSome = true → kvForm q = true → s.kvHeld q.ctx q.page ≠ 0 → s.kvNamed q.page = some (i, pg) → 2 ≤ pg.refs →
    s.deviceReady q (s.descAddr i) 32 s1 →
    Completes (exec (.kvRelease via) s) fun t =>
      t.kvHeld q.ctx q.page = s.kvHeld q.ctx q.page - 1 ∧
      t.kvPage i = (if q.cell.isNone then { pg with refs := pg.refs - 1 } else pg) ∧ (∀ k, k ≠ i → t.kvPage k = s.kvPage k) ∧
      t.cores = s.cores) ∧
  (∀ (s : State) (via : Via) (q : PortCmd) (c : Cell) (j : Job), s.portCmd .page via = some q → q.op = 4 → q.cell = some c →
    s.kvPart.isSome = true → kvForm q = true → s.kvHeld q.ctx q.page = 0 → s.jobOf c.job = some j → j.ctx < 256 →
    Completes (exec (.kvRelease via) s) fun t =>
      t.ctxState j.ctx = 3 ∧ (t.ctx j.ctx).fault = Code.KV_REF_UNDERFLOW ∧ t.jobOf c.job = none) ∧
  (∀ (s s1 s2 : State) (via : Via) (q : PortCmd) (c : Cell) (k i a m : Nat) (pg : KvPage), s.portCmd .page via = some q → q.op = 5 →
    q.cell = some c → s.kvPart.isSome = true → kvForm q = true → s.kvSlot q.ctx q.slot = none → s.kvHeld q.ctx q.page ≠ 0 →
    s.kvNamed q.page = some (k, pg) → pg.state = 2 → (pg.sealPending = false ∨ pg.owner = q.ctx) → pg.pins < 65535 → s.clean →
    (let r := (s.touch pg.address (kvPageBytes pg.format) false).hbmRead pg.address (kvPageBytes pg.format)
     r.2.overQuota q.ctx 2 (kvPageBytes pg.format + 264 + 8) = false ∧ (r.2.kvJournal q.ctx).length < journalMax ∧
     r.2.kvSpace pg.format = some (i, a, m) ∧ r.2.deviceReady q (r.2.descAddr i) 32 s1) →
    s1.deviceReady q a (kvPageBytes pg.format) s2 →
    Completes (exec (.kvCopy via) s) fun t =>
      (∃ y, t.kvSlot q.ctx q.slot = some (i, y) ∧ y.format = pg.format ∧ y.fill = pg.fill ∧ y.firstPos = pg.firstPos ∧
        y.address = a ∧ y.state = 1 ∧ y.parent = q.page) ∧
      t.hbm a (kvPageBytes pg.format) = s.hbm pg.address (kvPageBytes pg.format) ∧ s.hbmKept t a (kvPageBytes pg.format)) ∧
  (∀ (s : State) (index : Nat), (∃ w ∈ s.kv.pinWaits, w.1 = index) → (s.kvPage index).pins < 65535 →
    exec (.kvPinResume index) s = .next { s with
      held := s.held ++ (s.kv.pinWaits.filter fun w => w.1 == index).map (·.2),
      kv.pinWaits := s.kv.pinWaits.filter fun w => w.1 != index })

/-- R214 to R217, R211, R212, R219: a clean patrol read changes nothing but, at the end of a pass, its counter; a corrected error is
counted, an uncorrectable one of HBM poisons its unit and one of a clean cache line drops the line. A temperature reading below
the trip threshold sets TEMP and THROTTLE of its stack. Tokens reach a partition that owes. A generator starts only on a trained channel
with no image, and its run ends in DONE; a run that does not write changes no memory. -/
def Obligations.MemoryIsPatrolledAndTested : Prop :=
  (∀ (s : State) (addr row : Nat) (repair : Bool), addr < 8 * 2 ^ 36 →
    exec (.patrolScrub (.hbm addr row 0 repair false)) s = .next s ∧
    (Completes (exec (.patrolScrub (.hbm addr row 0 repair true)) s) fun t =>
      t.getF F.MEM_SCRUB_PASSES_COUNT = (s.getF F.MEM_SCRUB_PASSES_COUNT + 1) % 2 ^ 32 ∧
      s.onlyRegs t [F.MEM_SCRUB_PASSES_COUNT.off]) ∧
    (s.pchOf addr < 512 → s.rowErrors s.mem.ceRows (s.pchOf addr) row < 3 →
      Completes (exec (.patrolScrub (.hbm addr row 1 repair false)) s) fun t =>
        t.getF F.MEM_ECC_CE_HBM_COUNT = (s.getF F.MEM_ECC_CE_HBM_COUNT + 1) % 2 ^ 32 ∧
        t.mem.ceRows = s.mem.ceRows ++ [(s.pchOf addr, row, s.timeNs)] ∧
        t = { s with regs := t.regs, mem.ceRows := t.mem.ceRows } ∧
        s.regsKept t [F.MEM_ECC_CE_HBM_COUNT.off, (F.MEM_PCH_STATUS_CE (s.pchOf addr)).off]) ∧
    (Completes (exec (.patrolScrub (.hbm addr row 2 repair false)) s) fun t => storeGet noPoison t.mem.poison (addr / 64) = true)) ∧
  (∀ (s : State) (die line : Nat) (x : CacheLine), s.mem.cache.find? (fun y => y.die == die && y.line == line) = some x →
    exec (.patrolScrub (.llm die line 0)) s = .next s ∧
    (x.dirty = false → Completes (exec (.patrolScrub (.llm die line 2)) s) fun t =>
      (∀ y ∈ t.mem.cache, y.die ≠ die ∨ y.line ≠ line) ∧ t.mem.hbm = s.mem.hbm ∧ t.mem.poison = s.mem.poison ∧ t.job = s.job)) ∧
  (∀ (s : State) (core addr : Nat), core < 1088 →
    Completes (exec (.patrolScrub (.sram core addr 1)) s) fun t =>
      t.getF F.MEM_ECC_CE_SRAM_COUNT = (s.getF F.MEM_ECC_CE_SRAM_COUNT + 1) % 2 ^ 32 ∧ s.onlyRegs t [F.MEM_ECC_CE_SRAM_COUNT.off]) ∧
  (∀ (s : State) (stack c : Nat), stack < 8 → s.stackUsed stack = true → c < 108 →
    Completes (exec (.hbmTempRead stack c) s) fun t =>
      t.getF (F.MEM_STACK_STATUS_TEMP stack) = c ∧
      t.getF (F.MEM_STACK_STATUS_THROTTLE stack) =
        throttleLevel (s.getF F.MEM_THERMAL_CONFIG_T_THROTTLE) (s.getF (F.MEM_STACK_STATUS_THROTTLE stack)) c ∧
      t.mem = s.mem ∧ t.job = s.job ∧ t.cores = s.cores) ∧
  (∀ (s : State) (stack c : Nat), stack < 8 → s.stackUsed stack = false → exec (.hbmTempRead stack c) s = .refused .notDue) ∧
  (∀ (s : State) (part ns : Nat), part < 16 → (∃ b ∈ s.mem.buckets, b.part = part ∧ b.level < 0) →
    Completes (exec (.regulatorTokensGrant part ns) s) fun t =>
      t.getP (P.MEM_PART_WAIT part) = (s.getP (P.MEM_PART_WAIT part) + ns) % 2 ^ 64 ∧
      t.mem.buckets = (s.fillBuckets (some part) ns).mem.buckets ∧
      t = { s with regs := t.regs, mem.buckets := t.mem.buckets } ∧ s.regsKept t [P.MEM_PART_WAIT part, P.MEM_PART_WAIT part + 4]) ∧
  (∀ (s : State) (req : Requester) (pch : Nat) (v : Word), pch < 512 → s.denied req (R.DBG_TG_CONTROL pch) = false →
    s.regDown (R.DBG_TG_CONTROL pch) = false → bit v.toNat 0 = true →
    Completes (exec (.tgStart req pch v) s) fun t =>
      t.getF (F.DBG_TG_CONTROL_MODE pch) = bits v.toNat 2 1 ∧ t.getF (F.DBG_TG_CONTROL_PATTERN pch) = bits v.toNat 4 3 ∧
      t.getF (F.DBG_TG_STATUS_STATE pch) =
        (if s.imageValid = true ∨ s.getF (F.MEM_STACK_STATUS_TRAINED (pch / 64)) = 0 then 3 else 1) ∧
      s.onlyRegs t [(F.DBG_TG_CONTROL_MODE pch).off, (F.DBG_TG_STATUS_STATE pch).off, (F.DBG_TG_MISMATCHES_COUNT pch).off,
        (F.DBG_TG_UE_COUNT pch).off, R.DBG_TG_FIRST_ERROR pch]) ∧
  (∀ (s : State) (pch : Nat) (ue : List Nat), pch < 512 → s.getF (F.DBG_TG_STATUS_STATE pch) = 1 →
    Completes (exec (.tgRunComplete pch ue) s) fun t =>
      t.getF (F.DBG_TG_STATUS_STATE pch) = 2 ∧
      (s.getF (F.DBG_TG_CONTROL_MODE pch) % 2 = 0 → s.mem.orphanCipher = [] → t.mem = s.mem) ∧ t.job = s.job ∧ t.cores = s.cores) ∧
  (∀ (s : State) (pch : Nat) (ue : List Nat), pch < 512 → s.getF (F.DBG_TG_STATUS_STATE pch) ≠ 1 →
    exec (.tgRunComplete pch ue) s = .refused .notDue)

/-- R355, R357, R358: while the windows are down a read is Unsupported Request and a write is dropped. BAR2 reads and writes the bytes of HBM
it names; a poisoned unit is a poisoned TLP. BAR4 does the same above GLB_BAR4_BASE, except beyond the pages, in a reserved page, and in a
tagged page, where it refuses the request and counts it; a write to a page banked now is refused and counted. -/
def Obligations.WindowsReachMemory : Prop :=
  (∀ (s : State) (off len : Nat) (data : List Byte), s.barsUp = false → off + len ≤ 2 ^ 30 → off + data.length ≤ 2 ^ 30 →
    exec (.bar2Read off len) s = .next { s with out := s.out ++ [.unsupported .host] } ∧ exec (.bar2Write off data) s = .next s) ∧
  (∀ (s : State) (off len : Nat), s.barsUp = true → off + len ≤ 2 ^ 30 →
    (s.poisoned off len = true → exec (.bar2Read off len) s = .next { s with out := s.out ++ [.poisonedTlp] }) ∧
    (s.poisoned off len = false → s.mem.orphanCipher = [] → Completes (exec (.bar2Read off len) s) fun t =>
      t.out = s.out ++ [.readData .host (s.hbm off len)] ∧ t.mem.hbm = s.mem.hbm ∧ t.job = s.job ∧ t.cores = s.cores)) ∧
  (∀ (s : State) (off : Nat) (data : List Byte), s.barsUp = true → off + data.length ≤ 2 ^ 30 → s.clean →
    Completes (exec (.bar2Write off data) s) fun t =>
      t.hbm off data.length = data ∧ s.hbmKept t off data.length ∧ t.out = s.out ∧ t.job = s.job ∧ t.cores = s.cores) ∧
  (∀ (s : State) (off len : Nat), s.inBar4 off len = true →
    let addr := s.getP P.GLB_BAR4_BASE + off
    (s.barsUp = false → exec (.bar4Read off len) s = .next { s with out := s.out ++ [.unsupported .host] }) ∧
    (s.barsUp = true → s.bar4 addr len false = .beyond ∨ s.bar4 addr len false = .reserved →
      Completes (exec (.bar4Read off len) s) fun t =>
        t.getF F.GLB_BAR4_REFUSED_COUNT = (s.getF F.GLB_BAR4_REFUSED_COUNT + 1) % 2 ^ 32 ∧
        t.out = s.out ++ [if s.bar4 addr len false = .beyond then .unsupported .host else .completerAbort .host] ∧
        s.onlyRegsOut t [F.GLB_BAR4_REFUSED_COUNT.off]) ∧
    (s.barsUp = true → s.bar4 addr len false = .tagged → Completes (exec (.bar4Read off len) s) fun t =>
      t.getF F.MEM_PRIV_DENIED_COUNT = (s.getF F.MEM_PRIV_DENIED_COUNT + 1) % 2 ^ 32 ∧ t.out = s.out ++ [.completerAbort .host] ∧
      s.onlyRegsOut t [F.MEM_PRIV_DENIED_COUNT.off]) ∧
    (s.barsUp = true → s.bar4 addr len false = .serve → s.poisoned addr len = false → s.mem.orphanCipher = [] →
      Completes (exec (.bar4Read off len) s) fun t =>
        t.out = s.out ++ [.readData .host (s.hbm addr len)] ∧ t.mem.hbm = s.mem.hbm ∧ t.job = s.job)) ∧
  (∀ (s : State) (off : Nat) (data : List Byte), s.inBar4 off data.length = true →
    let addr := s.getP P.GLB_BAR4_BASE + off
    (s.barsUp = false → exec (.bar4Write off data) s = .next s) ∧
    (s.barsUp = true → s.bar4 addr data.length true = .beyond ∨ s.bar4 addr data.length true = .reserved →
      Completes (exec (.bar4Write off data) s) fun t =>
        t.getF F.GLB_BAR4_REFUSED_COUNT = (s.getF F.GLB_BAR4_REFUSED_COUNT + 1) % 2 ^ 32 ∧ s.onlyRegs t [F.GLB_BAR4_REFUSED_COUNT.off]) ∧
    (s.barsUp = true → s.bar4 addr data.length true = .tagged → Completes (exec (.bar4Write off data) s) fun t =>
      t.getF F.MEM_PRIV_DENIED_COUNT = (s.getF F.MEM_PRIV_DENIED_COUNT + 1) % 2 ^ 32 ∧ s.onlyRegs t [F.MEM_PRIV_DENIED_COUNT.off]) ∧
    (s.barsUp = true → s.bar4 addr data.length true = .banked → Completes (exec (.bar4Write off data) s) fun t =>
      t.getF F.REL_BANK_REFUSED_COUNT = (s.getF F.REL_BANK_REFUSED_COUNT + 1) % 2 ^ 32 ∧ s.onlyRegs t [F.REL_BANK_REFUSED_COUNT.off]) ∧
    (s.barsUp = true → s.bar4 addr data.length true = .serve → s.clean → Completes (exec (.bar4Write off data) s) fun t =>
      t.hbm addr data.length = data ∧ s.hbmKept t addr data.length ∧ t.out = s.out ∧ t.job = s.job ∧ t.cores = s.cores))

/-! ## Tiers and flash -/

/-- R224 to R236, R239, R241: a host's tier command with the manager off is TIER_FULL, one out of form TIER_COMMAND_BAD, one whose handle is
stale or another's is answered with that code and counted. ALLOC makes an object in the place found; FREE ends it; PROMOTE pins an
object and starts its copy, or finds it resident; UNPIN drops the pin; WRITE_BACK writes the copy out; EVICT drops an unpinned copy, else is
deferred; KEEP, ADOPT and DISCARD move objects to, from and out of the catalogue. A completed PROMOTE leaves the object's bytes in the copy,
a failed one the object LOST; a WRITE_BACK's completion answers it; a late command is counted once. -/
def Obligations.TierCommandsServeTheirObjects : Prop :=
  (∀ (s : State) (op ctx : Nat) (q : PortCmd), 1 ≤ op → op ≤ 9 → ctx < 256 → s.portCmd .tier (.host ctx) = some q → q.op = op →
    (s.tierOn = false → Completes (exec (tierCommand op (.host ctx)) s) fun t =>
      t.getF (F.JOB_CTX_TIER_RESULT_STATUS ctx) = Code.TIER_FULL ∧ t.tier.objs = s.tier.objs ∧ t.mem = s.mem) ∧
    (s.tierOn = true → s.tierForm q = false → Completes (exec (tierCommand op (.host ctx)) s) fun t =>
      t.getF (F.JOB_CTX_TIER_RESULT_STATUS ctx) = Code.TIER_COMMAND_BAD ∧ t.tier.objs = s.tier.objs ∧ t.mem = s.mem) ∧
    (∀ c, s.tierOn = true → s.tierForm q = true → 2 ≤ op → op ≤ 7 → s.pick q (op != 3 && op != 4) = .code c →
      Completes (exec (tierCommand op (.host ctx)) s) fun t =>
        t.getF (F.JOB_CTX_TIER_RESULT_STATUS ctx) = c % 2 ^ 16 ∧ t.tier.objs = s.tier.objs ∧ t.mem = s.mem ∧
        (c = Code.BUF_STALE → t.getF F.MEM_TIER_STALE_COUNT = (s.getF F.MEM_TIER_STALE_COUNT + 1) % 2 ^ 32) ∧
        (c = Code.BUF_NOT_OWNER → t.getF F.MEM_TIER_NOT_OWNER_COUNT = (s.getF F.MEM_TIER_NOT_OWNER_COUNT + 1) % 2 ^ 32))) ∧
  (∀ (s s1 s2 : State) (via : Via) (q : PortCmd) (slot first : Nat), s.portCmd .tier via = some q → s.tierOn = true →
    s.tierForm q = true → q.op = 1 → s.allocAllowed q = true → s.overQuota q.ctx q.tier (q.pages * pageBytes) = false →
    (q.tier = 3 ∨ s.vaOverlaps q.ctx q.va q.pages = false) → s.freeObjSlot = some slot → s.tierSpace q = some (first, s1) →
    s1.deviceReady q (s1.slotDesc slot) 32 s2 →
    Completes (exec (.tierAlloc via) s) fun t =>
      ∃ o, t.obj slot = some o ∧ o.tier = q.tier ∧ o.owner = q.ctx ∧ o.units = q.pages ∧ o.first = first ∧ o.va = q.va ∧
        o.mapped = true ∧ o.shared = q.shared ∧ o.pins = [] ∧
        (q.cell.isNone = true → q.ctx < 256 → t.getF (F.JOB_CTX_TIER_RESULT_STATUS q.ctx) = Code.OK ∧
          t.getP (P.JOB_CTX_TIER_RESULT_HANDLE q.ctx) = handleOf t o % 2 ^ 64) ∧
        (∀ c, q.cell = some c → c.kind = .tier → c.ctx = q.ctx → ∃ y, t.cell .tier q.ctx c.cell = some y ∧ y.busy = false ∧
          y.result = tierResult Code.OK (handleOf t o))) ∧
  (∀ (s s1 : State) (via : Via) (q : PortCmd) (o : TierObj), s.portCmd .tier via = some q → s.tierOn = true → s.tierForm q = true →
    q.cell.isNone = true → s.obj o.slot = some o → s.deviceReady q (s.slotDesc o.slot) 32 s1 →
    (q.op = 2 → s.pick q true = .obj o → (o.tier ≠ 3 ∨ ∀ p ∈ o.pins, p.ctx = o.owner) →
      Completes (exec (.tierFree via) s) fun t =>
        t.obj o.slot = none ∧ t.gen o.slot = (s.gen o.slot + 1) % 2 ^ 14 ∧ t.mem.hbm = s1.mem.hbm ∧ t.cores = s.cores) ∧
    (∀ p, q.op = 4 → s.pick q false = .obj o → o.pins.find? (fun p => p.ctx == q.ctx && p.mapped) = some p → o.dying = false →
      o.evict = false →
      Completes (exec (.tierUnpin via) s) fun t =>
        t.obj o.slot = some { o with pins := o.pins.erase p, unpinned := s.tier.clock + 1 } ∧ t.cores = s.cores) ∧
    (q.op = 5 → s.pick q true = .obj o → o.tier = 3 → o.resid = .resident → s.flashUsed + o.units ≤ s.flashUnits →
      s.overAllowance (o.units * pageBytes) = false → o.fresh = none → s.clean →
      Completes (exec (.tierWriteBack via) s) fun t =>
        t.obj o.slot = some { o with data := s.copyData o, copyDirty := false } ∧
        t.tier.running = s.tier.running ++ [⟨o.slot, true, q.via, q.ctx, none, q.handle⟩] ∧ t.mem.hbm = s.mem.hbm) ∧
    (q.op = 6 → s.pick q true = .obj o → o.tier = 3 → o.resid = .resident → q.ctx < 256 →
      Completes (exec (.tierEvict via) s) fun t =>
        (o.pins = [] → t.obj o.slot =
          some { o with resid := .absent, copyOwner := none, copyDirty := false, evict := false } ∧
          t.getF (F.JOB_CTX_TIER_RESULT_STATUS q.ctx) = Code.OK) ∧
        (o.pins ≠ [] → t.obj o.slot = some { o with evict := true } ∧
          t.getF (F.JOB_CTX_TIER_RESULT_STATUS q.ctx) = Code.EVICT_DEFERRED)) ∧
    (q.op = 7 → s.pick q true = .obj o → o.tier = 3 → o.pins = [] → s.keptNamed q.name = none → s.tier.kept.length < 4096 →
      Completes (exec (.tierKeep via) s) fun t =>
        t.obj o.slot = none ∧
        t.tier.kept = s.tier.kept ++ [⟨q.name, o.units, o.priv, o.shared, o.data, false, false, o.resid == .lost⟩])) ∧
  (∀ (s s1 s2 : State) (via : Via) (q : PortCmd) (o : TierObj) (first : Nat), s.portCmd .tier via = some q → s.tierOn = true →
    s.tierForm q = true → q.op = 3 → s.pick q false = .obj o → s.obj o.slot = some o → o.tier = 3 →
    (o.resid = .absent → s.overQuota q.ctx 2 (o.units * pageBytes) = false → s.vaOverlaps q.ctx q.va o.units = false →
      s.copyPartOk q.part = true → s.spaceFor q.part o.units = some (first, s1) → s1.deviceReady q (s1.slotDesc o.slot) 32 s2 →
      Completes (exec (.tierPromote via) s) fun t =>
        (∃ x, t.obj o.slot = some x ∧ x.resid = .promoting ∧ x.copyPart = q.part ∧ x.copyPage = first ∧
          x.pins = o.pins ++ [⟨q.ctx, q.va, true⟩]) ∧
        t.tier.running = s.tier.running ++ [⟨o.slot, false, q.via, q.ctx, q.uid, q.handle⟩]) ∧
    (o.resid = .resident → s.vaOverlaps q.ctx q.va o.units = false → s.deviceReady q (s.slotDesc o.slot) 32 s2 →
      Completes (exec (.tierPromote via) s) fun t =>
        t.obj o.slot = some { o with pins := o.pins ++ [⟨q.ctx, q.va, true⟩] } ∧ t.tier.running = s.tier.running) ∧
    (o.resid = .lost → exec (.tierPromote via) s = .next { s with held := s.held ++ [.tierPromote via] })) ∧
  (∀ (s s1 : State) (via : Via) (q : PortCmd) (k : Kept) (slot : Nat), s.portCmd .tier via = some q → s.tierOn = true →
    s.tierForm q = true → q.op = 8 → q.cell.isNone = true →
    s.tier.kept.find? (fun k => k.name == q.name && !k.pending && !k.adopting) = some k →
    (k.priv = false ∨ (s.ctx q.ctx).priv = true) → s.overQuota q.ctx 3 (k.units * pageBytes) = false → s.freeObjSlot = some slot →
    s.deviceReady q (s.slotDesc slot) 32 s1 →
    Completes (exec (.tierAdopt via) s) fun t =>
      (∃ o, t.obj slot = some o ∧ o.tier = 3 ∧ o.owner = q.ctx ∧ o.units = k.units ∧ o.data = k.data ∧
        o.resid = if k.lost then .lost else .absent) ∧
      t.tier.kept = s.tier.kept.filter fun x => x.name != k.name) ∧
  (∀ (s : State) (ctx : Nat) (q : PortCmd), s.portCmd .tier (.host ctx) = some q → s.tierOn = true → s.tierForm q = true → q.op = 9 →
    ctx < 256 →
    Completes (exec (.tierDiscard (.host ctx)) s) fun t =>
      t.tier.kept = s.tier.kept.filter (fun k => k.name != q.name || k.pending) ∧ t.tier.objs = s.tier.objs ∧ t.mem = s.mem ∧
      t.getF (F.JOB_CTX_TIER_RESULT_STATUS ctx) =
        if s.tier.kept.any (fun k => k.name == q.name && !k.pending) then Code.OK else Code.TIER_COMMAND_BAD) ∧
  (∀ (s s1 : State) (slot : Nat) (o : TierObj), s.obj slot = some o → o.resid = .promoting →
    (s.journalLoose (o.copyPage * pageBytes) (o.units * pageBytes) = some s1 → o.evict = false → storeWf zeroByte o.data = true →
      Completes (exec (.promoteComplete slot true) s) fun t =>
        t.obj slot = some { o with resid := .resident } ∧
        (∀ b, b < o.units * pageBytes → t.hbm (o.copyPage * pageBytes + b) 1 = [storeGet zeroByte o.data b]) ∧
        ∀ b, b < o.copyPage * pageBytes ∨ (o.copyPage + o.units) * pageBytes ≤ b → t.hbm b 1 = s1.hbm b 1) ∧
    (Completes (exec (.promoteComplete slot false) s) fun t =>
      (∃ x, t.obj slot = some x ∧ x.resid = .lost) ∧ t.mem = s.mem ∧
      t.getF F.MEM_TIER_FAILED_COUNT = (s.getF F.MEM_TIER_FAILED_COUNT + 1) % 2 ^ 32)) ∧
  (∀ (s : State) (slot : Nat) (r : Running), s.tier.running.find? (fun r => r.slot == slot && r.writeBack) = some r →
    Completes (exec (.writeBackComplete slot) s) fun t =>
      t.tier.running = s.tier.running.erase r ∧ t.tier.objs = s.tier.objs ∧ t.mem = s.mem ∧
      (∀ ctx, r.via = .host ctx → r.ctx < 256 → t.getF (F.JOB_CTX_TIER_RESULT_STATUS r.ctx) = Code.OK ∧
        t.getP (P.JOB_CTX_TIER_RESULT_HANDLE r.ctx) = r.handle % 2 ^ 64)) ∧
  (∀ (s : State) (via : Via), ((s.portCmd .tier via).isSome = true ∨ ∃ r ∈ s.tier.running, r.via = via) →
    (via ∈ s.tier.late → exec (.tierLate via) s = .next s) ∧
    (via ∉ s.tier.late → Completes (exec (.tierLate via) s) fun t =>
      t.tier.late = s.tier.late ++ [via] ∧ t.getF F.MEM_TIER_LATE_COUNT = (s.getF F.MEM_TIER_LATE_COUNT + 1) % 2 ^ 32 ∧
      t = { s with regs := t.regs, tier.late := t.tier.late } ∧ s.regsKept t [F.MEM_TIER_LATE_COUNT.off]))

/-- R238, R240, R242, R243: a block patrol relocates a weak block and retires one beyond its code; the allowance window drops its oldest
hour each hour. A SYNC or LOAD begins, is refused with its code, or, with one under way, does nothing; a completed SYNC leaves no page
dirty and the copy under the model's ID; a completed LOAD leaves the golden pages in the weights' partition. A poisoned page is
reloaded from the copy; where it cannot be, and with no peers, every open context takes WEIGHT_LOST. -/
def Obligations.FlashAndGoldenCopy : Prop :=
  (∀ (s : State) (block percent : Nat), s.getF F.MEM_FLASH_CAPACITY_GIB ≠ 0 → block ∉ s.tier.retiredBlocks →
    (percent ≤ 60 → exec (.flashRetentionPatrol block percent) s = .next s) ∧
    (60 < percent → percent ≤ 100 → Completes (exec (.flashRetentionPatrol block percent) s) fun t =>
      t = { s with regs := t.regs, free := t.free } ∧ s.regsKept t [F.MEM_FLASH_WEAR_AVERAGE.off, F.MEM_FLASH_PCT_USED_PCT.off] ∧
      s.getF F.MEM_FLASH_WEAR_AVERAGE ≤ t.getF F.MEM_FLASH_WEAR_AVERAGE ∧
      s.getF F.MEM_FLASH_WEAR_MAXIMUM ≤ t.getF F.MEM_FLASH_WEAR_MAXIMUM) ∧
    (100 < percent → Completes (exec (.flashRetentionPatrol block percent) s) fun t =>
      t.tier.retiredBlocks = s.tier.retiredBlocks ++ [block] ∧ t.tier.objs = s.tier.objs ∧ t.mem = s.mem ∧
      t.getF F.MEM_FLASH_RETIRED_BLOCKS = (s.getF F.MEM_FLASH_RETIRED_BLOCKS + 1) % 2 ^ 20)) ∧
  (∀ s : State, Completes (exec .flashAllowanceBucketRoll s) fun t =>
    t.tier.hours = 0 :: s.tier.hours.take 23 ∧ t.getF F.MEM_FLASH_WRITTEN_24H_MIB = (t.written24 / 2 ^ 20) % 2 ^ 32 ∧
    t = { s with regs := t.regs, tier.hours := t.tier.hours } ∧ s.regsKept t [F.MEM_FLASH_WRITTEN_24H_MIB.off]) ∧
  (∀ (s : State) (req : Requester) (v : Word),
    (bit v.toNat 0 = true → s.goldenBusy = true ∨ s.weights = none → exec (.goldenSync req v) s = .next s) ∧
    (bit v.toNat 0 = false → bit v.toNat 1 = false ∨ s.goldenBusy = true ∨ s.weights = none → exec (.goldenLoad req v) s = .next s) ∧
    (bit v.toNat 0 = true → s.goldenBusy = false → s.weights.isSome = true → Completes (exec (.goldenSync req v) s) fun t =>
      (s.overAllowance (s.dirtyPages.length * pageBytes) = true → t.getF F.MEM_GOLDEN_LAST_LAST_CODE = Code.FLASH_ALLOWANCE) ∧
      (s.overAllowance (s.dirtyPages.length * pageBytes) = false → s.flashUnits < s.flashUsed + s.goldenNew →
        t.getF F.MEM_GOLDEN_LAST_LAST_CODE = Code.TIER_FULL) ∧
      (s.overAllowance (s.dirtyPages.length * pageBytes) = false → s.flashUsed + s.goldenNew ≤ s.flashUnits →
        t.getF F.MEM_GOLDEN_STATUS_STATE = 2) ∧
      s.onlyRegs t [F.MEM_GOLDEN_STATUS_STATE.off, F.MEM_GOLDEN_LAST_LAST_CODE.off]) ∧
    (bit v.toNat 0 = false → bit v.toNat 1 = true → s.goldenBusy = false → s.weights.isSome = true →
      Completes (exec (.goldenLoad req v) s) fun t =>
        (s.weightsBanked = true → t.getF F.MEM_GOLDEN_LAST_LAST_CODE = Code.BANK_REFUSED) ∧
        (s.weightsBanked = false → s.getF F.MEM_GOLDEN_STATUS_MODEL_MATCH = 1 → t.getF F.MEM_GOLDEN_STATUS_STATE = 3) ∧
        (s.weightsBanked = false → s.getF F.MEM_GOLDEN_STATUS_MODEL_MATCH ≠ 1 →
          t.getF F.MEM_GOLDEN_LAST_LAST_CODE = Code.MODEL_MISMATCH) ∧
        s.onlyRegs t [F.MEM_GOLDEN_STATUS_STATE.off, F.MEM_GOLDEN_LAST_LAST_CODE.off])) ∧
  (∀ (s : State) (w : Partition), s.weights = some w → s.getF F.MEM_GOLDEN_STATUS_STATE = 2 →
    Completes (exec .goldenSyncComplete s) fun t =>
      t.tier.dirty = [] ∧ t.tier.goldenModel = s.getP P.SIL_MODEL_ID ∧ (∀ p ∈ s.dirtyPages, p ∈ t.tier.goldenPages) ∧
      t.getF F.MEM_GOLDEN_STATUS_STATE = 1 ∧ t.getF F.MEM_GOLDEN_LAST_LAST_CODE = Code.OK ∧ t.job = s.job) ∧
  (∀ (s : State) (w : Partition), s.weights = some w → s.getF F.MEM_GOLDEN_STATUS_STATE = 3 → storeWf zeroByte s.tier.golden = true →
    (Completes (exec (.goldenLoadComplete true) s) fun t =>
      (∀ p b, p ∈ s.tier.goldenPages → p < w.count → b < pageBytes →
        t.hbm ((w.first + p) * pageBytes + b) 1 = [storeGet zeroByte s.tier.golden (p * pageBytes + b)]) ∧
      (∀ p, p ∈ s.tier.goldenPages → p < w.count → storeGet (fun _ => false) t.tier.dirty p = false) ∧
      t.getF F.MEM_GOLDEN_STATUS_STATE = 1 ∧ t.getF F.MEM_GOLDEN_LAST_LAST_CODE = Code.OK ∧ t.job = s.job) ∧
    (Completes (exec (.goldenLoadComplete false) s) fun t =>
      t.mem = s.mem ∧ t.tier = s.tier ∧ t.getF F.MEM_GOLDEN_STATUS_STATE = 1 ∧
      t.getF F.MEM_GOLDEN_LAST_LAST_CODE = Code.TIER_FAILED)) ∧
  (∀ (s : State) (w : Partition) (page : Nat), s.weights = some w → page < w.count → s.poisonedUnits (w.first + page) ≠ [] →
    (page ∉ s.dirtyPages → s.getF F.MEM_GOLDEN_STATUS_MODEL_MATCH = 1 → page ∈ s.tier.goldenPages →
      storeWf zeroByte s.tier.golden = true → Completes (exec (.goldenReloadComplete page true) s) fun t =>
        (∀ b, b < pageBytes → t.hbm ((w.first + page) * pageBytes + b) 1 = [storeGet zeroByte s.tier.golden (page * pageBytes + b)]) ∧
        t.getF F.MEM_GOLDEN_RELOADS_COUNT = (s.getF F.MEM_GOLDEN_RELOADS_COUNT + 1) % 2 ^ 32 ∧ t.job = s.job) ∧
    (s.bankedNow w = false → s.job.jobs = [] → s.job.fetching = [] → Completes (exec (.goldenReloadComplete page false) s) fun t =>
      (∀ c, c < 256 → s.ctxState c ≠ 0 → s.ctxState c ≠ 3 → t.ctxState c = 3 ∧ (t.ctx c).fault = Code.WEIGHT_LOST) ∧
      ∀ c, c < 256 → (s.ctxState c = 0 ∨ s.ctxState c = 3) → t.ctxState c = s.ctxState c))

/-! ## Ports and the router -/

/-- R247, R251, R260, R261, R263: a port that is down and may train sends its capability word and is TRAINING. The partner's word is recorded; a
major version other than 1 ends the attempt, else it settles the frame size, reduction and saffron. A combination that passes brings the
port UP with the lanes both have; without one the port is down, and retired at the third attempt in a row. Loss of signal and missed
heartbeats take a port down, its queue routed anew. DISABLE holds it idle, RETRAIN trains it. -/
def Obligations.PortsTrainAndGoDown : Prop :=
  (∀ (s : State) (port : Nat), port < 32 →
    (s.portState port = 0 → s.portFree port = true → Completes (exec (.trainingRetryTimer port) s) fun t =>
      t.portState port = 1 ∧ (t.port port).gotWord = false ∧ t.out = s.out ++ [.capability port (BitVec.ofNat 64 (s.capWord port))] ∧
      t = { s with regs := t.regs, out := t.out, fab.ports := t.fab.ports } ∧ (∀ q, q ≠ port → t.port q = s.port q) ∧
      s.regsKept t [(F.LNK_PORT_STATUS_STATE port).off, P.LNK_PORT_CAP_SENT port, P.LNK_PORT_CAP_SENT port + 4]) ∧
    (s.portState port ≠ 0 ∨ s.portFree port = false → exec (.trainingRetryTimer port) s = .refused .notDue)) ∧
  (∀ (s : State) (port : Nat) (cap : BitVec 64), port < 32 → s.portState port = 1 →
    Completes (exec (.capabilityWordReceived port cap) s) fun t =>
      t.getP (P.LNK_PORT_CAP_RECEIVED port) = cap.toNat ∧ t.getF (F.LNK_PORT_PARTNER_PARTNER port) = bits cap.toNat 51 32 ∧
      (t.port port).gotWord = true ∧ t.mem = s.mem ∧ t.job = s.job ∧
      (t.port port).replay =
        (if s.getF (F.LNK_PORT_PARTNER_PARTNER port) = bits cap.toNat 51 32 ∧ bit cap.toNat 22 = false then (s.port port).replay
          else []) ∧
      (bits cap.toNat 17 14 ≠ 1 → t.portState port = 0 ∧ (t.port port).wordBad = true) ∧
      (bits cap.toNat 17 14 = 1 → t.portState port = 1 ∧ (t.port port).wordBad = false ∧
        t.getF (F.LNK_PORT_STATUS_MAX_FRAME port) = bits cap.toNat 19 18 ∧
        t.getF (F.LNK_PORT_STATUS_REDUCTION port) =
          bits cap.toNat 20 20 * s.getF (F.LNK_RED_STATUS_IN_SERVICE (portDie port)) ∧
        t.getF (F.LNK_PORT_STATUS_SAFFRON port) = bits cap.toNat 21 21)) ∧
  (∀ (s : State) (port passes : Nat), port < 32 → s.portState port = 1 →
    let w := s.getP (P.LNK_PORT_CAP_RECEIVED port)
    let mode := laneModes.find? fun m => bit (bits w 7 5) m.1 && bit (bits w 9 8) m.2 && bit passes (2 * m.1 + m.2)
    ((s.port port).gotWord = true → ∀ r f, mode = some (r, f) → Completes (exec (.linkTrainingAttemptEnd port passes) s) fun t =>
      t.portState port = 2 ∧ t.getF (F.LNK_PORT_STATUS_LANES port) = min (bits w 4 0) (s.lanesLeft port) ∧
      t.getF (F.LNK_PORT_STATUS_RATE port) = r ∧ t.getF (F.LNK_PORT_STATUS_FEC port) = f ∧ (t.port port).attempts = 0 ∧
      (t.port port).wasReset = false ∧ t.mem = s.mem ∧ t.job = s.job) ∧
    ((s.port port).gotWord = true → mode = none → (s.port port).attempts < 2 →
      Completes (exec (.linkTrainingAttemptEnd port passes) s) fun t =>
        t.portState port = 0 ∧ t.port port = { s.port port with attempts := (s.port port).attempts + 1 } ∧
        t = { s with regs := t.regs, fab.ports := t.fab.ports } ∧ s.regsKept t [(F.LNK_PORT_STATUS_STATE port).off]) ∧
    ((s.port port).gotWord = true → mode = none → 2 ≤ (s.port port).attempts →
      Completes (exec (.linkTrainingAttemptEnd port passes) s) fun t =>
        t.portState port = 3 ∧ t.getF (F.LNK_PORT_STATUS_LANES port) = 0 ∧ t.mem = s.mem) ∧
    ((s.port port).gotWord = false → Completes (exec (.linkTrainingAttemptEnd port passes) s) fun t =>
      t.portState port = 0 ∧ (t.port port).replay = [] ∧ t.mem = s.mem ∧ t.job = s.job)) ∧
  (∀ (s : State) (port : Nat) (c : Instr), port < 32 → c = .lossOfSignal port ∨ c = .heartbeatMissLimit port →
    (s.portState port = 2 → Completes (exec c s) fun t =>
      t.portState port = 0 ∧ t.getF (F.LNK_PORT_STATUS_LANES port) = 0 ∧ (t.port port).queue = [] ∧
      (t.port port).replay = (s.port port).replay ∧
      t.getF (F.LNK_PORT_DOWN_COUNT_DOWNS port) = (s.getF (F.LNK_PORT_DOWN_COUNT_DOWNS port) + 1) % 2 ^ 16 ∧ t.mem = s.mem ∧
      t.job = s.job ∧ t.cores = s.cores) ∧
    (s.portState port ≠ 2 → exec c s = .refused .notDue)) ∧
  (∀ (s : State) (req : Requester) (port : Nat) (v : Word), port < 32 →
    (s.regDown (R.LNK_PORT_CONTROL port) = true →
      (bit v.toNat 1 = false → exec (.portDisable req port v) s = .next s) ∧
      (bit v.toNat 1 = true → exec (.portRetrain req port v) s = .next s)) ∧
    (s.regDown (R.LNK_PORT_CONTROL port) = false → bit v.toNat 1 = false → Completes (exec (.portDisable req port v) s) fun t =>
      t.getF (F.LNK_PORT_CONTROL_DISABLE port) = bits v.toNat 0 0 ∧ t.mem = s.mem ∧ t.job = s.job ∧
      (s.portState port = 3 → t.portState port = 3) ∧
      (s.portState port ≠ 3 → bit v.toNat 0 = true → t.portState port = 4) ∧
      (s.portState port = 4 → bit v.toNat 0 = false → s.getF (F.DBG_SQ_CONTROL_HOLD_DOWN port) = 0 → 2 ≤ s.devState → s.devState ≤ 4 →
        t.portState port = 1) ∧
      (s.portState port ≠ 4 → bit v.toNat 0 = false → s.getF (F.DBG_SQ_CONTROL_HOLD_DOWN port) = 0 →
        t.portState port = s.portState port)) ∧
    (s.regDown (R.LNK_PORT_CONTROL port) = false → bits v.toNat 1 0 = 2 → s.portState port ≠ 3 →
      s.getF (F.DBG_SQ_CONTROL_HOLD_DOWN port) = 0 → 2 ≤ s.devState → s.devState ≤ 4 →
      Completes (exec (.portRetrain req port v) s) fun t =>
        t.getF (F.LNK_PORT_CONTROL_DISABLE port) = 0 ∧ t.portState port = 1 ∧ (t.port port).gotWord = false ∧ t.mem = s.mem))

/-- R258, R259: a window below the threshold changes nothing. A degraded lane, or one that lost lock, takes the lowest-numbered spare, frames held in
the second case; with no spare its physical lane is retired and the port trains with the rest. When the spare has trained, the swap command is due;
the swap puts the spare in the lane's place, retires the old lane and counts the swap. -/
def Obligations.LanesAreSpared : Prop :=
  (∀ (s : State) (port lane : Nat), port < 32 → lane < 16 → s.portState port = 2 →
    exec (.laneBerWindow port lane false) s = .next s ∧
    ((s.port port).swap.isSome = true → exec (.laneBerWindow port lane true) s = .next s) ∧
    (∀ sp, s.spareLane port = some sp →
      ((s.port port).swap = none →
        exec (.laneBerWindow port lane true) s = .next (s.setPort port { s.port port with swap := some (lane, sp) })) ∧
      exec (.laneLossOfLock port lane) s = .next (s.setPort port { s.port port with swap := some (lane, sp), holdFrames := true })) ∧
    (∀ c, s.spareLane port = none →
      (c = .laneBerWindow port lane true ∧ (s.port port).swap = none) ∨ c = .laneLossOfLock port lane → Completes (exec c s) fun t =>
        t.portState port = 1 ∧
        t.getF (F.LNK_PORT_LANES_FAILED_MASK port) =
          Nat.lor (s.getF (F.LNK_PORT_LANES_FAILED_MASK port)) (2 ^ (s.port port).laneMap.getD lane 0) % 2 ^ 18 ∧
        (t.port port).laneMap = ((s.port port).laneMap.filter fun l => l != (s.port port).laneMap.getD lane 0) ∧ t.mem = s.mem)) ∧
  (∀ (s : State) (port lane : Nat) (b : Bool), port < 32 → lane < 16 → s.portState port ≠ 2 →
    exec (.laneBerWindow port lane b) s = .refused .notDue ∧ exec (.laneLossOfLock port lane) s = .refused .notDue) ∧
  (∀ (s : State) (port : Nat), port < 32 →
    ((s.port port).swap.isSome = true →
      exec (.laneSpareTrained port) s = .next (s.setPort port { s.port port with swapDue := true })) ∧
    ((s.port port).swap = none → exec (.laneSpareTrained port) s = .refused .notDue)) ∧
  (∀ (s : State) (port lane spare : Nat), port < 32 → lane < 16 → spare < 18 → s.portState port = 2 →
    Completes (exec (.laneSwapCommand port lane spare) s) fun t =>
      t.port port =
        { s.port port with laneMap := (s.port port).laneMap.set lane spare, swap := none, swapDue := false, holdFrames := false } ∧
      (∀ q, q ≠ port → t.port q = s.port q) ∧ t.portState port = 2 ∧
      t.getF (F.LNK_PORT_LANES_FAILED_MASK port) =
        Nat.lor (s.getF (F.LNK_PORT_LANES_FAILED_MASK port)) (2 ^ (s.port port).laneMap.getD lane 0) % 2 ^ 18 ∧
      t.getF (F.LNK_PORT_DOWN_COUNT_SWAPS port) = (s.getF (F.LNK_PORT_DOWN_COUNT_SWAPS port) + 1) % 2 ^ 16 ∧
      t.mem = s.mem ∧ t.job = s.job ∧ t.cores = s.cores)

/-- R248, R250 to R253, R257, R260: a frame in sequence is accepted and goes where the router sends it; one ahead waits in the window and a NAK is
due, one too far ahead is dropped and counted, one seen before is counted and acknowledged again. An ACK frees the frames up to its
number, a NAK has one sent again, a timeout all. The chosen frame takes the next number, enters the replay buffer and goes out. A control flit carries
what is due. A heartbeat is due only while the system controller is live; one received names the partner. -/
def Obligations.FramesCrossInOrder : Prop :=
  (∀ (s : State) (port : Nat) (f : Frame), port < 32 →
    (s.portUp port = false → exec (.frameReceive port f) s = .refused .notDue) ∧
    (s.portUp port = true →
      let x := s.port port
      let d := (f.seq % 2 ^ 16 + 2 ^ 16 - x.rxNext) % 2 ^ 16
      let c := Carried.undemoted ⟨f, some port, portDie port, false⟩
      (d = 0 → (∀ g ∈ x.window, g.seq ≠ (x.rxNext + 1) % 2 ^ 16) → Completes (exec (.frameReceive port f) s) fun t =>
        (t.port port).rxNext = (x.rxNext + 1) % 2 ^ 16 ∧ (t.port port).ackDue = true ∧ (t.port port).window = x.window ∧
        t.getP (P.LNK_PORT_RX_BYTES port) = (s.getP (P.LNK_PORT_RX_BYTES port) + f.payload.length) % 2 ^ 64 ∧
        (s.chooseRoute c = .here → s.ctxState (frameCtx c.frame) ≠ 4 → t.fab.inbox = s.fab.inbox ++ [c.frame]) ∧
        (s.chooseRoute c = .drop → t.fab.inbox = s.fab.inbox ∧
          t.getF F.LNK_ROUTE_DROPS_COUNT = (s.getF F.LNK_ROUTE_DROPS_COUNT + 1) % 2 ^ 32) ∧
        (∀ p, s.chooseRoute c = .port p → t.fab.inbox = s.fab.inbox ∧ (t.port p).queue = (s.port p).queue ++ [c]) ∧
        (s.chooseRoute c = .wait → t.fab.waiting = s.fab.waiting ++ [c]) ∧
        (s.chooseRoute c = .ignore → t.fab.inbox = s.fab.inbox ∧ t.fab.waiting = s.fab.waiting) ∧ t.mem = s.mem ∧ t.job = s.job) ∧
      (1 ≤ d → d < 64 → Completes (exec (.frameReceive port f) s) fun t =>
        (t.port port).window = (if x.window.any fun g => g.seq == f.seq then x.window else x.window ++ [f]) ∧
        (t.port port).nak = some x.rxNext ∧ (t.port port).rxNext = x.rxNext ∧ (x.nak ≠ some x.rxNext → (t.port port).nakDue = true) ∧
        t = { s with fab.ports := t.fab.ports } ∧ ∀ q, q ≠ port → t.port q = s.port q) ∧
      (64 ≤ d → d < 32768 → Completes (exec (.frameReceive port f) s) fun t =>
        t.getF (F.LNK_PORT_WINDOW_DROPS_COUNT port) = (s.getF (F.LNK_PORT_WINDOW_DROPS_COUNT port) + 1) % 2 ^ 32 ∧
        s.onlyRegs t [(F.LNK_PORT_WINDOW_DROPS_COUNT port).off]) ∧
      (32768 ≤ d → Completes (exec (.frameReceive port f) s) fun t =>
        t.port port = { x with ackDue := true } ∧
        t.getF (F.DUP_RX_COUNT port) = (s.getF (F.DUP_RX_COUNT port) + 1) % 2 ^ 32 ∧
        t = { s with regs := t.regs, fab.ports := t.fab.ports } ∧ s.regsKept t [(F.DUP_RX_COUNT port).off]))) ∧
  (∀ (s : State) (port : Nat), port < 32 → Completes (exec (.flitCrcError port) s) fun t =>
    t.getF (F.LNK_PORT_CRC_ERR_COUNT port) = (s.getF (F.LNK_PORT_CRC_ERR_COUNT port) + 1) % 2 ^ 32 ∧
    s.onlyRegs t [(F.LNK_PORT_CRC_ERR_COUNT port).off]) ∧
  (∀ (s : State) (port seq : Nat), port < 32 →
    (∀ a c b, (s.port port).replay = a ++ c :: b → c.frame.seq = seq → (∀ y ∈ a, y.frame.seq ≠ seq) →
      exec (.ackReceived port seq) s = .next (s.setPort port { s.port port with replay := b, timeouts := 0 })) ∧
    ((∀ y ∈ (s.port port).replay, y.frame.seq ≠ seq) → Completes (exec (.ackReceived port seq) s) fun t =>
      (∀ q, t.port q = s.port q) ∧ t = { s with fab.ports := t.fab.ports })) ∧
  (∀ (s : State) (port : Nat), port < 32 → s.getF (F.DBG_SQ_CONTROL_ENABLE port) = 0 → (s.port port).deferred = [] →
    (∀ seq, Completes (exec (.nakReceived port seq) s) fun t =>
      let l := (s.port port).replay.filter fun c => c.frame.seq == seq
      t.out = s.out ++ l.map (fun c => .frame port (s.outFrame port c c.frame.seq)) ∧
      t.getF (F.LNK_PORT_RETX_COUNT port) = (s.getF (F.LNK_PORT_RETX_COUNT port) + l.length) % 2 ^ 32 ∧
      (∀ q, t.port q = s.port q) ∧ t = { s with regs := t.regs, out := t.out, fab.ports := t.fab.ports } ∧
      s.regsKept t [(F.LNK_PORT_RETX_COUNT port).off]) ∧
    (s.portState port = 2 → (s.port port).replay ≠ [] → (s.port port).timeouts + 1 < 8 →
      Completes (exec (.replayTimeout port) s) fun t =>
        t.out = s.out ++ (s.port port).replay.map (fun c => .frame port (s.outFrame port c c.frame.seq)) ∧
        t.getF (F.LNK_PORT_RETX_COUNT port) = (s.getF (F.LNK_PORT_RETX_COUNT port) + (s.port port).replay.length) % 2 ^ 32 ∧
        t.port port = { s.port port with timeouts := (s.port port).timeouts + 1 } ∧
        t = { s with regs := t.regs, out := t.out, fab.ports := t.fab.ports } ∧
        s.regsKept t [(F.LNK_PORT_RETX_COUNT port).off]) ∧
    (∀ slots noCredit c y, s.portState port = 2 → s.getF (F.LNK_PORT_STATUS_SAFFRON port) = 1 → (s.port port).holdFrames = false →
      let cr := (s.section 8 0).drop (8 * port)
      let x := { s.port port with saffronTokens := min (512 * 256) ((s.port port).saffronTokens + leAt cr 0 1 * slots),
                                  mgmtTokens := min (64 * 256) ((s.port port).mgmtTokens + leAt cr 3 1 * slots) }
      (∀ z, firstReady x noCredit (fun c => c.frame.cls == 0) = some z → frameFlits z.frame * 256 ≤ x.saffronTokens) →
      chooseFrame noCredit (leAt cr 1 1) (leAt cr 2 1) x = some (c, y) → replayBytes y + 64 * frameFlits c.frame ≤ 2 ^ 20 →
      Completes (exec (.egressFrameSelect port slots noCredit) s) fun t =>
        (t.port port).queue = x.queue.erase c ∧ (t.port port).txNext = (x.txNext + 1) % 2 ^ 16 ∧
        (t.port port).replay = x.replay ++ [{ c with frame := { c.frame with seq := x.txNext } }] ∧
        t.out = s.out ++ [.frame port (s.outFrame port c x.txNext)] ∧
        t.getP (P.LNK_PORT_TX_BYTES port) = (s.getP (P.LNK_PORT_TX_BYTES port) + c.frame.payload.length) % 2 ^ 64 ∧
        t = { s with regs := t.regs, out := t.out, fab.ports := t.fab.ports } ∧
        s.regsKept t [P.LNK_PORT_TX_BYTES port, P.LNK_PORT_TX_BYTES port + 4])) ∧
  (∀ (s : State) (port : Nat), port < 32 → s.portState port = 2 → 8 ≤ (s.port port).timeouts + 1 → (s.port port).replay ≠ [] →
    Completes (exec (.replayTimeout port) s) fun t => t.portState port = 0 ∧ t.mem = s.mem ∧ t.job = s.job) ∧
  (∀ (s : State) (port : Nat), port < 32 → s.portState port ≠ 2 ∨ (s.port port).replay = [] →
    exec (.replayTimeout port) s = .refused .notDue) ∧
  (∀ (s : State) (port : Nat), port < 32 → s.portState port = 2 → Completes (exec (.controlFlitSend port) s) fun t =>
    let x := s.port port
    t.out = s.out ++ [.control port (if x.ackDue then some ((x.rxNext + 2 ^ 16 - 1) % 2 ^ 16) else none) (if x.nakDue then x.nak else none)
      (if x.hbDue then some s.deviceId else none) (if x.swapDue then x.swap else none)] ∧
    t.port port = { x with ackDue := false, nakDue := false, hbDue := false, swapDue := false } ∧
    (∀ q, q ≠ port → t.port q = s.port q) ∧ t = { s with out := t.out, fab.ports := t.fab.ports }) ∧
  (∀ (s : State) (port : Nat), port < 32 →
    (s.portState port = 2 → s.timeNs ≤ s.rel.refreshedAt + 20000000 →
      exec (.heartbeatSend port) s = .next (s.setPort port { s.port port with hbDue := true })) ∧
    (s.portUp port = true → s.rel.refreshedAt + 20000000 < s.timeNs → exec (.heartbeatSend port) s = .next s) ∧
    (s.portUp port = false → exec (.heartbeatSend port) s = .refused .notDue)) ∧
  (∀ (s : State) (port device : Nat), port < 32 → Completes (exec (.heartbeatReceived port device) s) fun t =>
    t.getF (F.LNK_PORT_PARTNER_PARTNER port) = device % 2 ^ 20 ∧ s.onlyRegs t [(F.LNK_PORT_PARTNER_PARTNER port).off])

/-- R262, R285: Squall's registers take an authorized write and are otherwise SECURE_ONLY_ACCESS's; setting ENABLE loads the generator from the seed, zero
as one, and a seed written while ENABLE is 1 is loaded at once; HOLD_DOWN holds the port idle. With Squall on for a frame's class, each frame put
on the wire takes three draws: below the first threshold it is dropped and counted, above all three it goes out. A frame held back goes out
at its timeout. The sync dump starts for an authorized requester in READY, RUN, LULL or FAULTED while none runs, and its bytes go to the host's
address. -/
def Obligations.DebugFacilitiesAct : Prop :=
  (∀ (s : State) (req : Requester) (port : Nat) (v : Word), port < 32 → s.facilityOpen req 0 = false →
    exec (.squallEnable req port v) s = .refused .otherRow ∧ exec (.squallHoldDown req port v) s = .refused .otherRow ∧
    exec (.squallSeedWrite req port v) s = .refused .otherRow) ∧
  (∀ (s : State) (req : Requester) (port : Nat) (v : Word), port < 32 → s.facilityOpen req 0 = true →
    s.regDown (R.DBG_SQ_CONTROL port) = false →
    (bit v.toNat 5 = false → Completes (exec (.squallEnable req port v) s) fun t =>
      t.getF (F.DBG_SQ_CONTROL_ENABLE port) = bits v.toNat 0 0 ∧ t.getF (F.DBG_SQ_CONTROL_CLASS_MASK port) = bits v.toNat 4 1 ∧
      t.getF (F.DBG_SQ_CONTROL_HOLD_DOWN port) = 0 ∧
      (t.port port).squall =
        (if s.getF (F.DBG_SQ_CONTROL_ENABLE port) = 0 ∧ bit v.toNat 0 = true then max 1 (s.getF (F.DBG_SQ_SEED_SEED port))
          else (s.port port).squall) ∧
      (s.portState port = 2 → s.getF (F.LNK_PORT_CONTROL_DISABLE port) = 0 → t.portState port = 2) ∧ t.mem = s.mem ∧ t.job = s.job) ∧
    (bit v.toNat 5 = true → Completes (exec (.squallHoldDown req port v) s) fun t =>
      t.getF (F.DBG_SQ_CONTROL_HOLD_DOWN port) = 1 ∧ (s.portState port ≠ 3 → t.portState port = 4) ∧
      (s.portState port = 3 → t.portState port = 3) ∧ t.mem = s.mem ∧ t.job = s.job)) ∧
  (∀ (s : State) (req : Requester) (port : Nat) (v : Word), port < 32 → s.facilityOpen req 0 = true →
    s.regDown (R.DBG_SQ_SEED port) = false → Completes (exec (.squallSeedWrite req port v) s) fun t =>
      t.reg (R.DBG_SQ_SEED port) = v ∧
      (s.getF (F.DBG_SQ_CONTROL_ENABLE port) = 1 → t.port port = { s.port port with squall := max 1 v.toNat }) ∧
      (s.getF (F.DBG_SQ_CONTROL_ENABLE port) = 0 → t.port port = s.port port) ∧
      t = { s with regs := t.regs, fab.ports := t.fab.ports } ∧ s.regsKept t [R.DBG_SQ_SEED port]) ∧
  (∀ (s : State) (port : Nat) (c : Carried), port < 32 → (s.port port).replay = [c] → (s.port port).deferred = [] →
    s.getF (F.DBG_SQ_CONTROL_ENABLE port) = 1 → bit (s.getF (F.DBG_SQ_CONTROL_CLASS_MASK port)) c.frame.cls = true →
    let a := squallNext (s.port port).squall
    let b := squallNext a
    let d := squallNext b
    (a < s.getF (F.DBG_SQ_DROP_THRESHOLD port) → Completes (exec (.nakReceived port c.frame.seq) s) fun t =>
      t.out = s.out ∧ t.port port = { s.port port with squall := d } ∧
      t.getF (F.DBG_SQ_INJECTED_COUNT port) = (s.getF (F.DBG_SQ_INJECTED_COUNT port) + 1) % 2 ^ 32) ∧
    (s.getF (F.DBG_SQ_DROP_THRESHOLD port) ≤ a → b < s.getF (F.DBG_SQ_CORRUPT_THRESHOLD port) →
      Completes (exec (.nakReceived port c.frame.seq) s) fun t =>
        t.out = s.out ++ [.badFrame port (s.outFrame port c c.frame.seq)] ∧ t.port port = { s.port port with squall := d } ∧
        t.getF (F.DBG_SQ_INJECTED_COUNT port) = (s.getF (F.DBG_SQ_INJECTED_COUNT port) + 1) % 2 ^ 32) ∧
    (s.getF (F.DBG_SQ_DROP_THRESHOLD port) ≤ a → s.getF (F.DBG_SQ_CORRUPT_THRESHOLD port) ≤ b →
      d < s.getF (F.DBG_SQ_REORDER_THRESHOLD port) → Completes (exec (.nakReceived port c.frame.seq) s) fun t =>
        t.out = s.out ∧ t.port port = { s.port port with squall := d, deferred := [s.outFrame port c c.frame.seq] } ∧
        t.getF (F.DBG_SQ_INJECTED_COUNT port) = (s.getF (F.DBG_SQ_INJECTED_COUNT port) + 1) % 2 ^ 32) ∧
    (s.getF (F.DBG_SQ_DROP_THRESHOLD port) ≤ a → s.getF (F.DBG_SQ_CORRUPT_THRESHOLD port) ≤ b →
      s.getF (F.DBG_SQ_REORDER_THRESHOLD port) ≤ d → Completes (exec (.nakReceived port c.frame.seq) s) fun t =>
        t.out = s.out ++ [.frame port (s.outFrame port c c.frame.seq)] ∧ t.port port = { s.port port with squall := d } ∧
        t.getF (F.DBG_SQ_INJECTED_COUNT port) = s.getF (F.DBG_SQ_INJECTED_COUNT port))) ∧
  (∀ (s : State) (port cls : Nat), port < 32 →
    let due := (s.port port).deferred.filter fun f => f.cls == cls
    (due = [] → exec (.squallReorderTimeout port cls) s = .refused .notDue) ∧
    (due ≠ [] → Completes (exec (.squallReorderTimeout port cls) s) fun t =>
      t.out = s.out ++ due.map (.frame port) ∧
      t.port port = { s.port port with deferred := (s.port port).deferred.filter fun f => f.cls != cls } ∧
      (∀ q, q ≠ port → t.port q = s.port q) ∧ t = { s with out := t.out, fab.ports := t.fab.ports })) ∧
  (∀ (s : State) (req : Requester) (v : Word),
    (s.facilityOpen req 2 = false → exec (.syncDumpStart req v) s = .refused .otherRow) ∧
    (s.facilityOpen req 2 = true → bit v.toNat 0 = false ∨ s.dumpOpen = false ∨ s.getF F.DBG_SYNC_DUMP_STATUS_STATE = 1 →
      exec (.syncDumpStart req v) s = .next s) ∧
    (s.facilityOpen req 2 = true → bit v.toNat 0 = true → s.dumpOpen = true → s.getF F.DBG_SYNC_DUMP_STATUS_STATE ≠ 1 →
      Completes (exec (.syncDumpStart req v) s) fun t =>
        t.getF F.DBG_SYNC_DUMP_STATUS_STATE = 1 ∧ t.getF F.DBG_SYNC_DUMP_STATUS_LAST_CODE = 0 ∧
        s.onlyRegs t [F.DBG_SYNC_DUMP_STATUS_STATE.off, F.DBG_SYNC_DUMP_STATUS_LAST_CODE.off])) ∧
  (∀ s : State, (s.getF F.DBG_SYNC_DUMP_STATUS_STATE ≠ 1 → exec .syncDumpComplete s = .refused .notDue) ∧
    (s.getF F.DBG_SYNC_DUMP_STATUS_STATE = 1 → Completes (exec .syncDumpComplete s) fun t =>
      t.getF F.DBG_SYNC_DUMP_STATUS_STATE = 2 ∧ t.fab = s.fab ∧
      (s.vcOpen (s.vcOf 2) = true → t.out = s.out ++ [.hostWrite (s.vcOf 2) (s.getP P.DBG_SYNC_DUMP_ADDR) s.dumpBytes]) ∧
      (s.vcOpen (s.vcOf 2) = false →
        t.host.dma = s.host.dma ++ [⟨s.vcOf 2, none, none, s.getP P.DBG_SYNC_DUMP_ADDR, s.dumpBytes, 0⟩])))

/-! ## Frames delivered to this module -/

/-- R249, R270, R275 to R277, R280, R281, R284: an ARRIVE counts toward its child's arrival, and completes the phase at the root or goes on to
the parent; a RELEASE from the parent completes the phase and settles the fallback in the first; a READY of a child counts, one of the parent
completes; a CREDIT lets a run send on; a REDUCE of another format is COLL_MISMATCH, else its words enter the piece it names; a WRITE lands in
the group's DST; a READ_REQUEST is answered, a READ_RESPONSE goes to its requester. A frame that belongs to nothing here waits, a stray
one is dropped. -/
def Obligations.CollectiveFramesAreServed : Prop :=
  (∀ s : State, ((s.fab.inbox.filter fun f => f.typ == 0) = [] → exec .writeFrame s = .refused .notDue) ∧
    ((s.fab.inbox.filter fun f => f.typ == 1) = [] → exec .readRequestFrame s = .refused .notDue) ∧
    ((s.fab.inbox.filter fun f => f.typ == 2) = [] → exec .readResponseFrame s = .refused .notDue) ∧
    ((s.fab.inbox.filter fun f => f.typ == 3) = [] → exec .reduceFrame s = .refused .notDue) ∧
    (s.fab.inbox.filter (syncKind 0) = [] → exec .syncArriveFrame s = .refused .notDue) ∧
    (s.fab.inbox.filter (syncKind 1) = [] → exec .syncReleaseFrame s = .refused .notDue) ∧
    (s.fab.inbox.filter (syncKind 2) = [] → exec .syncCreditFrame s = .refused .notDue) ∧
    (s.fab.inbox.filter (syncKind 3) = [] → exec .syncReadyFrame s = .refused .notDue)) ∧
  (∀ (s : State) (f : Frame) (l : List Frame) (o : SyncObj) (c : Nat), s.fab.inbox.filter (syncKind 0) = f :: l →
    s.syncFor f = some o → childOf o f = some c →
    (bits f.fields 26 26 ≠ o.phase % 2 ∨ c ∈ o.childArrived → exec .syncArriveFrame s = .next { s with fab.inbox := s.fab.inbox.erase f }) ∧
    (bits f.fields 26 26 = o.phase % 2 → c ∉ o.childArrived →
      let x := { o with childArrived := o.childArrived ++ [c], canReduce := o.canReduce && (o.phase != 0 || bit f.fields 27) }
      (x.arrived.length ≠ x.ranks.length ∨ x.childArrived.length ≠ x.children.length →
        exec .syncArriveFrame s = .next ({ s with fab.inbox := s.fab.inbox.erase f }.setSync x)) ∧
      (x.arrived.length = x.ranks.length → x.childArrived.length = x.children.length → Completes (exec .syncArriveFrame s) fun t =>
        (o.parent = none → t.syncAt o.index = some { x with
          phase := o.phase + 1, arrived := [], childArrived := [], arriveSent := false,
          decided := if o.phase = 0 then some x.canReduce else o.decided,
          windows := o.windows && !(o.phase == 0 && !x.canReduce) }) ∧
        (o.parent.isSome = true → t.syncAt o.index = some { x with arriveSent := true }) ∧
        t.mem = s.mem ∧ t.job = s.job ∧ t.cores = s.cores))) ∧
  (∀ (s : State) (f : Frame) (l : List Frame), s.fab.inbox.filter (syncKind 1) = f :: l →
    (∀ o, s.syncFor f = some o → fromParent o f = true → bits f.fields 26 26 = o.phase % 2 → o.arriveSent = true →
      Completes (exec .syncReleaseFrame s) fun t =>
        t.syncAt o.index = some { o with
          phase := o.phase + 1, arrived := [], childArrived := [], arriveSent := false,
          decided := if o.phase = 0 then some (bit f.fields 27) else o.decided,
          windows := o.windows && !(o.phase == 0 && !bit f.fields 27) } ∧ t.mem = s.mem ∧ t.job = s.job ∧ t.cores = s.cores) ∧
    (l = [] → s.syncFor f = none → bankFor s f = none →
      exec .syncReleaseFrame s = .next { s with held := s.held ++ [.syncReleaseFrame] })) ∧
  (∀ (s : State) (f : Frame) (l : List Frame), s.fab.inbox.filter (syncKind 3) = f :: l →
    (∀ o, s.syncFor f = some o → bits f.fields 26 26 = o.readyPhase % 2 →
      (fromParent o f = true → o.readySent = true → o.run = none → Completes (exec .syncReadyFrame s) fun t =>
        t.syncAt o.index = some { o with readyPhase := o.readyPhase + 1, readyRanks := [], readyChildren := [], readySent := false } ∧
        t.mem = s.mem ∧ t.job = s.job) ∧
      (∀ c, fromParent o f = false → childOf o f = some c → c ∉ o.readyChildren →
        o.readyRanks.length ≠ o.ranks.length ∨ o.readyChildren.length + 1 ≠ o.children.length →
        exec .syncReadyFrame s = .next ({ s with fab.inbox := s.fab.inbox.erase f }.setSync
          { o with readyChildren := o.readyChildren ++ [c] }))) ∧
    (l = [] → s.syncFor f = none → exec .syncReadyFrame s = .next { s with held := s.held ++ [.syncReadyFrame] })) ∧
  (∀ (s : State) (f : Frame) (l : List Frame), s.fab.inbox.filter (syncKind 2) = f :: l →
    let u := { s with fab.inbox := s.fab.inbox.erase f }
    (s.syncFor f = none → exec .syncCreditFrame s = .next u) ∧
    (∀ o r, s.syncFor f = some o → o.run = some r →
      (r.main = false ∨ fromParent o f = false ∨ leAt f.payload 16 2 ≠ r.serial → exec .syncCreditFrame s = .next u) ∧
      (∀ r2 v o2, r.main = true → fromParent o f = true → leAt f.payload 16 2 = r.serial →
        u.runPieces o { r with parentBase := [leAt f.payload 0 4, leAt f.payload 4 4, leAt f.payload 8 4, leAt f.payload 12 4] } =
          (r2, v, []) → v.syncAt o.index = some o2 →
        exec .syncCreditFrame s = .next (v.setSync (if runDone o2 r2 then { o2 with run := none, serial := (o2.serial + 1) % 2 ^ 16 }
          else { o2 with run := some r2 }))))) ∧
  (∀ (s : State) (o : SyncObj) (r : CollRun), s.fab.objs = [o] → o.run = some r →
    (r.main = true → s.objRuns o = true → exec .creditSendTimer s = .next (s.sendCredits o r)) ∧
    (r.main = false ∨ s.objRuns o = false → exec .creditSendTimer s = .next s)) ∧
  (∀ (s : State) (f : Frame) (l : List Frame), (s.fab.inbox.filter fun f => f.typ == 3) = f :: l →
    let u := { s with fab.inbox := s.fab.inbox.erase f }
    (l = [] → s.reduceFor f = none → exec .reduceFrame s = .next { s with held := s.held ++ [.reduceFrame] }) ∧
    (∀ o r, s.reduceFor f = some (o, r) →
      let fm := collFmts r.enc
      let off := f.addr - runDst r
      let i := off / rowBytes fm.1 1024
      let e := elemsIn fm.1 (off % rowBytes fm.1 1024)
      (∀ p j, r.pieces[i]? = some p → bits f.fields 11 8 ≠ fm.2 ∨ bits f.fields 13 12 ≠ collRedop r.enc → s.jobOf o.job = some j →
        j.ctx < 256 → Completes (exec .reduceFrame s) fun t =>
          t.ctxState j.ctx = 3 ∧ (t.ctx j.ctx).fault = Code.COLL_MISMATCH ∧ t.jobOf o.job = none) ∧
      (∀ p r2 v o2, r.pieces[i]? = some p → bits f.fields 11 8 = fm.2 → bits f.fields 13 12 = collRedop r.enc → bit f.fields 14 = false →
        let n := min (elemsIn fm.2 f.payload.length) (p.acc.length - e)
        let key := 2 * (childOf o f).getD 0 + 1
        let p' := { p with
          acc := mergeInput (collRedop r.enc) e (decodeWords fm.2 n f.payload) p.acc,
          got := (p.got.filter fun g => g.1 != key) ++ [(key, ((p.got.find? fun g => g.1 == key).map fun g => g.2).getD 0 + n)] }
        u.runPieces o { r with pieces := r.pieces.set i p' } = (r2, v, []) → v.syncAt o.index = some o2 →
        exec .reduceFrame s = .next (v.setSync (if runDone o2 r2 then { o2 with run := none, serial := (o2.serial + 1) % 2 ^ 16 }
          else { o2 with run := some r2 }))))) ∧
  (∀ (s : State) (f : Frame) (l : List Frame), (s.fab.inbox.filter fun f => f.typ == 0) = f :: l →
    let u := { s with fab.inbox := s.fab.inbox.erase f }
    (l = [] → s.writeFor f = none → exec .writeFrame s = .next { s with held := s.held ++ [.writeFrame] }) ∧
    (∀ o r v o2, s.writeFor f = some (o, r) → r.ring = false → r.op ≠ 4 → writeRuns o.ctx o.job [(f.addr, f.payload)] u = some v →
      v.syncAt o.index = some o2 →
      let r2 := r.land [(f.addr, f.payload)]
      exec .writeFrame s = .next (v.setSync (if runDone o2 r2 then { o2 with run := none, serial := (o2.serial + 1) % 2 ^ 16 }
        else { o2 with run := some r2 })))) ∧
  (∀ (s : State) (f : Frame) (l : List Frame), (s.fab.inbox.filter fun f => f.typ == 1) = f :: l →
    let u := { s with fab.inbox := s.fab.inbox.erase f, free := s.free + 1 }
    let n := Config.freeNat s.free % (s.maxFrame 0 f.src + 1)
    (∀ bs v, u.vRead f.ctx f.addr n = .ok (bs, v) → exec .readRequestFrame s =
      .next (v.inject 0 ⟨f.cls, 0, f.src, v.deviceId, 2, 0, 8, f.ctx, f.addr, f.tag, 1, 0, bs⟩)) ∧
    (∀ va, u.vRead f.ctx f.addr n = .mapFault va → exec .readRequestFrame s = .next u)) ∧
  (∀ (s : State) (f : Frame) (l : List Frame), (s.fab.inbox.filter fun f => f.typ == 2) = f :: l →
    exec .readResponseFrame s = .next { s with fab.inbox := s.fab.inbox.erase f, out := s.out ++ [.response f.tag f.payload] })

/-- R300 to R303, R306, R308, R309: FORM clears the set's state and this holder's parity and joins; a JOIN that agrees is counted, one that does not is
logged. A DELTA's pieces gather, and a whole one goes into the parity while forming, else is staged. STAGED answers bring a phase to its
barrier. DROP discards. REBUILD_BEGIN makes a peer supply its rows; REBUILD_DATA gathers, and a whole row is written; poisoned data ends the
rebuild FAILED; the eighth END returns the set to FORMED. Frames that must wait stay. -/
def Obligations.StripeMessagesAreServed : Prop :=
  (∀ s : State, (s.fab.inbox.filter (bankKind 1) = [] → exec .stripeJoin s = .refused .notDue) ∧
    (s.fab.inbox.filter (bankKind 2) = [] → exec .bankDelta s = .refused .notDue) ∧
    (s.fab.inbox.filter (bankKind 3) = [] → exec .bankStaged s = .refused .notDue) ∧
    (s.fab.inbox.filter (bankKind 4) = [] → exec .bankDrop s = .refused .notDue) ∧
    (s.fab.inbox.filter (bankKind 5) = [] → exec .rebuildBegin s = .refused .notDue) ∧
    (s.fab.inbox.filter (bankKind 6) = [] → exec .rebuildData s = .refused .notDue) ∧
    (s.fab.inbox.filter (bankKind 7) = [] → exec .rebuildEnd s = .refused .notDue)) ∧
  (∀ (s : State) (req : Requester) (v : Word),
    (bit v.toNat 0 = false ∨ s.stripeIds = [] → exec (.stripeForm req v) s = .next s) ∧
    (bit v.toNat 0 = true → s.stripeIds ≠ [] → Completes (exec (.stripeForm req v) s) fun t =>
      t.stripeState = 1 ∧ t.rel.deltas = [] ∧ t.rel.joined = [] ∧ t.rel.formed = [] ∧ t.rel.phases = [] ∧ t.job = s.job ∧
      (s.partitions.find? (fun p => p.parity) = none → t.mem = s.mem) ∧
      ∀ p, s.partitions.find? (fun p => p.parity) = some p →
        (∀ b, p.first * pageBytes ≤ b → b < p.first * pageBytes + p.count * pageBytes → t.hbm b 1 = [0]) ∧
        s.hbmKept t (p.first * pageBytes) (p.count * pageBytes))) ∧
  (∀ (s : State) (f : Frame) (l : List Frame), s.fab.inbox.filter (bankKind 1) = f :: l →
    let u := { s with fab.inbox := s.fab.inbox.erase f }
    let agrees := leAt f.payload 8 4 = s.stripeId ∧ bankUnit f = s.bankedPages.length ∧ leAt f.payload 2 1 = leAt s.stripeSet 6 1
    (bankFrom f ∉ s.stripePeers → exec .stripeJoin s = .next u) ∧
    (bankFrom f ∈ s.stripePeers → s.stripeState ≠ 1 → l = [] → exec .stripeJoin s = .next { s with held := s.held ++ [.stripeJoin] }) ∧
    (bankFrom f ∈ s.stripePeers → s.stripeState = 1 → ¬ agrees →
      exec .stripeJoin s = .next (u.log Code.STRIPE_MISMATCH (unitId 1 0) none (bankFrom f) 0)) ∧
    (bankFrom f ∈ s.stripePeers → s.stripeState = 1 → agrees → bankFrom f ∉ s.rel.joined →
      (s.rel.joined.length ≠ 7 → exec .stripeJoin s = .next { u with rel.joined := s.rel.joined ++ [bankFrom f] }) ∧
      (s.rel.joined.length = 7 → Completes (exec .stripeJoin s) fun t => t.mem = s.mem ∧ t.job = s.job ∧ t.rel.deltas = s.rel.deltas))) ∧
  (∀ (s : State) (f : Frame) (l : List Frame), s.fab.inbox.filter (bankKind 2) = f :: l →
    let u := { s with fab.inbox := s.fab.inbox.erase f }
    let pos := bankFrom f
    let row := bankUnit f % 2 ^ 25
    let same (d : Delta) : Bool := d.pos == pos && d.step == bankStep f && d.row == row
    let d := addPiece ((s.rel.deltas.find? same).getD ⟨pos, bankStep f, row, []⟩) (bits (bankUnit f) 29 25) (f.payload.drop 16)
    let rest := s.rel.deltas.filter fun x => !same x
    (pos ∉ s.stripePeers ∨ row % 9 ≠ s.stripePos → exec .bankDelta s = .next u) ∧
    (pos ∈ s.stripePeers → row % 9 = s.stripePos → s.stripeState = 0 → l = [] →
      exec .bankDelta s = .next { s with held := s.held ++ [.bankDelta] }) ∧
    (pos ∈ s.stripePeers → row % 9 = s.stripePos → s.stripeState = 1 ∨ s.stripeState ≠ 0 ∧ s.undoUnits < s.undoCapacity →
      (d.pieces.length ≠ 4096 / s.bankPiece → exec .bankDelta s = .next { u with rel.deltas := rest ++ [d] }.undoShow) ∧
      (d.pieces.length = 4096 / s.bankPiece → s.stripeState ≠ 1 → Completes (exec .bankDelta s) fun t =>
        t.rel.deltas = rest ++ [d] ∧ t.mem = s.mem ∧ t.job = s.job) ∧
      (∀ a, d.pieces.length = 4096 / s.bankPiece → s.stripeState = 1 → s.clean → s.parityAddr row = some a →
        let bytes := (List.range d.pieces.length).flatMap fun k => ((d.pieces.find? fun x => x.1 == k).map fun x => x.2).getD []
        bytes.length = 4096 → Completes (exec .bankDelta s) fun t =>
          t.rel.deltas = rest ∧ t.hbm a 4096 = xorBytes (s.hbm a 4096) bytes ∧ s.hbmKept t a 4096 ∧ t.job = s.job))) ∧
  (∀ (s : State) (f : Frame) (l : List Frame), s.fab.inbox.filter (bankKind 3) = f :: l → bankFrom f ∈ s.stripePeers →
    let u := { s with fab.inbox := s.fab.inbox.erase f }
    (s.stripeState = 0 → l = [] → exec .bankStaged s = .next { s with held := s.held ++ [.bankStaged] }) ∧
    (s.stripeState = 1 → bankUnit f = s.bankedUnits → bankFrom f ∉ s.rel.formed → Completes (exec .bankStaged s) fun t =>
      t.mem = s.mem ∧ (s.rel.formed.length = 8 → t.stripeState = 2 ∧ t.rel.formed = []) ∧
      (s.rel.formed.length ≠ 8 → t.stripeState = 1 ∧ t.rel.formed = s.rel.formed ++ [bankFrom f])) ∧
    (∀ b, 2 ≤ s.stripeState → s.rel.phases.find? (fun b => b.step == bankStep f) = some b → b.ctx < 256 →
      let b' := { b with staged := b.staged.filter (fun (x : Nat × Nat) => x.1 != bankFrom f) ++ [(bankFrom f, bankUnit f)] }
      ((∃ x ∈ b.sent, x ∉ b'.staged) → exec .bankStaged s = .next (u.setPhase b')) ∧
      ((∀ x ∈ b.sent, x ∈ b'.staged) → b.children = [] → b.parent = none → Completes (exec .bankStaged s) fun t =>
        t.getF (F.REL_CTX_BANK_STATE_STATE b.ctx) = 3 ∧ t.getP (P.REL_CTX_BANK_STEP b.ctx) = b.step % 2 ^ 64 ∧
        t.rel.phases = s.rel.phases.filter (fun x => x.ctx != b.ctx) ∧
        t.rel.deltas = s.rel.deltas.filter fun d => d.step != b.step))) ∧
  (∀ (s : State) (f : Frame) (l : List Frame), s.fab.inbox.filter (bankKind 4) = f :: l → exec .bankDrop s = .next
    { s with fab.inbox := s.fab.inbox.erase f,
             rel.deltas := s.rel.deltas.filter fun d => !(d.pos == bankFrom f && d.step == bankStep f) }.undoShow) ∧
  (∀ (s : State) (f : Frame) (l : List Frame), s.fab.inbox.filter (bankKind 5) = f :: l →
    (bankFrom f ∉ s.stripePeers ∨ s.stripeState = 0 → exec .rebuildBegin s = .next { s with fab.inbox := s.fab.inbox.erase f }) ∧
    (bankFrom f ∈ s.stripePeers → s.stripeState ≠ 0 → s.rel.phases ≠ [] → l = [] →
      exec .rebuildBegin s = .next { s with held := s.held ++ [.rebuildBegin] }) ∧
    (bankFrom f ∈ s.stripePeers → s.stripeState ≠ 0 → s.rel.phases = [] → Completes (exec .rebuildBegin s) fun t =>
      t.stripeState = 3 ∧ t.mem = s.mem ∧ t.job = s.job ∧ t.rel.rowsIn = s.rel.rowsIn)) ∧
  (∀ (s : State) (f : Frame) (l : List Frame), s.fab.inbox.filter (bankKind 6) = f :: l → bankFrom f ∈ s.stripePeers →
    s.stripeState ≠ 0 → f.payload.drop 16 ≠ [] → s.getF F.REL_REBUILD_STATUS_STATE = 1 →
    let row := bankUnit f % 2 ^ 25
    let r := addRow ((s.rel.rowsIn.find? fun r => r.row == row).getD ⟨row, [], List.replicate 4096 0⟩) (bankFrom f)
      (bits (bankUnit f) 29 25) s.bankPiece (f.payload.drop 16)
    (bit f.flags 1 = true ∨ s.peerAbsent = true → Completes (exec .rebuildData s) fun t =>
      t.getF F.REL_REBUILD_STATUS_STATE = 3 ∧ t.getF F.REL_REBUILD_STATUS_LAST_CODE = Code.REBUILD_FAILED ∧ t.mem = s.mem) ∧
    (bit f.flags 1 = false → s.peerAbsent = false → Completes (exec .rebuildData s) fun t =>
      t.getP P.REL_REBUILD_BYTES = (s.getP P.REL_REBUILD_BYTES + (f.payload.drop 16).length) % 2 ^ 64 ∧ t.job = s.job ∧
      (s.rowWhole r = false → t.mem = s.mem ∧ t.rel.rowsIn = (s.rel.rowsIn.filter fun x => x.row != row) ++ [r]) ∧
      (s.rowWhole r = true → s.clean → r.acc.length = 4096 → t.rel.rowsDone = s.rel.rowsDone + 1 ∧
        (∀ j, unitOfRow s.stripePos row = some j →
          (∀ x, s.partitionOfPage (s.bankedAddr j / pageBytes) = some x → x.2.priv = false) →
          t.hbm (s.bankedAddr j) 4096 = r.acc ∧ s.hbmKept t (s.bankedAddr j) 4096) ∧
        (∀ a, unitOfRow s.stripePos row = none → s.parityAddr row = some a →
          t.hbm a 4096 = r.acc ∧ s.hbmKept t a 4096)))) ∧
  (∀ (s : State) (f : Frame) (l : List Frame), s.fab.inbox.filter (bankKind 7) = f :: l →
    let u := { s with fab.inbox := s.fab.inbox.erase f }
    (bankFrom f ∉ s.stripePeers ∨ s.stripeState ≠ 3 → exec .rebuildEnd s = .next u) ∧
    (bankFrom f ∈ s.stripePeers → s.stripeState = 3 →
      (s.getF F.REL_REBUILD_STATUS_STATE = 0 ∨ s.getF F.REL_REBUILD_STATUS_STATE = 2 → Completes (exec .rebuildEnd s) fun t =>
        t.stripeState = 2 ∧ t = { u with regs := t.regs } ∧ s.regsKept t [F.REL_STRIPE_STATUS_STATE.off]) ∧
      (s.getF F.REL_REBUILD_STATUS_STATE = 1 → bankFrom f ∉ s.rel.ended →
        (s.rel.ended.length < 7 → exec .rebuildEnd s = .next { u with rel.ended := s.rel.ended ++ [bankFrom f] }) ∧
        (7 ≤ s.rel.ended.length → s.stripeRows ≤ s.rel.rowsDone → Completes (exec .rebuildEnd s) fun t =>
          t.stripeState = 2 ∧ t.getF F.REL_REBUILD_STATUS_STATE = 2 ∧ t.mem = s.mem ∧ t.job = s.job))))

/-- R304, R307: a repaired unit is written once its row is whole. The decision COMMIT applies the step's staged deltas and ends the phase
RELEASED; ABORT drops them; another value does nothing. -/
def Obligations.DecisionsEndTheirPhases : Prop :=
  (∀ (s : State) (unit j : Nat) (r : RowIn), s.bankedIndex unit = some j →
    s.rel.rowsIn.find? (fun r => r.row == rowOf s.stripePos j) = some r →
    (unit ∉ s.rel.repairs ∨ s.rowWhole r = false → exec (.bankedUnitRebuildDone unit) s = .refused .notDue) ∧
    (unit ∈ s.rel.repairs → s.rowWhole r = true → (∀ x ∈ s.job.jobs, x.step = none) → s.clean → r.acc.length = 4096 →
      (∀ x, s.partitionOfPage (unit * 4096 / pageBytes) = some x → x.2.priv = false) →
      Completes (exec (.bankedUnitRebuildDone unit) s) fun t =>
        t.hbm (unit * 4096) 4096 = r.acc ∧ s.hbmKept t (unit * 4096) 4096 ∧ t.rel.repairs = s.rel.repairs.erase unit ∧
        t.rel.rowsIn = s.rel.rowsIn.filter (fun x => x.row != r.row) ∧ t.job = s.job)) ∧
  (∀ (s : State) (unit : Nat), s.bankedIndex unit = none → exec (.bankedUnitRebuildDone unit) s = .refused .notDue) ∧
  (∀ (s : State) (req : Requester) (ctx : Nat) (v : Word), ctx < 256 →
    (bits v.toNat 1 0 = 2 → exec (.bankDecideCommit req ctx v) s = .refused .otherRow) ∧
    (bits v.toNat 1 0 = 0 ∨ bits v.toNat 1 0 = 3 → exec (.bankDecideCommit req ctx v) s = .next s) ∧
    (bits v.toNat 1 0 = 1 → s.rel.phases.find? (fun b => b.ctx == ctx) = none → Completes (exec (.bankDecideCommit req ctx v) s) fun t =>
      t.rel.deltas = s.rel.deltas.filter (fun d => d.step != s.decideStep ctx) ∧ t.rel.phases = s.rel.phases ∧ t.job = s.job) ∧
    (∀ b, bits v.toNat 1 0 = 1 → s.rel.phases.find? (fun b => b.ctx == ctx) = some b →
      Completes (exec (.bankDecideCommit req ctx v) s) fun t =>
        t.getF (F.REL_CTX_BANK_STATE_STATE ctx) = 3 ∧ t.getP (P.REL_CTX_BANK_STEP ctx) = b.step % 2 ^ 64 ∧
        t.rel.phases = s.rel.phases.filter (fun x => x.ctx != ctx) ∧ t.rel.deltas = s.rel.deltas.filter fun d => d.step != b.step) ∧
    (bits v.toNat 1 0 ≠ 2 → exec (.bankDecideAbort req ctx v) s = .refused .otherRow) ∧
    (bits v.toNat 1 0 = 2 → Completes (exec (.bankDecideAbort req ctx v) s) fun t =>
      t.rel.deltas = s.rel.deltas.filter (fun d => d.step != s.decideStep ctx) ∧
      t.rel.phases = s.rel.phases.filter (fun x => x.ctx != ctx) ∧ t.mem = s.mem ∧
      ((∃ b ∈ s.rel.phases, b.ctx = ctx) → t.getF (F.REL_CTX_BANK_STATE_STATE ctx) = 0) ∧
      (s.rel.phases.all (fun b => b.ctx != ctx) = true → t.job = s.job ∧ s.regsKept t [F.REL_UNDO_USED_PAGES.off])))

/-! ## Liveness, aging, failed cores and replay -/

/-- R293 to R295, R298: a refresh notes the time; B takes over once, a spare used; with both lost the device retires: FAULTED, ports idle, no image. A
margin below the threshold is noted once and retires its core at the next full Lull; a guard-banded island's is only shown. A core that
answers no probe for 1 ms has failed and is to be retired. -/
def Obligations.PartsAgeAndFail : Prop :=
  (∀ s : State, exec .livenessRefresh s = .next { s with rel.refreshedAt := s.timeNs }) ∧
  (∀ s : State, (s.rel.onB = true → exec .systemControllerFailover s = .refused .notDue) ∧
    (s.rel.onB = false → Completes (exec .systemControllerFailover s) fun t =>
      t.rel = { s.rel with onB := true, refreshedAt := s.timeNs } ∧
      t.getF (F.REL_LEDGER_SPARE_COUNT 11) = s.getF (F.REL_LEDGER_SPARE_COUNT 11) - 1 ∧
      t.getF (F.REL_LEDGER_USED_COUNT 11) = (s.getF (F.REL_LEDGER_USED_COUNT 11) + 1) % 2 ^ 32 ∧
      t.getF (F.REL_LEDGER_RETIRED_COUNT 11) = (s.getF (F.REL_LEDGER_RETIRED_COUNT 11) + 1) % 2 ^ 32 ∧
      t.mem = s.mem ∧ t.job = s.job ∧ t.cores = s.cores)) ∧
  (∀ s : State, (s.getF F.GLB_PROFILE_RETIRE = 1 → exec .livenessLostRetire s = .next s) ∧
    (s.getF F.GLB_PROFILE_RETIRE = 0 → Completes (exec .livenessLostRetire s) fun t =>
      t.getF F.GLB_PROFILE_RETIRE = 1 ∧ t.devState = 6 ∧ t.imageValid = false ∧ t.deviceId = 0xFFFFF ∧
      t.getF F.SIL_STATUS_LAST_CODE = Code.DEVICE_RETIRE ∧ t.getF F.SIL_STATUS_STATE = 0 ∧ t.fab.inbox = [] ∧ t.fab.waiting = [] ∧
      ∀ p, p < 32 → t.port p = Port.fresh)) ∧
  (∀ (s : State) (i m : Nat) (b : Bool), i < 1220 →
    (s.getF (F.PWR_ISL_STATE_GUARDBAND i) = 1 →
      (s.islandOn i = false → exec (.marginReport i m b) s = .next s) ∧
      (s.islandOn i = true → Completes (exec (.marginReport i m b) s) fun t =>
        t.getF (F.PWR_ISL_STATE_MARGIN i) = m % 2 ^ 8 ∧ s.onlyRegs t [(F.PWR_ISL_STATE_MARGIN i).off])) ∧
    (s.getF (F.PWR_ISL_STATE_GUARDBAND i) = 0 → s.getF F.REL_AGING_THRESHOLD_VALUE ≤ m →
      Completes (exec (.marginReport i m b) s) fun t =>
        t.rel.aging = s.rel.aging.erase i ∧ (s.islandOn i = true → t.getF (F.PWR_ISL_STATE_MARGIN i) = m % 2 ^ 8) ∧
        (b = true → i ∈ t.rel.predicted) ∧ t.mem = s.mem ∧ t.job = s.job ∧ t.cores = s.cores) ∧
    (s.getF (F.PWR_ISL_STATE_GUARDBAND i) = 0 → m < s.getF F.REL_AGING_THRESHOLD_VALUE → i < 1088 → i ∉ s.rel.aging →
      s.imageValid = true → (s.core i).failed = false → i ∉ s.rel.coresGone → i ∉ s.rel.retire →
      Completes (exec (.marginReport i m b) s) fun t =>
        t.rel.aging = s.rel.aging ++ [i] ∧ t.rel.retire = s.rel.retire ++ [i] ∧ t.mem = s.mem ∧ t.cores = s.cores ∧
        t.getF F.JOB_DEVICE_STATE_HOLD_PENDING = 1)) ∧
  (∀ (s : State) (p : Nat), p < 1088 →
    (s.getF (F.JOB_CORE_STATUS_STATE p) ≠ 2 → (∀ b, exec (.coreProbe p b) s = .refused .notDue) ∧
      exec (.coreProbeTimeout p) s = .refused .notDue) ∧
    (s.getF (F.JOB_CORE_STATUS_STATE p) = 2 →
      exec (.coreProbe p true) s = .next (s.setCore p { s.core p with silent := 0 }) ∧
      ((s.core p).silent < 9 → exec (.coreProbe p false) s = .next (s.setCore p { s.core p with silent := (s.core p).silent + 1 })) ∧
      ((s.core p).failed = true → exec (.coreProbeTimeout p) s = .next s) ∧
      ((s.core p).failed = false → p ∉ s.rel.coresGone → p ∉ s.rel.retire → s.imageValid = true →
        (∀ j ∈ s.job.jobs, ∀ st, j.step = some st → p ∉ st.phys) →
        (Completes (exec (.coreProbeTimeout p) s) fun t =>
          t.core p = { s.core p with failed := true } ∧ t.rel.retire = s.rel.retire ++ [p] ∧ t.mem = s.mem ∧
          t.getF F.JOB_DEVICE_STATE_HOLD_PENDING = 1) ∧
        (9 ≤ (s.core p).silent → Completes (exec (.coreProbe p false) s) fun t =>
          t.core p = { s.core p with silent := (s.core p).silent + 1, failed := true } ∧ t.rel.retire = s.rel.retire ++ [p]))))

/-- R308: DISCARD of a context's steps leaves it DISCARDED, its jobs to be replayed; it is refused once a bank phase has completed here. RESUME asks for
the restart, and after the quiet time the context is OPEN again. -/
def Obligations.ReplayDecisionsAct : Prop :=
  (∀ (s : State) (req : Requester) (v : Word),
    let ctx := v.toNat % 256
    (bits v.toNat 9 8 = 2 → exec (.replayDiscard req v) s = .refused .otherRow) ∧
    (bits v.toNat 9 8 = 0 ∨ bits v.toNat 9 8 = 3 → exec (.replayDiscard req v) s = .next s) ∧
    (bits v.toNat 9 8 = 1 → (∃ x ∈ s.stepsOf ctx, x.2.bankPhase = 3) → Completes (exec (.replayDiscard req v) s) fun t =>
      t.getF F.REL_REPLAY_RESULT_CODE = Code.REPLAY_REFUSED ∧ s.onlyRegs t [F.REL_REPLAY_RESULT_CODE.off]) ∧
    (bits v.toNat 9 8 = 1 → (∀ x ∈ s.stepsOf ctx, x.2.bankPhase ≠ 3) →
      (s.ctxState ctx ≠ 1 → Completes (exec (.replayDiscard req v) s) fun t =>
        t.getF F.REL_REPLAY_RESULT_CODE = 0 ∧ s.onlyRegs t [F.REL_REPLAY_RESULT_CODE.off]) ∧
      (s.ctxState ctx = 1 → Completes (exec (.replayDiscard req v) s) fun t => t.ctxState ctx = 4 ∧
        (s.stepsOf ctx = [] → t.getF F.REL_REPLAY_RESULT_CODE = 0 ∧ t.mem = s.mem ∧ t.job = s.job ∧ t.cores = s.cores) ∧
        (∀ uid st, s.stepsOf ctx = [(uid, st)] → ∃ j, t.jobOf uid = some j ∧ j.replayNext = true))) ∧
    (bits v.toNat 9 8 ≠ 2 → exec (.replayResume req v) s = .refused .otherRow) ∧
    (bits v.toNat 9 8 = 2 → Completes (exec (.replayResume req v) s) fun t =>
      t.getF F.REL_REPLAY_RESULT_CODE = 0 ∧ s.regsKept t [F.REL_REPLAY_RESULT_CODE.off] ∧
      t = { s with regs := t.regs, rel.resuming := t.rel.resuming } ∧
      t.rel.resuming = (if s.ctxState ctx = 4 ∧ ctx ∉ s.rel.resuming then s.rel.resuming ++ [ctx] else s.rel.resuming))) ∧
  (∀ s : State, (s.rel.resuming = [] → exec .replayQuietExpire s = .refused .notDue) ∧
    (∀ ctx rest, s.rel.resuming = ctx :: rest → ctx < 256 →
      (s.ctxState ctx ≠ 4 → exec .replayQuietExpire s = .next { s with rel.resuming := rest }) ∧
      (s.ctxState ctx = 4 → Completes (exec .replayQuietExpire s) fun t =>
        t.ctxState ctx = 1 ∧ t.rel.resuming = rest ∧ t.job = s.job ∧ t.mem = s.mem ∧ t.cores = s.cores)))

/-! ## Video and ingest -/

/-- R313, R315 to R317, R320, R321, R324, R328: a video command is answered in its registers. OPEN takes the lowest free stream and an engine with
budget; without the right it is NOT_AUTHORIZED. CLOSE frees a stream at once, or once its units are done. SUBMIT and INGEST queue a unit at the
end of their stream; ADVANCE declares rows. A stopped stream answers its code, a wrong stream VIDEO_COMMAND_BAD. -/
def Obligations.VideoCommandsQueueTheirUnits : Prop :=
  (∀ (s : State) (ctx : Nat) (q : PortCmd), ctx < 256 → s.portCmd .video (.host ctx) = some q → videoForm q = true → q.op = 1 →
    (s.mayVideo ctx = false → Completes (exec (.videoOpen (.host ctx)) s) fun t =>
      t.getF (F.VID_CTX_RESULT_STATUS ctx) = Code.NOT_AUTHORIZED ∧ t.vid = s.vid ∧ t.mem = s.mem) ∧
    (∀ d u slot e, s.mayVideo ctx = true → s.vRead ctx (q.at 8 8) 128 = .ok (d, u) → q.at 8 8 % 64 = 0 → descriptorOk d = true →
      u.regionsOk ctx true ⟨0, ctx, 0, d, true, [], none, 0, 0, none, 0, 0, 0, [], [], [], none, none⟩ = true →
      (List.range 64).find? (fun i => (u.streamAt i).isNone) = some slot → u.engineFor d slot = some e →
      Completes (exec (.videoOpen (.host ctx)) s) fun t =>
        (∃ v, t.streamAt slot = some v ∧ v.ctx = ctx ∧ v.engine = e ∧ v.desc = d ∧ v.units = [] ∧ v.stop = 0 ∧ v.closing = none) ∧
        t.getF (F.VID_CTX_RESULT_STATUS ctx) = Code.OK ∧ t.getP (P.VID_CTX_RESULT_VALUE ctx) = slot ∧
        t.getF (F.VID_STR_STATUS_STATE slot) = 1 ∧ t.getF (F.VID_STR_UNITS_COUNT slot) = 0)) ∧
  (∀ (s : State) (ctx : Nat) (q : PortCmd), ctx < 256 → s.portCmd .video (.host ctx) = some q → videoForm q = true → q.op = 2 →
    (s.videoStream q = none → Completes (exec (.videoClose (.host ctx)) s) fun t =>
      t.getF (F.VID_CTX_RESULT_STATUS ctx) = Code.VIDEO_COMMAND_BAD ∧ t.vid = s.vid) ∧
    (∀ v, s.videoStream q = some v → v.closing = none →
      (v.stop ≠ 0 ∨ v.units = [] ∧ v.closeFor = [] ∧ v.openRow = none → Completes (exec (.videoClose (.host ctx)) s) fun t =>
        t.streamAt v.slot = none ∧ t.getF (F.VID_CTX_RESULT_STATUS ctx) = Code.OK ∧ t.mem = s.mem) ∧
      (v.stop = 0 → v.units ≠ [] → v.closeFor = [] → Completes (exec (.videoClose (.host ctx)) s) fun t =>
        t.streamAt v.slot = some { v with closing := some (.host ctx) } ∧ t.regs = s.regs))) ∧
  (∀ (s : State) (via : Via) (q : PortCmd) (v : Stream), s.portCmd .video via = some q → videoForm q = true → s.videoStream q = some v →
    v.closing = none →
    (∀ ctx, via = .host ctx → ctx < 256 → v.stop ≠ 0 → ∀ c,
      (q.op = 3 ∧ v.kind ≠ 1 ∧ c = .decodeSubmit via) ∨ (q.op = 3 ∧ v.kind = 1 ∧ c = .encodeSubmit via) ∨ (q.op = 4 ∧ c = .advance via) ∨
        (q.op = 5 ∧ c = .ingest via) →
      Completes (exec c s) fun t => t.getF (F.VID_CTX_RESULT_STATUS ctx) = v.stop % 2 ^ 16 ∧ t.vid = s.vid ∧ t.mem = s.mem) ∧
    (q.op = 3 → v.kind = 0 → v.stop = 0 → Completes (exec (.decodeSubmit via) s) fun t =>
      ∃ x u, t.streamAt v.slot = some x ∧ x.units = v.units ++ [u] ∧ x.pictures = v.pictures ∧ u.kind = 0 ∧ u.via = via ∧
        u.addr = q.at 8 8 ∧ u.addr2 = q.at 16 8 ∧ u.length = q.at 24 4 ∧ t.vid.clock = s.vid.clock + 1 ∧ t.regs = s.regs ∧
        t.mem = s.mem) ∧
    (q.op = 3 → v.kind = 1 → v.stop = 0 → q.at 16 8 = 0 → q.at 24 4 = 0 → Completes (exec (.encodeSubmit via) s) fun t =>
      ∃ x u, t.streamAt v.slot = some x ∧ x.units = v.units ++ [u] ∧ x.pictures = v.pictures + 1 ∧ u.kind = 1 ∧ u.via = via ∧
        u.addr = q.at 8 8 ∧ u.picture = v.pictures ∧ u.key = bit (q.at 1 1) 1 ∧ u.rows = 0 ∧ t.regs = s.regs ∧ t.mem = s.mem) ∧
    (∀ u, q.op = 4 → v.kind = 1 → v.stop = 0 → v.advancing = some u → u.rows < q.at 28 4 → q.at 28 4 ≤ v.height →
      (∀ h ∈ v.units, h.headers = true) → Completes (exec (.advance via) s) fun t =>
        t.streamAt v.slot =
          some { v with units := v.units.map fun x => if x.arrived == u.arrived then { x with rows := q.at 28 4 } else x } ∧
        t.mem = s.mem ∧ ∀ ctx, via = .host ctx → ctx < 256 → t.getF (F.VID_CTX_RESULT_STATUS ctx) = Code.OK) ∧
    (∀ d u bs w, q.op = 5 → v.kind = 2 → v.stop = 0 → q.cell = none → s.vRead q.ctx (q.at 8 8) 32 = .ok (d, u) → leAt d 0x18 4 ≠ 0 →
      leAt d 0x18 4 ≤ 65535 → leAt d 0x1C 1 ≤ 1 → leAt d 0x1D 3 = 0 → bit (q.at 1 1) 0 = false →
      (u.addUnit q v { blankUnit 2 (q.at 8 8) with sample := d }).vRead v.ctx (leAt d 8 8) (sampleLength d) = .ok (bs, w) →
      (Config.sampleHead (leAt d 0x1C 1) bs).width ≤ 8192 → (Config.sampleHead (leAt d 0x1C 1) bs).height ≤ 8192 →
      (Config.sampleHead (leAt d 0x1C 1) bs).supported = true → tokenCount v d ≤ v.param 0x24 4 →
      Completes (exec (.ingest via) s) fun t =>
        ∃ x y, t.streamAt v.slot = some x ∧ x.units = v.units ++ [y] ∧ y.kind = 2 ∧ y.via = via ∧ y.sample = d ∧ y.addr = q.at 8 8) ∧
    (∀ d u ctx, q.op = 5 → v.kind = 2 → v.stop = 0 → via = .host ctx → ctx < 256 → s.vRead q.ctx (q.at 8 8) 32 = .ok (d, u) →
      leAt d 0x18 4 = 0 ∨ 1 < leAt d 0x1C 1 ∨ leAt d 0x1D 3 ≠ 0 → Completes (exec (.ingest via) s) fun t =>
        t.getF (F.VID_CTX_RESULT_STATUS ctx) = Code.VIDEO_COMMAND_BAD ∧ t.vid = s.vid))

/-- R312, R314, R319 to R322, R324, R325, R327, R329, R331: an engine takes a unit, for an encode stream with the samples of its next band. A decoded
unit leaves its stream, its picture, STATE and pool written; one with an unsupported tool stops the stream. A slice is a record in the
ring; the last ends its picture. A sample is packed into the open row. An engine's failure stops its streams. ROW_FREE gives a row back, and
OUT_RD moves. What is not due is refused. -/
def Obligations.EnginesWorkTheirUnits : Prop :=
  (∀ (s : State) (e : Nat), e < 14 →
    (s.bandUnits e = [] → exec (.bandSelect e) s = .refused .notDue) ∧
    (∀ v u, s.bandUnits e = [(v, u)] →
      (v.kind ≠ 1 → exec (.bandSelect e) s =
        .next { s with vid.bands := (s.vid.bands.filter fun b => b.1 != e) ++ [(e, v.slot, u.arrived)] }) ∧
      (∀ y cb cc w, v.kind = 1 →
        let b := u.bands.length
        let h := v.height
        let ch := ceilDiv h 2
        let yr := planeRow v v.width
        let cr := planeRow v (ceilDiv v.width 2)
        let c0 := u.addr + h * yr
        readRuns v.ctx [(u.addr + 64 * b * yr, (min h (64 * b + 64) - 64 * b) * yr),
          (c0 + 32 * b * cr, (min ch (32 * b + 32) - 32 * b) * cr),
          (c0 + ch * cr + 32 * b * cr, (min ch (32 * b + 32) - 32 * b) * cr)] s = some ([y, cb, cc], w) →
        Completes (exec (.bandSelect e) s) fun t =>
          t.streamAt v.slot = some { v with units := { u with bands := u.bands ++ [y ++ cb ++ cc] } :: v.units.drop 1 } ∧
          t.vid.bands = (s.vid.bands.filter fun b => b.1 != e) ++ [(e, v.slot, u.arrived)]))) ∧
  (∀ (s : State) (slot : Nat), slot < 64 → s.streamAt slot = none →
    exec (.decodeUnitComplete slot) s = .refused .notDue ∧ exec (.sliceEmit slot) s = .refused .notDue ∧
    (∀ i, exec (.sampleComplete slot i) s = .refused .notDue) ∧ (∀ req v, exec (.rowFree req slot v) s = .next s) ∧
    ∀ req v, exec (.outRdWrite req slot v) s = .next (s.setReg (R.VID_STR_OUT_RD slot) v)) ∧
  (∀ (s : State) (slot : Nat) (v : Stream) (u : VUnit) (l : List VUnit), slot < 64 → s.streamAt slot = some v → v.units = u :: l →
    v.stop = 0 → v.closing = none → v.closeFor = [] → v.fresh = true →
    (∀ bs w, u.kind = 0 → s.unitTaken slot u = true → s.vRead v.ctx u.addr u.length = .ok (bs, w) →
      let out := Config.decodeUnit v.desc [] [] bs
      (out.unsupported = true → Completes (exec (.decodeUnitComplete slot) s) fun t =>
        t.streamAt slot = some { v with units := [], stop := Code.UNSUPPORTED_TOOL } ∧ t.getF (F.VID_STR_STATUS_STATE slot) = 2 ∧
        t.getF (F.VID_STR_STATUS_STOP_CODE slot) = Code.UNSUPPORTED_TOOL) ∧
      (∀ z, out.unsupported = false → out.header = none → out.damaged = none → out.picture = none →
        engineRuns v.ctx u.uid ((v.state, (List.range stateBytes).map out.state) :: v.poolPieces out.pool) w = some z →
        (∀ ctx, u.via = .host ctx → ctx < 256) → Completes (exec (.decodeUnitComplete slot) s) fun t =>
          t.streamAt slot = some { v with fresh := false, units := v.units.filter fun x => x.arrived != u.arrived } ∧
          t.getF (F.VID_STR_UNITS_COUNT slot) = (z.getF (F.VID_STR_UNITS_COUNT slot) + 1) % 2 ^ 32 ∧ t.mem = z.mem)) ∧
    (∀ w, u.kind = 1 → u.headers = true → v.sliceEnd u.slices ≤ u.bands.length →
      let out := Config.encodeSlice v.desc [] [] (u.bands.take (v.sliceEnd u.slices)) u.picture u.key u.slices
      let last : Bool := v.sliceEnd u.slices == v.bandCount
      let head := recordHead slot 1 0 u.step (recordFlags last (u.emergency || out.emergency) u.replayed) u.picture out.bytes.length
        u.slices
      (s.writeRecord v u.uid u.step head out.bytes = (w, false) →
        exec (.sliceEmit slot) s = .next { w with held := w.held ++ [.sliceEmit slot] }) ∧
      (s.writeRecord v u.uid u.step head out.bytes = (w, true) → last = false → Completes (exec (.sliceEmit slot) s) fun t =>
        t.streamAt slot = some { v with units :=
          { u with slices := u.slices + 1, emergency := u.emergency || out.emergency } :: l } ∧ t.mem = w.mem ∧ t.out = w.out) ∧
      (∀ z, s.writeRecord v u.uid u.step head out.bytes = (w, true) → last = true →
        let fin := Config.encodeEnd v.desc [] [] u.bands u.picture u.key
        engineRuns v.ctx u.uid ((v.state, (List.range stateBytes).map fin.state) :: v.poolPieces fin.pool) w = some z →
        Completes (exec (.sliceEmit slot) s) fun t =>
          t.streamAt slot = some { v with fresh := false, units := v.units.filter fun x => x.arrived != u.arrived } ∧
          t.mem = z.mem)) ∧
    (∀ bs w r z, u.kind = 2 → s.unitTaken slot u = true → u.fromTier = false →
      s.vRead v.ctx (leAt u.sample 8 8) (sampleLength u.sample) = .ok (bs, w) → v.openRow = some r →
      let out := Config.ingestSample v.desc u.sample bs
      let n := tokenCount v u.sample
      let base := v.param 0x28 8 + r * v.param 0x34 4
      out.damaged = false → v.rowTokens + n ≤ v.param 0x24 4 → v.rowSegs < 4096 →
      engineRuns v.ctx u.uid [(base + 32 * v.rowSegs, segmentMark v u.sample v.rowTokens),
        (base + rowTable + v.rowTokens * tokenBytes v, (List.range (n * tokenBytes v)).map out.tokens),
        (v.state, (List.range stateBytes).map out.state)] w = some z →
      Completes (exec (.sampleComplete slot 0) s) fun t =>
        t.streamAt slot = some { v with
          rowTokens := v.rowTokens + n, rowSegs := v.rowSegs + 1, fresh := false,
          units := v.units.filter fun x => x.arrived != u.arrived } ∧ t.mem = z.mem)) ∧
  (∀ (s : State) (slot : Nat) (v : Stream) (req : Requester) (value : Word), slot < 64 → s.streamAt slot = some v →
    exec (.rowFree req slot value) s =
      .next (s.setStream { v with busyRows := v.busyRows.filter fun (x : Nat) => x != value.toNat % 64 }) ∧
    (v.closing = none → v.closeFor = [] →
      exec (.outRdWrite req slot value) s = .next (s.setReg (R.VID_STR_OUT_RD slot) value))) ∧
  (∀ (s : State) (e : Nat), e < 16 →
    (e ∈ s.vid.failed → exec (.videoEngineFail e) s = .refused .notDue) ∧
    (e ∉ s.vid.failed → Completes (exec (.videoEngineFail e) s) fun t =>
      t.vid.failed = s.vid.failed ++ [e] ∧ t.getF (F.VID_ENGINE_STATE e) = 2 ∧ t.mem = s.mem ∧
      ((∀ v ∈ s.vid.streams, v.engine ≠ e) → t.vid.streams = s.vid.streams) ∧
      ∀ v, s.vid.streams = [v] → v.engine = e → v.closing = none →
        t.streamAt v.slot = some { v with units := [], stop := 0x0805 }))

/-! ## Power, islands and temperature -/

/-- R57, R334, R350, R351, R381, R397, R409 to R411: power brings STANDBY; loss of the supply, or an input outside 40 to 60 V, turns the device OFF and
keeps PWR_TRIP_CAUSE; a sample within 44 to 58 V shows, one outside for 1 ms is counted once; a converter fewer retires the device. The
second half starts once every sensor has cooled, and ends in READY unless the device retires. GO_STANDBY quiesces, and the drained device is in
STANDBY with nothing in its memories. A sensor at its trip threshold trips the device, cause recorded; one below every threshold is only shown. -/
def Obligations.PowerComesAndGoes : Prop :=
  (∀ (s : State) (addr : Nat) (a b : FwVerdict), (s.pwr.supply = true → exec (.powerApplied addr a b) s = .refused .notDue) ∧
    (s.pwr.supply = false → Completes (exec (.powerApplied addr a b) s) fun t =>
      t.pwr.supply = true ∧ t.pwr.smbus = 0x60 + addr % 8 ∧ t.devState = 1 ∧ t.mem.hbm = [] ∧ t.cores = [] ∧ t.job.jobs = [] ∧
      t.pending = s.pending ∧ ∀ i, i < 4 → t.reg (R.GLB_UID i) = BitVec.ofNat 32 (Config.fuseUid.toNat / 2 ^ (32 * i)))) ∧
  (∀ s : State, (s.pwr.supply = false → exec .supplyLost s = .refused .notDue) ∧
    (s.pwr.supply = true → Completes (exec .supplyLost s) fun t =>
      t.pwr.supply = false ∧ t.mem.hbm = [] ∧ t.cores = [] ∧ t.job.jobs = [] ∧ t.reg R.PWR_TRIP_CAUSE = s.reg R.PWR_TRIP_CAUSE ∧
      t.pending = s.pending)) ∧
  (∀ (s : State) (mv a w : Nat), (s.pwr.supply = false → exec (.inputVoltageSample mv a w) s = .refused .notDue) ∧
    (s.pwr.supply = true → mv < 40000 ∨ 60000 < mv → Completes (exec (.inputVoltageSample mv a w) s) fun t =>
      t.pwr.supply = false ∧ t.mem.hbm = [] ∧ t.cores = [] ∧ t.job.jobs = [] ∧ t.reg R.PWR_TRIP_CAUSE = s.reg R.PWR_TRIP_CAUSE) ∧
    (s.pwr.supply = true → 44000 ≤ mv → mv ≤ 58000 → Completes (exec (.inputVoltageSample mv a w) s) fun t =>
      t.getF F.PWR_INPUT_MV = mv ∧ t.getF F.PWR_INPUT_CURRENT = a % 2 ^ 12 ∧ t.getF F.PWR_INPUT_POWER_WATTS = w % 2 ^ 16 ∧
      t.getF F.PWR_INPUT_PEAK_WATTS = max (s.getF F.PWR_INPUT_PEAK_WATTS) (mv * a / 10000) % 2 ^ 16 ∧
      t = { s with regs := t.regs, pwr.outSince := none, pwr.outTold := false } ∧
      s.regsKept t [F.PWR_INPUT_MV.off, F.PWR_INPUT_POWER_WATTS.off, F.PWR_INPUT_PEAK_WATTS.off]) ∧
    (∀ t0, s.pwr.supply = true → 40000 ≤ mv → mv ≤ 60000 → mv < 44000 ∨ 58000 < mv →
      (s.pwr.outSince = none → Completes (exec (.inputVoltageSample mv a w) s) fun t =>
        t.getF F.PWR_INPUT_MV = mv ∧ t.pwr = { s.pwr with outSince := some s.timeNs } ∧
        t.getF F.PWR_INPUT_EVENTS_COUNT = s.getF F.PWR_INPUT_EVENTS_COUNT) ∧
      (s.pwr.outSince = some t0 → s.pwr.outTold = false → t0 + 1000000 ≤ s.timeNs →
        Completes (exec (.inputVoltageSample mv a w) s) fun t =>
          t.getF F.PWR_INPUT_MV = mv ∧ t.pwr = { s.pwr with outTold := true } ∧
          t.getF F.PWR_INPUT_EVENTS_COUNT = (s.getF F.PWR_INPUT_EVENTS_COUNT + 1) % 2 ^ 32 ∧ t.mem = s.mem ∧ t.job = s.job))) ∧
  (∀ (s : State) (c : Nat), c < 8 → (bit (s.getF F.PWR_BUS_CONVERTERS) c = false → exec (.moduleConverterFail c) s = .refused .notDue) ∧
    (bit (s.getF F.PWR_BUS_CONVERTERS) c = true → Completes (exec (.moduleConverterFail c) s) fun t =>
      t.getF F.GLB_PROFILE_RETIRE = 1 ∧ (s.getF F.GLB_PROFILE_RETIRE = 0 → t.devState = 6 ∧ t.imageValid = false) ∧
      (s.getF F.GLB_PROFILE_RETIRE = 1 → t.getF F.PWR_BUS_CONVERTERS = s.getF F.PWR_BUS_CONVERTERS - 2 ^ c ∧
        s.onlyRegs t [F.PWR_BUS_CONVERTERS.off]))) ∧
  (∀ (s : State) (x : BootTests), x.wf = true →
    (s.devState ≠ 1 ∨ s.pwr.starting = false ∨ s.sec.recovery = true ∨ s.getF F.GLB_PROFILE_RETIRE = 1 →
      exec (.secondHalfStart x) s = .refused .notDue) ∧
    (s.devState = 1 → s.pwr.starting = true → s.sec.recovery = false → s.getF F.GLB_PROFILE_RETIRE = 0 →
      (s.pwr.tripped = true → s.tooHot = true →
        exec (.secondHalfStart x) s = .next { s with held := s.held ++ [.secondHalfStart x] }) ∧
      (s.pwr.tripped = false ∨ s.tooHot = false → Completes (exec (.secondHalfStart x) s) fun t =>
        t.pwr.starting = false ∧ t.pwr.tripped = false ∧
        (t.getF F.GLB_PROFILE_RETIRE = 0 → t.devState = 2 ∧ t.getF F.GLB_BOOT_STATUS_STAGE = 12)))) ∧
  (∀ (s : State) (req : Requester) (v : Word), (bit v.toNat 0 = false → exec (.goStandby req v) s = .refused .otherRow) ∧
    (bits v.toNat 1 0 = 1 →
      (s.devState = 2 ∨ s.devState = 3 ∨ s.devState = 4 ∨ s.devState = 6 → Completes (exec (.goStandby req v) s) fun t =>
        t.devState = 5 ∧ t.pwr.purpose = 1) ∧
      (s.devState ≠ 2 → s.devState ≠ 3 → s.devState ≠ 4 → s.devState ≠ 6 → exec (.goStandby req v) s = .next s))) ∧
  (∀ s : State, (s.devState ≠ 5 → exec .quiesceDrainComplete s = .refused .notDue) ∧
    (s.devState = 5 → s.job.records ≠ [] → exec .quiesceDrainComplete s = .next { s with held := s.held ++ [.quiesceDrainComplete] }) ∧
    (s.devState = 5 → s.job.records = [] → Completes (exec .quiesceDrainComplete s) fun t =>
      t.devState = 1 ∧ t.pwr.purpose = 0 ∧ t.mem.hbm = [] ∧ t.mem.llm = [] ∧ t.cores = [] ∧ t.job.jobs = [])) ∧
  (∀ (s : State) (kind index c : Nat), index < sensorCount kind →
    (s.pwr.supply = false → exec (.thermalSensorRead kind index c) s = .refused .notDue) ∧
    (s.pwr.supply = true → c < tripAt kind → (∀ w, warnAt kind = some w → c < w) → (kind, index) ∉ s.pwr.warned →
      Completes (exec (.thermalSensorRead kind index c) s) fun t =>
        t.pwr = { s.pwr with
          temps := (s.pwr.temps.filter fun (x : Nat × Nat × Nat) => !(x.1 == kind && x.2.1 == index)) ++ [(kind, index, c)] } ∧
        (kind = 1 → s.islandOn index = true → t.getF (F.PWR_ISL_STATE_TEMP index) = c) ∧
        (kind = 2 → t.getF (F.MEM_STACK_STATUS_TEMP index) = c) ∧ t = { s with regs := t.regs, pwr := t.pwr } ∧
        s.regsKept t [(F.PWR_ISL_STATE_TEMP index).off, (F.MEM_STACK_STATUS_TEMP index).off]) ∧
    (s.pwr.supply = true → tripAt kind ≤ c → s.pwr.tripped = false → Completes (exec (.thermalSensorRead kind index c) s) fun t =>
      t.pwr.tripped = true ∧ t.devState = 6 ∧ t.cores = [] ∧ t.mem.hbm = [] ∧ t.getF F.PWR_TRIP_CAUSE_KIND = kind ∧
      t.getF F.PWR_TRIP_CAUSE_INDEX = index ∧ t.getF F.PWR_TRIP_CAUSE_CELSIUS = min c 255))

/-- R337 to R345, R347, R348, R352, R406: a report shows an island's readings, and a stale record guard-bands it; RECAL marks it, the sweep at the full
Lull clears the marks. RESET quiesces an idle island, drained it is clear; one that does not drain has failed. An idle core keeps its
contents in RETENTION. A latch wakes an island that wakes on it. The spare phase and the backup clock serve once. A port in low power wakes on
its partner's pattern. Laser powers are shown, and low ones flagged. -/
def Obligations.IslandsAreManaged : Prop :=
  (∀ (s : State) (i l c d f : Nat), i < 1220 → (s.islandOn i = false → exec (.islandMonitorReport i l c d f) s = .refused .notDue) ∧
    (s.islandOn i = true → l ≤ 255 → c < 105 → (1, i) ∉ s.pwr.warned → Completes (exec (.islandMonitorReport i l c d f) s) fun t =>
      t.getF (F.PWR_ISL_STATE_TEMP i) = c ∧ t.getF (F.PWR_ISL_STATE_LOAD_INDEX i) = l ∧ t.getF (F.PWR_ISL_FREQ_AVERAGE i) = f % 2 ^ 12 ∧
      t.getF (F.PWR_ISL_EVENTS_DROOPS i) = min (s.getF (F.PWR_ISL_EVENTS_DROOPS i) + d) (2 ^ 16 - 1) ∧
      storeGet (fun _ => 0) t.pwr.peak i = max (storeGet (fun _ => 0) s.pwr.peak i) l ∧
      (s.calStale i l c = true → t.getF (F.PWR_ISL_STATE_GUARDBAND i) = 1 ∧ t.getF (F.PWR_ISL_STATE_RECAL_PENDING i) = 1 ∧
        t.getF (F.PWR_ISL_FREQ_TARGET i) = 94 * s.getF (F.PWR_ISL_CAL_F_MHZ i) / 100) ∧
      (s.calStale i l c = false → t.getF (F.PWR_ISL_STATE_GUARDBAND i) = s.getF (F.PWR_ISL_STATE_GUARDBAND i) ∧
        t.getF (F.PWR_ISL_FREQ_TARGET i) = s.getF (F.PWR_ISL_FREQ_TARGET i) ∧ t.job = s.job) ∧ t.mem = s.mem ∧ t.cores = s.cores)) ∧
  (∀ s : State, (s.momentOk 1 = false ∨ s.recalPending = [] → ∀ l, exec (.recalibrationSweep l) s = .refused .notDue) ∧
    (s.momentOk 1 = true → s.recalPending ≠ [] → Completes (exec (.recalibrationSweep []) s) fun t =>
      (∀ i, i < 1220 → t.getF (F.PWR_ISL_STATE_RECAL_PENDING i) = 0) ∧
      (∀ i ∈ s.recalPending, t.getF (F.PWR_ISL_STATE_GUARDBAND i) = 0 ∧
        t.getF (F.PWR_ISL_FREQ_TARGET i) = t.getF (F.PWR_ISL_CAL_F_MHZ i)) ∧ t.mem = s.mem ∧ t.cores = s.cores)) ∧
  (∀ (s : State) (req : Requester) (v : Word), (bit v.toNat 0 = true → exec (.recalAll req v) s = .refused .otherRow) ∧
    (bits v.toNat 1 0 = 0 → exec (.recalAll req v) s = .next s) ∧
    (bits v.toNat 1 0 = 2 → Completes (exec (.recalAll req v) s) fun t => (∀ i, i < 1220 →
      t.getF (F.PWR_ISL_STATE_RECAL_PENDING i) = if s.islandOn i = true then 1 else s.getF (F.PWR_ISL_STATE_RECAL_PENDING i)) ∧
      t.mem = s.mem ∧ t.cores = s.cores)) ∧
  (∀ (s : State) (req : Requester) (i : Nat) (v : Word), i < 1220 →
    (bit v.toNat 0 = false → exec (.islandReset req i v) s = .refused .otherRow) ∧
    (bits v.toNat 1 0 = 1 → (s.islandWork i = true ∨ s.islandState i = 0 ∨ 4 ≤ s.islandState i → exec (.islandReset req i v) s = .next s) ∧
      (s.islandWork i = false → 1 ≤ s.islandState i → s.islandState i ≤ 3 → Completes (exec (.islandReset req i v) s) fun t =>
        t.islandState i = 4 ∧ t.pwr.quiescing = s.pwr.quiescing ++ [i] ∧ t.mem = s.mem ∧ t.job = s.job ∧ t.cores = s.cores)) ∧
    (bit v.toNat 0 = true → exec (.islandRecal req i v) s = .refused .otherRow) ∧
    (bits v.toNat 1 0 = 0 ∨ bits v.toNat 1 0 = 2 ∧ s.islandWork i = true → exec (.islandRecal req i v) s = .next s) ∧
    (bits v.toNat 1 0 = 2 → s.islandWork i = false → Completes (exec (.islandRecal req i v) s) fun t =>
      t.getF (F.PWR_ISL_STATE_RECAL_PENDING i) = 1 ∧ t.mem = s.mem ∧ t.cores = s.cores ∧
      s.regsKept t [(F.PWR_ISL_STATE_RECAL_PENDING i).off, F.JOB_DEVICE_STATE_HOLD_PENDING.off])) ∧
  (∀ (s : State) (i : Nat), i < 1220 → s.islandState i ≠ 4 → exec (.islandDrained i) s = .refused .notDue) ∧
  (∀ (s : State) (p : Nat), p < 1088 → s.islandState p = 4 → (∀ j ∈ s.job.jobs, ∀ st, j.step = some st → p ∉ st.phys) →
    Completes (exec (.islandDrained p) s) fun t =>
      t.core p = { Core.idle with failed := (s.core p).failed } ∧ t.reg (R.JOB_CORE_FLAGS p) = 0 ∧ t.islandState p = 2 ∧
      t.pwr.quiescing = s.pwr.quiescing.filter (fun (x : Nat) => x != p) ∧ (∀ q, q ≠ p → t.core q = s.core q) ∧ t.mem = s.mem ∧
      t.job = s.job) ∧
  (∀ (s : State) (i : Nat), i < 1220 →
    (s.islandState i ≠ 4 → s.devState ≠ 5 ∨ s.islandState i = 0 → exec (.quiesceTimeout i) s = .refused .notDue) ∧
    (s.islandState i = 4 → 1196 ≤ i → i < 1200 → Completes (exec (.quiesceTimeout i) s) fun t =>
      t.islandState i = 0 ∧ i ∈ t.pwr.dead ∧ t.getF F.PWR_QUIESCE_TIMEOUTS_COUNT = (s.getF F.PWR_QUIESCE_TIMEOUTS_COUNT + 1) % 2 ^ 32 ∧
      t.getF (F.PWR_ISL_EVENTS_TIMEOUTS i) = (s.getF (F.PWR_ISL_EVENTS_TIMEOUTS i) + 1) % 2 ^ 8 ∧ t.getF F.GLB_PROFILE_DEGRADED = 1 ∧
      t.mem = s.mem ∧ t.job = s.job ∧ t.cores = s.cores)) ∧
  (∀ s : State, (s.pwr.retries = [] → exec .windbreakRetry s = .refused .notDue) ∧
    (s.pwr.retries ≠ [] → (∀ r ∈ s.pwr.retries, s.islandState r.1 = 4 ∨ s.islandState r.1 = 5) → exec .windbreakRetry s = .next s) ∧
    (∀ r l, s.pwr.retries = r :: l → s.islandState r.1 ≠ 4 → s.islandState r.1 ≠ 5 →
      exec .windbreakRetry s = .next { s with pwr.retries := l, held := s.held ++ [r.2] })) ∧
  (∀ (s : State) (p : Nat), p < 1088 →
    (s.getF (F.JOB_CORE_STATUS_STATE p) ≠ 1 ∨ s.islandState p ≠ 2 ∨ s.getF F.PWR_IDLE_RET_US_US = 0 →
      exec (.coreIdleRetention p) s = .refused .notDue) ∧
    (s.getF (F.JOB_CORE_STATUS_STATE p) = 1 → s.islandState p = 2 → s.getF F.PWR_IDLE_RET_US_US ≠ 0 →
      Completes (exec (.coreIdleRetention p) s) fun t =>
        t.islandState p = 3 ∧ t.cores = s.cores ∧ t.mem = s.mem ∧ t.job = s.job)) ∧
  (∀ (s : State) (i : Nat), i < 1220 →
    (s.islandState i = 1 → exec (.wakeLatchSet i) s = .next s) ∧
    (s.islandState i ≠ 1 → i ∉ s.pwr.latches → wakesOnLatch i = false ∨ s.islandState i ≠ 2 ∧ s.islandState i ≠ 3 →
      exec (.wakeLatchSet i) s = .next { s with pwr.latches := s.pwr.latches ++ [i] }) ∧
    (s.islandState i = 2 ∨ s.islandState i = 3 → wakesOnLatch i = true → (1156 ≤ i → i < 1188 → s.portState (i - 1156) ≠ 5) →
      Completes (exec (.wakeLatchSet i) s) fun t =>
        t.islandState i = 1 ∧ i ∉ t.pwr.latches ∧ t.mem = s.mem ∧ t.job = s.job ∧ t.cores = s.cores)) ∧
  (∀ (s : State) (i : Nat), i < 1220 →
    (s.islandState i = 0 → exec (.regulatorPhaseFail i) s = .refused .notDue ∧ exec (.clockGeneratorFail i) s = .refused .notDue) ∧
    (s.islandState i ≠ 0 → i ∉ s.pwr.phasesUsed → Completes (exec (.regulatorPhaseFail i) s) fun t =>
      t.pwr = { s.pwr with phasesUsed := s.pwr.phasesUsed ++ [i] } ∧ t.getF (F.PWR_ISL_STATE_SPARE_PHASE i) = 1 ∧
      t.getF (F.PWR_ISL_EVENTS_SWAPS i) = (s.getF (F.PWR_ISL_EVENTS_SWAPS i) + 1) % 2 ^ 8 ∧ t.mem = s.mem ∧ t.job = s.job) ∧
    (s.islandState i ≠ 0 → i ∉ s.pwr.clocksUsed → Completes (exec (.clockGeneratorFail i) s) fun t =>
      t.pwr = { s.pwr with clocksUsed := s.pwr.clocksUsed ++ [i] } ∧ t.getF (F.PWR_ISL_STATE_BACKUP_CLOCK i) = 1 ∧
      t.getF (F.PWR_ISL_EVENTS_SWAPS i) = (s.getF (F.PWR_ISL_EVENTS_SWAPS i) + 1) % 2 ^ 8 ∧ t.mem = s.mem ∧ t.job = s.job) ∧
    (s.islandState i ≠ 0 → 1196 ≤ i → i < 1200 →
      (i ∈ s.pwr.phasesUsed → Completes (exec (.regulatorPhaseFail i) s) fun t => t.islandState i = 0 ∧ i ∈ t.pwr.dead) ∧
      (i ∈ s.pwr.clocksUsed → Completes (exec (.clockGeneratorFail i) s) fun t => t.islandState i = 0 ∧ i ∈ t.pwr.dead))) ∧
  (∀ (s : State) (p : Nat), p < 32 →
    (bit (s.getF F.PWR_PORT_LP_MASK_MASK) p = false ∨ s.portState p ≠ 2 ∨ (s.port p).queue ≠ [] ∨ (s.port p).replay ≠ [] →
      exec (.portLpEnter p) s = .refused .notDue) ∧
    (bit (s.getF F.PWR_PORT_LP_MASK_MASK) p = true → s.portState p = 2 → (s.port p).queue = [] → (s.port p).replay = [] →
      Completes (exec (.portLpEnter p) s) fun t =>
        t.portState p = 5 ∧ t.port p = { s.port p with lp := 1 } ∧ t.out = s.out ++ [.lpEnter p] ∧
        (1156 + p ∉ s.pwr.latches → t.islandState (1156 + p) = 2) ∧ t.mem = s.mem ∧ t.job = s.job) ∧
    (s.portState p = 5 → Completes (exec (.portWakePattern p) s) fun t =>
      t.portState p = 2 ∧ t.port p = { s.port p with lp := 0 } ∧ t.islandState (1156 + p) = 1 ∧ t.mem = s.mem ∧ t.job = s.job) ∧
    (s.portState p ≠ 5 → exec (.portWakePattern p) s = .refused .notDue)) ∧
  (∀ (s : State) (p a b : Nat), 24 ≤ p → p < 32 → Completes (exec (.laserPowerUpdate p a b) s) fun t =>
    t.getF (F.LNK_PORT_LASER_POWER_A p) = min a 255 ∧ t.getF (F.LNK_PORT_LASER_POWER_B p) = min b 255 ∧
    t.getF (F.LNK_PORT_LASER_LOW_A p) = (if a < 136 then 1 else 0) ∧ t.getF (F.LNK_PORT_LASER_LOW_B p) = (if b < 136 then 1 else 0) ∧
    s.onlyRegs t [(F.LNK_PORT_LASER_POWER_A p).off])

/-! ## The host interface -/

/-- R353 to R355, R358, R367, R368, R370: training to a generation and width the standards give shows them and opens the link; a reset of the link
clears what it resets, takes the host's target notices back, raises the epoch by one and ends the host's tokens; D3hot and back; the configuration
space's switches as the host leaves them. A channel that stalls suspends the transfer at its head, with its context, address and bytes taken;
credits and a resume let the transfers that wait go on. -/
def Obligations.HostLinkTrainsResetsAndStalls : Prop :=
  (∀ (s : State) (gen width : Nat),
    (s.islandOn 1217 = false ∨ gen = 0 ∨ 6 < gen ∨ width ∉ [1, 2, 4, 8, 16] → exec (.hostLinkTrained gen width) s = .refused .notDue) ∧
    (s.islandOn 1217 = true → 1 ≤ gen → gen ≤ 6 → width ∈ [1, 2, 4, 8, 16] → Completes (exec (.hostLinkTrained gen width) s) fun t =>
      t.host.up = true ∧ t.getF F.GLB_HOST_LINK_GEN = gen ∧ t.getF F.GLB_HOST_LINK_WIDTH = width ∧
      t.getF F.GLB_HOST_LINK_FLIT = (if gen = 6 then 1 else 0) ∧
      t.getF F.REL_LOG_SEQ_COUNT = (s.getF F.REL_LOG_SEQ_COUNT + if gen < 6 ∨ width < 16 then 1 else 0) % 2 ^ 32 ∧
      t.mem = s.mem ∧ t.job = s.job ∧ t.cores = s.cores ∧ t.mail = s.mail)) ∧
  (∀ (s : State) (down : Bool), (s.host.up = false → exec (.hostLinkReset down) s = .refused .notDue) ∧
    (s.host.up = true → Completes (exec (.hostLinkReset down) s) fun t =>
      t.host.up = !down ∧ t.host.d3 = false ∧ t.host.masked = List.range 64 ∧ t.host.pendingMsix = [] ∧ t.host.bar4GiB = 64 ∧
      t.getF F.GLB_HOST_LINK_BUS_MASTER = 0 ∧ t.getF F.GLB_HOST_LINK_MSIX_ENABLED = 0 ∧ t.getF F.GLB_HOST_LINK_VCS = 0 ∧
      t.getF F.GLB_HOST_EPOCH_VALUE = (s.getF F.GLB_HOST_EPOCH_VALUE + 1) % 2 ^ 32 ∧ (∀ c, c < 32 → t.getF (ackTgt c) = 0) ∧
      t.stages = s.stages.filter (fun (e : Requester × Nat × Word) => e.1 != Requester.host) ∧
      t.sec.tokens = s.sec.tokens.filter (fun (x : Token) => x.who != 0) ∧ t.mem = s.mem ∧ t.job = s.job ∧ t.cores = s.cores)) ∧
  (∀ s : State, (s.host.up = false → exec .d3hotEntry s = .refused .notDue) ∧
    (s.host.up = true → exec .d3hotEntry s = .next { s with host.d3 := true }) ∧
    (s.host.d3 = false → exec .d3hotExit s = .refused .notDue) ∧
    (s.host.d3 = true → Completes (exec .d3hotExit s) fun t =>
      t.host.d3 = false ∧ t.host.up = s.host.up ∧ t.mem = s.mem ∧ t.job = s.job ∧ t.cores = s.cores ∧ t.mail = s.mail)) ∧
  (∀ (s : State) (bm msix : Bool) (vcs gib : Nat) (masked : List Nat),
    (s.host.up = false ∨ 2 < vcs ∨ (∃ v ∈ masked, 64 ≤ v) ∨ gib ∉ [1, 2, 4, 8, 16, 32, 64] →
      exec (.configSpaceWrite bm msix vcs masked gib) s = .refused .notDue) ∧
    (s.host.up = true → vcs ≤ 2 → (∀ v ∈ masked, v < 64) → gib ∈ [1, 2, 4, 8, 16, 32, 64] →
      Completes (exec (.configSpaceWrite bm msix vcs masked gib) s) fun t =>
        t.getF F.GLB_HOST_LINK_BUS_MASTER = (if bm then 1 else 0) ∧ t.getF F.GLB_HOST_LINK_MSIX_ENABLED = (if msix then 1 else 0) ∧
        t.getF F.GLB_HOST_LINK_VCS = vcs ∧ t.host.masked = masked ∧ t.host.bar4GiB = gib ∧
        t.getP P.GLB_BAR4_BASE = s.getP P.GLB_BAR4_BASE / (gib * 2 ^ 30) * (gib * 2 ^ 30) ∧
        t.getF F.GLB_HOST_LINK_GEN = s.getF F.GLB_HOST_LINK_GEN ∧ t.mem = s.mem ∧ t.job = s.job ∧ t.cores = s.cores ∧ t.mail = s.mail)) ∧
  (∀ (s : State) (vc n : Nat), vc < 3 →
    (s.vcFlows vc = true ∨ s.getF (F.GLB_DMA_SUSP_SUSPENDED vc) = 1 ∨ (∀ x ∈ s.host.dma, x.vc ≠ vc) →
      exec (.dmaStallTimeout vc n) s = .refused .notDue) ∧
    (∀ x, s.vcFlows vc = false → s.getF (F.GLB_DMA_SUSP_SUSPENDED vc) = 0 → s.host.dma.find? (fun (x : Transfer) => x.vc == vc) = some x →
      Completes (exec (.dmaStallTimeout vc n) s) fun t =>
        t.getF (F.GLB_DMA_SUSP_SUSPENDED vc) = 1 ∧ t.getF (F.GLB_DMA_SUSP_CONTEXT vc) = x.ctx.getD 0 % 2 ^ 8 ∧
        t.getF (F.GLB_DMA_SUSP_CONTEXT_VALID vc) = (if x.ctx.isSome then 1 else 0) ∧
        t.getF (F.GLB_DMA_SUSP_BYTES_VALUE vc) = (x.accepted + min n (x.data.length - x.accepted)) % 2 ^ 32 ∧
        t.getP (P.GLB_DMA_SUSP_ADDR vc) = x.addr % 2 ^ 64 ∧ t.mem = s.mem ∧ t.job = s.job ∧ t.cores = s.cores ∧ t.mail = s.mail)) ∧
  (∀ (s : State) (vc : Nat), vc < 3 →
    let others := s.host.stalled.filter fun (x : Nat) => x != vc
    exec (.hostCreditReturn vc false) s = .next { s with host.stalled := others ++ [vc] } ∧
    Completes (exec (.hostCreditReturn vc true) s) fun t =>
      t.host.stalled = others ∧ t.mem = s.mem ∧ t.job = s.job ∧ t.cores = s.cores ∧
      t.host.dma = (if { s with host.stalled := others }.vcFlows vc = true then s.host.dma.filter (fun (x : Transfer) => x.vc != vc)
        else s.host.dma)) ∧
  ∀ (s : State) (req : Requester) (v : Word), Completes (exec (.dmaResume req v) s) fun t =>
    (∀ vc, vc < 3 → t.getF (F.GLB_DMA_SUSP_SUSPENDED vc) =
      if bit v.toNat vc = true then 0 else s.getF (F.GLB_DMA_SUSP_SUSPENDED vc)) ∧
    (∀ x ∈ t.host.dma, x ∈ s.host.dma) ∧ t.host.up = s.host.up ∧ t.mem = s.mem ∧ t.job = s.job ∧ t.cores = s.cores ∧ t.mail = s.mail

/-- R361 to R366: a doorbell waits for a target that quiesces, is answered CHANNEL_BUSY, DOMAIN_OFF, BAD_NOTICE or SECURE_ONLY, or posts its notice, with the
payload a secure requester has laid at POINTER. A target acknowledges its notice, one of an opcode it does not implement with BAD_NOTICE, and NOP
with OK. A target posts one notice at a time, and a write of MB_TGT_ACK takes it back. R371 to R374: a controller target and an MSI-X vector take the
lowest pending unmasked source, and an end of interrupt ends it. -/
def Obligations.NoticesAndInterruptsAreServed : Prop :=
  (∀ (s : State) (req : Requester) (c : Nat) (v : Word) (bs : List Byte), c < 64 →
    let ptr := s.getP (reqPtr c)
    let len := s.getF (reqLen c)
    let op := s.getF (reqOp c)
    let seq := v.toNat % 2 ^ 16
    let answered (t : State) (code : Nat) : Prop := t.getF (ackCode c) = code ∧ t.getF (ackSeq c) = seq ∧ t.mail.notices = s.mail.notices ∧
      t.mail.store = s.mail.store ∧ t.mem = s.mem ∧ t.job = s.job
    (32 ≤ c → isSecure req = false → exec (.doorbell req c v bs) s = .refused .otherRow) ∧
    (c < 32 ∨ isSecure req = true →
      (∀ i, s.chanQuiet c = some i →
        exec (.doorbell req c v bs) s = .next { s with pwr.retries := s.pwr.retries ++ [(i, .doorbell req c v bs)] }) ∧
      (s.chanQuiet c = none →
        (s.chanBusy c = true → Completes (exec (.doorbell req c v bs) s) fun t =>
          answered t Code.CHANNEL_BUSY ∧ t.getF (ackBusy c) = 1 ∧ t.getF (ackState c) = s.getF (ackState c)) ∧
        (s.chanBusy c = false → s.chanOn c = false → Completes (exec (.doorbell req c v bs) s) fun t =>
          answered t Code.DOMAIN_OFF ∧ t.getF (ackState c) = 3) ∧
        (s.chanBusy c = false → s.chanOn c = true → badNotice c ptr len = true → Completes (exec (.doorbell req c v bs) s) fun t =>
          answered t Code.BAD_NOTICE ∧ t.getF (ackState c) = 3) ∧
        (s.chanBusy c = false → s.chanOn c = true → badNotice c ptr len = false → c < 32 → bit op 15 = true →
          Completes (exec (.doorbell req c v bs) s) fun t => answered t Code.SECURE_ONLY ∧ t.getF (ackState c) = 3) ∧
        (s.chanBusy c = false → s.chanOn c = true → badNotice c ptr len = false → 32 ≤ c ∨ bit op 15 = false →
          Completes (exec (.doorbell req c v bs) s) fun t =>
            t.getF (ackState c) = 1 ∧ t.mail.notices = s.mail.notices ++ [⟨c, ptr, len, op, seq, s.getF F.GLB_HOST_EPOCH_VALUE, callerOf req⟩] ∧
            t.mail.staged = s.mail.staged.filter (fun (x : Nat) => x != c) ∧
            (∀ a, storeGet zeroByte t.mail.store a =
              if 32 ≤ c ∧ ptr ≤ a ∧ a < ptr + min len bs.length then bs.getD (a - ptr) 0 else storeGet zeroByte s.mail.store a) ∧
            t.mem = s.mem ∧ t.job = s.job)))) ∧
  (∀ (s : State) (c code : Nat), (s.notice c = none → exec (.noticeAck c code) s = .refused .notDue ∧
      exec (.noticeUnimplemented c) s = .refused .notDue ∧ exec (.nop c) s = .refused .notDue) ∧
    (∀ n, c < 64 → s.notice c = some n →
      let acked (t : State) (k : Nat) : Prop := t.getF (ackState c) = 3 ∧ t.getF (ackCode c) = k ∧ t.getF (ackSeq c) = n.seq % 2 ^ 16 ∧
        t.getF (ackEpoch c) = n.epoch % 2 ^ 16 ∧ t.mail.notices = s.mail.notices.filter (fun (x : Notice) => x.chan != c) ∧
        t.mail.store = s.mail.store ∧ t.mem = s.mem ∧ t.job = s.job
      Completes (exec (.noticeAck c code) s) (acked · (code % 2 ^ 16)) ∧
      (opImplemented c n.op = true → exec (.noticeUnimplemented c) s = .refused .otherRow) ∧
      (opImplemented c n.op = false → Completes (exec (.noticeUnimplemented c) s) (acked · Code.BAD_NOTICE)) ∧
      (n.op ≠ 0 → exec (.nop c) s = .refused .otherRow) ∧
      (n.op = 0 → Completes (exec (.nop c) s) (acked · Code.OK)))) ∧
  (∀ (s : State) (c ptr op seq : Nat) (bs : List Byte), c < 64 →
    (s.chanOn c = false ∨ s.getF (ackTgt c) = 1 ∨ badNotice c ptr bs.length = true →
      exec (.targetNoticePost c ptr op seq bs) s = .refused .notDue) ∧
    (s.chanOn c = true → s.getF (ackTgt c) = 0 → badNotice c ptr bs.length = false →
      Completes (exec (.targetNoticePost c ptr op seq bs) s) fun t =>
        t.getF (ackTgt c) = 1 ∧ t.getP (tgtPtr c) = ptr % 2 ^ 64 ∧ t.getF (tgtLen c) = bs.length ∧ t.getF (tgtOp c) = op % 2 ^ 16 ∧
        t.getF (tgtSeq c) = seq % 2 ^ 16 ∧ t.mail.notices = s.mail.notices ∧
        (c < 32 → s.clean → t.hbm ptr bs.length = bs ∧ s.hbmKept t ptr bs.length ∧ t.mail = s.mail) ∧
        (32 ≤ c → storeGetRun zeroByte t.mail.store ptr bs.length = bs ∧ t.mem = s.mem))) ∧
  (∀ (s : State) (req : Requester) (c : Nat) (v : Word), c < 64 →
    (32 ≤ c → isSecure req = false → exec (.targetNoticeAck req c v) s = .refused .otherRow) ∧
    (c < 32 ∨ isSecure req = true →
      (∀ i, s.chanQuiet c = some i →
        exec (.targetNoticeAck req c v) s = .next { s with pwr.retries := s.pwr.retries ++ [(i, .targetNoticeAck req c v)] }) ∧
      (s.chanQuiet c = none → s.chanOn c = false ∨ s.getF (ackTgt c) = 0 → exec (.targetNoticeAck req c v) s = .next s) ∧
      (s.chanQuiet c = none → s.chanOn c = true → s.getF (ackTgt c) ≠ 0 → Completes (exec (.targetNoticeAck req c v) s) fun t =>
        t.getF (ackTgt c) = 0 ∧ t.mail = { s.mail with targetAcks := s.mail.targetAcks ++ [(c, v.toNat % 2 ^ 16)] } ∧
        t = { s with regs := t.regs, mail := t.mail } ∧ s.regsKept t [(ackTgt c).off]))) ∧
  (∀ (s : State) (g v : Nat) (late : Bool), g < 6 → v < 64 →
    (s.getF (F.IRQ_TGT_ACTIVE_VALID g) = 1 ∨ s.targetOn g = false ∨ s.irqNext g late (fun _ => true) = none →
      exec (.interruptDeliver g v late) s = .refused .notDue) ∧
    (∀ n, s.getF (F.IRQ_TGT_ACTIVE_VALID g) = 0 → s.targetOn g = true → s.irqNext g late (fun _ => true) = some n →
      Completes (exec (.interruptDeliver g v late) s) fun t =>
        t.getF (F.IRQ_TGT_ACTIVE_VALID g) = 1 ∧ t.getF (F.IRQ_TGT_ACTIVE_SOURCE g) = n ∧ bit (t.getF (F.IRQ_SRC_PENDING n)) g = false ∧
        bit (t.getF (F.IRQ_SRC_ACTIVE n)) g = true ∧ t.out = s.out ++ [.interrupt g n] ∧
        s.onlyRegsOut t [(F.IRQ_TGT_ACTIVE_VALID g).off, (F.IRQ_SRC_PENDING n).off, F.IRQ_MASK_LATE_COUNT.off])) ∧
  (∀ (s : State) (v : Nat) (late : Bool), v < 64 →
    let next := s.irqNext 6 late fun n => s.getF (F.IRQ_SRC_VECTOR n) == v
    (s.msixOpen = false ∨ s.getF (F.IRQ_HOST_VEC_OUTSTANDING v) = 1 ∨ next = none ∨
        (∃ n, next = some n ∧ (s.recordsWait n (s.irqClass n) = true ∨
          v ∉ s.host.masked ∧ s.vcOpen (s.vcOf (s.irqClass n)) = false)) → exec (.interruptDeliver 6 v late) s = .refused .notDue) ∧
    (∀ n, s.msixOpen = true → s.getF (F.IRQ_HOST_VEC_OUTSTANDING v) = 0 → next = some n → s.recordsWait n (s.irqClass n) = false →
      v ∈ s.host.masked ∨ s.vcOpen (s.vcOf (s.irqClass n)) = true → Completes (exec (.interruptDeliver 6 v late) s) fun t =>
        t.getF (F.IRQ_HOST_VEC_OUTSTANDING v) = 1 ∧ t.getF (F.IRQ_HOST_VEC_SOURCE v) = n ∧ bit (t.getF (F.IRQ_SRC_PENDING n)) 6 = false ∧
        bit (t.getF (F.IRQ_SRC_ACTIVE n)) 6 = true ∧ t.mem = s.mem ∧ t.job = s.job ∧
        (v ∈ s.host.masked → t.out = s.out ∧ t.host.pendingMsix = s.host.pendingMsix ++ [v]) ∧
        (v ∉ s.host.masked → t.out = s.out ++ [.msix (s.vcOf (s.irqClass n)) v] ∧ t.host.pendingMsix = s.host.pendingMsix))) ∧
  (∀ (s : State) (req : Requester) (g : Nat) (v : Word), g < 6 →
    let n := v.toNat % 256
    (s.isTarget g req = false ∨ s.getF (F.IRQ_TGT_ACTIVE_VALID g) = 0 ∨ s.getF (F.IRQ_TGT_ACTIVE_SOURCE g) ≠ n →
      exec (.irqTgtEoi req g v) s = .next s) ∧
    (s.isTarget g req = true → s.getF (F.IRQ_TGT_ACTIVE_VALID g) = 1 → s.getF (F.IRQ_TGT_ACTIVE_SOURCE g) = n →
      Completes (exec (.irqTgtEoi req g v) s) fun t =>
        t.getF (F.IRQ_TGT_ACTIVE_VALID g) = 0 ∧ t.getF (F.IRQ_SRC_ACTIVE n) = s.getF (F.IRQ_SRC_ACTIVE n) - 2 ^ g ∧
        s.onlyRegs t [(F.IRQ_TGT_ACTIVE_VALID g).off, (F.IRQ_SRC_ACTIVE n).off])) ∧
  ∀ (s : State) (req : Requester) (v : Word),
    let x := v.toNat % 64
    let n := s.getF (F.IRQ_HOST_VEC_SOURCE x)
    (s.getF (F.IRQ_HOST_VEC_OUTSTANDING x) = 0 → exec (.irqHostEoi req v) s = .next s) ∧
    (s.getF (F.IRQ_HOST_VEC_OUTSTANDING x) = 1 → Completes (exec (.irqHostEoi req v) s) fun t =>
      t.getF (F.IRQ_HOST_VEC_OUTSTANDING x) = 0 ∧ t.getF (F.IRQ_SRC_ACTIVE n) = s.getF (F.IRQ_SRC_ACTIVE n) - 2 ^ 6 ∧
      s.onlyRegs t [(F.IRQ_HOST_VEC_OUTSTANDING x).off, (F.IRQ_SRC_ACTIVE n).off])

/-! ## Security, firmware and management -/

/-- R381, R384 to R391, R396, R397: a service of a mailbox opcode runs on the notice in flight, once, and acknowledges it; a payload that cannot be read is
answered BAD_NOTICE. GET_INFO and GET_CERTIFICATES reply where the reply fits; WARM_RESET quiesces; SET_BOOT, STORE_IMAGE and START leave what a boot
uses; a challenge's nonce answers one token, and tokens end when revoked or expired; weights are imported decrypted; owner keys are enrolled and
revoked by records; a model key comes from a management session; a system controller's patch is signed. -/
def Obligations.MailboxServicesAnswer : Prop :=
  (∀ (s : State) (c : Nat) (valid : Bool) (sig : SigVerdict) (page : Option (List Byte)),
    ∀ r ∈ ([(1, .getInfo c), (4, .storeImage c sig), (0x10, .debugChallenge c), (0x11, .debugToken c valid), (0x12, .debugRevoke c),
        (0x13, .getCertificates c), (0x14, .importWeights c page), (0x8001, .enrol c valid), (0x8001, .revoke c valid), (0x8002, .modelKey c),
        (0x8003, .signPatch c)] ++
        (if c < 24 then [(2, .warmReset (.notice c)), (3, .setBoot (.notice c)), (5, .start (.notice c))] else []) : List (Nat × Instr)),
      (s.notice c = none → exec r.2 s = .refused .notDue) ∧
      (∀ n, s.notice c = some n → n.op ≠ r.1 ∨ opImplemented c n.op = false → exec r.2 s = .refused .otherRow) ∧
      (∀ n, c < 32 → s.notice c = some n → n.op = r.1 → opImplemented c n.op = true → s.poisoned n.ptr n.len = true →
        exec r.2 s = .next (s.completeNotice n Code.BAD_NOTICE))) ∧
  (∀ (s : State) (c : Nat) (n : Notice), s.asks c 1 n →
    let bs := if c < 24 then s.infoBytes else s.fresh 64
    Completes (exec (.getInfo c) s) fun t =>
      (n.ptr + bs.length ≤ 2 ^ 30 → t.acked n Code.OK ∧ s.replied t n n.ptr bs) ∧
      (2 ^ 30 < n.ptr + bs.length → t.acked n Code.BAD_NOTICE ∧ t.mem = s.mem) ∧ t.job = s.job ∧ t.sec = s.sec) ∧
  (∀ (s : State) (c : Nat) (n : Notice), c < 24 → s.asks c 2 n → Completes (exec (.warmReset (.notice c)) s) fun t =>
    (s.devState = 5 → t.acked n Code.OK ∧ t.devState = 5 ∧ t.pwr = { s.pwr with purpose := 2 } ∧ t.job = s.job) ∧
    (s.devState ≠ 0 → s.devState ≠ 5 → s.pwr.tripped = false → t.devState = 5 ∧ t.pwr.purpose = 2)) ∧
  (∀ (s : State) (bs : List Byte), (s.devState = 0 ∨ s.sec.recovery = true → exec (.warmReset (.mgmt bs)) s = .refused .notDue ∧
      exec (.setBoot (.mgmt bs)) s = .refused .notDue ∧ exec (.start (.mgmt bs)) s = .refused .notDue) ∧
    (s.sec.recovery = false → s.devState ≠ 0 → (s.devState = 5 → Completes (exec (.warmReset (.mgmt bs)) s) fun t =>
        t = { s with pwr.purpose := 2, out := s.out ++ [.mgmt (.answer (leBytes 2 Code.OK))] }) ∧
      (s.devState ≠ 5 → s.pwr.tripped = false → Completes (exec (.warmReset (.mgmt bs)) s) fun t =>
        t.devState = 5 ∧ t.pwr.purpose = 2))) ∧
  (∀ (s : State) (caller : Caller) (p : List Byte),
    (match caller with
      | .notice c => c < 24 ∧ ∃ n, s.asks c 3 n ∧ p = s.payload n
      | .mgmt bs => p = bs ∧ s.devState ≠ 0 ∧ s.sec.recovery = false) →
    Completes (exec (.setBoot caller) s) fun t =>
      (4 ≤ p.length → t.sec = { s.sec with active := bits (leAt p 0 4) 0 0, bootImage := bits (leAt p 0 4) 1 1, autoStart := bit (leAt p 0 4) 8 } ∧
        t.getF F.GLB_BOOT_STATUS_AUTO_START = bits (leAt p 0 4) 8 8) ∧
      (p.length < 4 → t.sec = s.sec ∧ t.getF F.GLB_BOOT_STATUS_AUTO_START = s.getF F.GLB_BOOT_STATUS_AUTO_START) ∧
      (∀ c n, caller = .notice c → s.notice c = some n → t.acked n (if 4 ≤ p.length then Code.OK else Code.BAD_NOTICE)) ∧
      (∀ bs, caller = .mgmt bs → t.out = s.out ++ [.mgmt (.answer (leBytes 2 (if 4 ≤ p.length then Code.OK else Code.BAD_NOTICE)))]) ∧
      t.mem = s.mem ∧ t.job = s.job) ∧
  (∀ (s : State) (c : Nat) (n : Notice) (sig : SigVerdict), s.asks c 4 n → Completes (exec (.storeImage c sig) s) fun t =>
    let p := s.payload n
    (p.length < 8 ∨ 1 < leAt p 0 1 → t.acked n Code.BAD_NOTICE ∧ t.sec = s.sec) ∧
    (∀ f, 8 ≤ p.length → leAt p 0 1 ≤ 1 → s.checks1to4 (p.drop 8) sig = some f → t.acked n f.code ∧ t.sec = s.sec) ∧
    (8 ≤ p.length → s.checks1to4 (p.drop 8) sig = none →
      (leAt p 0 1 = 0 → t.acked n Code.OK ∧ t.sec = { s.sec with imageA := p.drop 8 }) ∧
      (leAt p 0 1 = 1 → t.acked n Code.OK ∧ t.sec = { s.sec with imageB := p.drop 8 })) ∧ t.mem = s.mem ∧ t.img = s.img ∧ t.job = s.job) ∧
  (∀ (s : State) (caller : Caller),
    (match caller with
      | .notice c => c < 24 ∧ ∃ n, s.asks c 5 n
      | .mgmt _ => s.devState ≠ 0 ∧ s.sec.recovery = false) →
    Completes (exec (.start caller) s) fun t =>
      let code := if s.getF F.GLB_PROFILE_RETIRE = 1 then Code.DEVICE_RETIRE else Code.OK
      t.pwr.starting = (s.pwr.starting || s.getF F.GLB_PROFILE_RETIRE == 0 && s.devState == 1 && !s.sec.recovery) ∧
      (∀ c n, caller = .notice c → s.notice c = some n → t.acked n code) ∧
      (∀ bs, caller = .mgmt bs → t.out = s.out ++ [.mgmt (.answer (leBytes 2 code))]) ∧
      t.mem = s.mem ∧ t.job = s.job ∧ t.sec = s.sec ∧ t.devState = s.devState) ∧
  (∀ (s : State) (c : Nat) (n : Notice), s.asks c 0x10 n → Completes (exec (.debugChallenge c) s) fun t =>
    (n.ptr + 16 ≤ chanBytes c → t.acked n Code.OK ∧ s.replied t n n.ptr (s.fresh 16) ∧
      t.sec = { s.sec with
        nonces := (s.sec.nonces.filter fun (x : Nonce) => x.who != n.who) ++ [⟨n.who, leNat (s.fresh 16), s.timeNs + 60 * 10 ^ 9⟩] }) ∧
    (chanBytes c < n.ptr + 16 → t.acked n Code.BAD_NOTICE ∧ t.sec = s.sec ∧ t.mem = s.mem)) ∧
  (∀ (s : State) (c : Nat) (n : Notice) (valid : Bool), s.asks c 0x11 n → Completes (exec (.debugToken c valid) s) fun t =>
    let p := s.payload n
    let left := s.sec.nonces.filter fun (x : Nonce) => x.who != n.who
    (valid = false ∨ s.tokenOk n.who p = false → t.acked n Code.TOKEN_INVALID ∧ t.sec = { s.sec with nonces := left }) ∧
    (valid = true → s.tokenOk n.who p = true → t.acked n Code.OK ∧ t.sec = { s.sec with
      nonces := left
      tokens := (s.sec.tokens.filter fun (x : Token) => x.who != n.who) ++
        [⟨n.who, leAt p 6 1, leAt p 0x30 1, s.timeNs + leAt p 0x28 4 * 10 ^ 9⟩] }) ∧ t.mem = s.mem ∧ t.job = s.job) ∧
  (∀ (s : State) (c : Nat) (n : Notice), s.asks c 0x12 n → Completes (exec (.debugRevoke c) s) fun t =>
    t.acked n Code.OK ∧ t.sec = { s.sec with tokens := s.sec.tokens.filter fun (x : Token) => x.who != n.who } ∧ t.mem = s.mem ∧
    t.job = s.job) ∧
  (∀ (s : State) (who : Nat),
    ((∀ x ∈ s.sec.nonces, x.who ≠ who) → exec (.nonceExpire who) s = .refused .notDue) ∧
    ((∃ x ∈ s.sec.nonces, x.who = who) →
      exec (.nonceExpire who) s = .next { s with sec.nonces := s.sec.nonces.filter fun (x : Nonce) => x.who != who }) ∧
    ((∀ x ∈ s.sec.tokens, x.who ≠ who) → exec (.tokenExpired who) s = .refused .notDue) ∧
    ((∃ x ∈ s.sec.tokens, x.who = who) → Completes (exec (.tokenExpired who) s) fun t =>
      t.sec = { s.sec with tokens := s.sec.tokens.filter fun (x : Token) => x.who != who } ∧ t.mem = s.mem ∧ t.job = s.job)) ∧
  (∀ (s : State) (c : Nat) (n : Notice), s.asks c 0x13 n → Completes (exec (.getCertificates c) s) fun t =>
    let bs := Config.certChain s.running
    (n.ptr + bs.length ≤ chanBytes c → t.acked n Code.OK ∧ s.replied t n n.ptr bs) ∧
    (chanBytes c < n.ptr + bs.length → t.acked n Code.BAD_NOTICE ∧ t.mem = s.mem) ∧ t.sec = s.sec ∧ t.job = s.job) ∧
  (∀ (s : State) (c : Nat) (n : Notice) (page : Option (List Byte)), s.asks c 0x14 n →
    let i := leAt (s.payload n) 0 4
    let good (w : Partition) (d : List Byte) : Prop := page = some d ∧ s.weights = some w ∧ s.sec.keyLoaded = true ∧ w.priv = true ∧
      (s.payload n).length = 32 + pageBytes ∧ d.length = pageBytes ∧ i < w.count
    ((∀ w d, ¬ good w d) → Completes (exec (.importWeights c page) s) fun t => t.acked n Code.BAD_NOTICE ∧ t.mem = s.mem) ∧
    (∀ w d, good w d →
      (s.bankedNow w = true → Completes (exec (.importWeights c page) s) fun t => t.acked n Code.BANK_REFUSED ∧ t.mem = s.mem) ∧
      (s.bankedNow w = false → s.clean → Completes (exec (.importWeights c page) s) fun t => t.acked n Code.OK ∧
        t.hbm ((w.first + i) * pageBytes) pageBytes = d ∧ s.hbmKept t ((w.first + i) * pageBytes) pageBytes ∧ t.job = s.job ∧
        t.sec = s.sec))) ∧
  (∀ (s : State) (c : Nat) (n : Notice) (valid : Bool), s.asks c 0x8001 n →
    let p := s.payload n
    let slot := leAt p 1 1
    let others := s.sec.owners.filter fun (o : Nat × List Byte) => o.1 != slot
    (valid = false ∨ s.enrolOk 1 p = false → Completes (exec (.enrol c valid) s) fun t => t.acked n Code.ENROL_REFUSED ∧ t.sec = s.sec) ∧
    (valid = true → s.enrolOk 1 p = true → Completes (exec (.enrol c valid) s) fun t => t.acked n Code.OK ∧
      t.sec = { s.sec with owners := others ++ [(slot, (p.drop 0x20).take 96)], counter := leAt p 0x18 8 } ∧
      bit (t.getF F.GLB_OWNER_SLOTS_ENROLLED) (slot - 1) = true ∧ bit (t.getF F.GLB_OWNER_SLOTS_REVOKED) (slot - 1) = false ∧ t.mem = s.mem ∧
      t.job = s.job) ∧
    (valid = false ∨ s.enrolOk 2 p = false ∨ s.enrolled slot = false →
      Completes (exec (.revoke c valid) s) fun t => t.acked n Code.ENROL_REFUSED ∧ t.sec = s.sec) ∧
    (valid = true → s.enrolOk 2 p = true → s.enrolled slot = true → Completes (exec (.revoke c valid) s) fun t => t.acked n Code.OK ∧
      t.sec.owners = others ∧ t.sec.counter = leAt p 0x18 8 ∧ t.sec.tokens = s.sec.tokens.filter (fun (x : Token) => x.slot != slot) ∧
      bit (t.getF F.GLB_OWNER_SLOTS_ENROLLED) (slot - 1) = false ∧ bit (t.getF F.GLB_OWNER_SLOTS_REVOKED) (slot - 1) = true ∧
      t.mem = s.mem)) ∧
  (∀ (s : State) (c : Nat) (n : Notice), s.asks c 0x8002 n → Completes (exec (.modelKey c) s) fun t =>
    let p := s.payload n
    (n.who ≠ 2 → t.acked n Code.NOT_AUTHORIZED ∧ t.sec = s.sec) ∧
    (n.who = 2 → p.length < 104 → t.acked n Code.BAD_NOTICE ∧ t.sec = s.sec) ∧
    (n.who = 2 → 104 ≤ p.length → t.acked n Code.OK ∧ t.sec = { s.sec with
      modelKey := some ⟨p.take 64, (p.drop 64).take 32, leAt p 96 8⟩
      keyLoaded := leAt p 96 8 == s.getP P.SIL_MODEL_ID }) ∧ t.mem = s.mem ∧ t.job = s.job) ∧
  ∀ (s : State) (c : Nat) (n : Notice), s.asks c 0x8003 n → Completes (exec (.signPatch c) s) fun t =>
    let p := s.payload n
    (n.who ≠ 1 → t.acked n Code.NOT_AUTHORIZED ∧ t.mail.store = s.mail.store) ∧
    (n.who = 1 → p.length < 256 ∨ imageKind p ≠ 1 → t.acked n Code.BAD_NOTICE ∧ t.mail.store = s.mail.store) ∧
    (n.who = 1 → 256 ≤ p.length → imageKind p = 1 → t.acked n Code.OK ∧
      s.replied t n (n.ptr + (p.length - 128)) (leBytes 16 15 ++ s.fresh 96 ++ leBytes 16 0)) ∧ t.sec = s.sec ∧ t.job = s.job

/-- R382, R392 to R395: a message to the management endpoint is answered as its type says, not at all in recovery but for what recovery serves, and not
ready where it needs domains that are off; at most four sessions are open; measurements cover the running firmware, image, policy, owners and
counters; a sensor read answers its registers. A bundle that passes its checks is staged, or boots at once in recovery; an activation asked for
runs at the next full Lull, with tokens and owners kept. -/
def Obligations.ManagementAndFirmwareAct : Prop :=
  (∀ (s : State) (m : MgmtMessage), s.mgmtUp = false → exec (.mctpMessage m) s = .refused .notDue) ∧
  (∀ s : State, s.mgmtUp = true → exec (.mctpMessage .unsupported) s = .next s ∧
    (∀ m ∈ [MgmtMessage.control, .pldmBase], Completes (exec (.mctpMessage m) s) fun t =>
      s.answered t ∧ t = { s with free := t.free, out := t.out }) ∧
    (∀ sw, ∀ m ∈ [MgmtMessage.pldm sw, .spdm sw], (s.sec.recovery = true → exec (.mctpMessage m) s = .next s) ∧
      (s.sec.recovery = false → sw = true → s.notReady = true → exec (.mctpMessage m) s = .next { s with out := s.out ++ [.mgmt .notReady] }) ∧
      (s.sec.recovery = false → sw = false ∨ s.notReady = false → Completes (exec (.mctpMessage m) s) fun t =>
        s.answered t ∧ t = { s with free := t.free, out := t.out })) ∧
    (∀ ends sw, (s.sec.recovery = true ∨ s.sec.sessions = 0 → exec (.mctpMessage (.secured ends sw)) s = .next s) ∧
      (s.sec.recovery = false → s.sec.sessions ≠ 0 → Completes (exec (.mctpMessage (.secured ends sw)) s) fun t =>
        t.sec = { s.sec with sessions := s.sec.sessions - if ends then 1 else 0 } ∧
        (sw = true → s.notReady = true → t.out = s.out ++ [.mgmt .notReady]) ∧ (sw = false ∨ s.notReady = false → s.answered t) ∧
        t = { s with free := t.free, out := t.out, sec := t.sec }))) ∧
  (∀ s : State, (s.mgmtUp = false ∨ s.sec.recovery = true → exec .spdmKeyExchange s = .refused .notDue ∧
      exec .spdmGetMeasurements s = .refused .notDue ∧ ∀ id, exec (.pldmSensorRead id) s = .refused .notDue) ∧
    (s.mgmtUp = true → s.sec.recovery = false →
      (4 ≤ s.sec.sessions → exec .spdmKeyExchange s = .next { s with out := s.out ++ [.mgmt .busy] }) ∧
      (s.sec.sessions < 4 → Completes (exec .spdmKeyExchange s) fun t =>
        s.answered t ∧ t = { s with free := t.free, out := t.out, sec.sessions := s.sec.sessions + 1 }) ∧
      (exec .spdmGetMeasurements s = .next { s with
        free := s.free + 96
        out := s.out ++ [.mgmt (.answer ((s.measured.zipIdx.flatMap fun x => Config.measurement (x.2 + 1) x.1) ++ s.fresh 96))] }) ∧
      (∀ id, (s.sensor id = none → Completes (exec (.pldmSensorRead id) s) fun t =>
          s.answered t ∧ t = { s with free := t.free, out := t.out }) ∧
        (∀ sw vs, s.sensor id = some (sw, vs) →
          (sw = true → s.notReady = true → exec (.pldmSensorRead id) s = .next { s with out := s.out ++ [.mgmt .notReady] }) ∧
          (sw = false ∨ s.notReady = false →
            exec (.pldmSensorRead id) s = .next { s with out := s.out ++ [.mgmt (.answer (vs.flatMap (leBytes 4)))] }))))) ∧
  (∀ (s : State) (b : List Byte) (v : FwVerdict),
    let slot := 1 - s.sec.active
    let code := s.checkBundle b v
    (s.mgmtUp = false → exec (.fwVerifyComplete b v) s = .refused .notDue) ∧
    (s.mgmtUp = true → Completes (exec (.fwVerifyComplete b v) s) fun t =>
      t.bundle slot = b ∧ (code ≠ 0 ∨ s.sec.recovery = false → t.bundle (1 - slot) = s.bundle (1 - slot) ∧ t.sec.active = s.sec.active ∧
        t.sec.staged = slot ∧ t.sec.verified = (code == 0) ∧ t.sec.activate = false ∧ t.getF F.GLB_FW_STAGED_LAST_CODE = code ∧
        t.getF F.GLB_FW_STAGED_STATE = if code = 0 then 2 else 0) ∧
      (code ≠ 0 → t.out = s.out ++ [.mgmt .verifyFailed]) ∧ (code = 0 → s.answered t) ∧
      (code = 0 → s.sec.recovery = true → t.sec.recovery = false ∧ t.sec.active = slot ∧ t.sec.verified = false ∧ t.sec.activate = false ∧
        t.getF F.GLB_BOOT_STATUS_FW_SLOT = slot ∧ t.getF F.GLB_FW_VERSION_VALUE = bundleVersion b ∧ t.getF F.GLB_BOOT_STATUS_STAGE = 4 ∧
        t.pwr.starting = (s.sec.autoStart && s.getF F.GLB_PROFILE_RETIRE == 0)) ∧
      t.mem = s.mem ∧ t.sec.tokens = s.sec.tokens ∧ t.sec.owners = s.sec.owners)) ∧
  (∀ s : State, (s.mgmtUp = false ∨ s.sec.verified = false ∨ s.sec.recovery = true → exec .activateFirmware s = .refused .notDue) ∧
    (s.mgmtUp = true → s.sec.verified = true → s.sec.recovery = false →
      (s.notReady = true → exec .activateFirmware s = .next { s with out := s.out ++ [.mgmt .notReady] }) ∧
      (s.notReady = false → Completes (exec .activateFirmware s) fun t =>
        t.sec = { s.sec with activate := true } ∧ t.getF F.GLB_FW_STAGED_STATE = 3 ∧ s.answered t ∧ t.mem = s.mem ∧ t.cores = s.cores))) ∧
  ∀ s : State, (s.sec.activate = false ∨ s.momentOk 1 = false → exec .firmwareActivation s = .refused .notDue) ∧
    (s.sec.activate = true → s.momentOk 1 = true → Completes (exec .firmwareActivation s) fun t =>
      t.sec = { s.sec with recovery := false, active := s.sec.staged, verified := false, activate := false } ∧
      t.getF F.GLB_BOOT_STATUS_FW_SLOT = s.sec.staged % 2 ∧ t.getF F.GLB_FW_VERSION_VALUE = bundleVersion (s.bundle s.sec.staged) ∧
      t.getF F.GLB_FW_SECURITY_VALUE = (if bundleAdvance (s.bundle s.sec.staged) = true then bundleSecurity (s.bundle s.sec.staged)
        else s.getF F.GLB_FW_SECURITY_VALUE) ∧ t.reg R.GLB_FW_STAGED = 0 ∧ t.mem = s.mem ∧ t.cores = s.cores)
end

