-- ==== Sys2Proof/Laws/State.lean ====
section
/-! SUPPORT. What each update of the state leaves of each field, true by unfolding, so that no proof opens a record update. -/

namespace Sys2Proof.Machine

open Sys2Proof

variable (s : State)

/-! ## setReg -/

@[simp] theorem State.setReg_pending (off : Nat) (v : Word) : (s.setReg off v).pending = s.pending := by rfl
@[simp] theorem State.setReg_held (off : Nat) (v : Word) : (s.setReg off v).held = s.held := by rfl
@[simp] theorem State.setReg_free (off : Nat) (v : Word) : (s.setReg off v).free = s.free := by rfl
@[simp] theorem State.setReg_timeNs (off : Nat) (v : Word) : (s.setReg off v).timeNs = s.timeNs := by rfl
@[simp] theorem State.setReg_out (off : Nat) (v : Word) : (s.setReg off v).out = s.out := by rfl
@[simp] theorem State.setReg_regs (off : Nat) (v : Word) : (s.setReg off v).regs = storeSet regDefault s.regs off v := by rfl
@[simp] theorem State.setReg_captures (off : Nat) (v : Word) : (s.setReg off v).captures = s.captures := by rfl
@[simp] theorem State.setReg_stages (off : Nat) (v : Word) : (s.setReg off v).stages = s.stages := by rfl
@[simp] theorem State.setReg_img (off : Nat) (v : Word) : (s.setReg off v).img = s.img := by rfl
@[simp] theorem State.setReg_cores (off : Nat) (v : Word) : (s.setReg off v).cores = s.cores := by rfl
@[simp] theorem State.setReg_job (off : Nat) (v : Word) : (s.setReg off v).job = s.job := by rfl
@[simp] theorem State.setReg_cells (off : Nat) (v : Word) : (s.setReg off v).cells = s.cells := by rfl
@[simp] theorem State.setReg_hostCmds (off : Nat) (v : Word) : (s.setReg off v).hostCmds = s.hostCmds := by rfl
@[simp] theorem State.setReg_kv (off : Nat) (v : Word) : (s.setReg off v).kv = s.kv := by rfl
@[simp] theorem State.setReg_tier (off : Nat) (v : Word) : (s.setReg off v).tier = s.tier := by rfl
@[simp] theorem State.setReg_mem (off : Nat) (v : Word) : (s.setReg off v).mem = s.mem := by rfl
@[simp] theorem State.setReg_host (off : Nat) (v : Word) : (s.setReg off v).host = s.host := by rfl
@[simp] theorem State.setReg_fab (off : Nat) (v : Word) : (s.setReg off v).fab = s.fab := by rfl
@[simp] theorem State.setReg_rel (off : Nat) (v : Word) : (s.setReg off v).rel = s.rel := by rfl
@[simp] theorem State.setReg_vid (off : Nat) (v : Word) : (s.setReg off v).vid = s.vid := by rfl
@[simp] theorem State.setReg_pwr (off : Nat) (v : Word) : (s.setReg off v).pwr = s.pwr := by rfl
@[simp] theorem State.setReg_mail (off : Nat) (v : Word) : (s.setReg off v).mail = s.mail := by rfl
@[simp] theorem State.setReg_sec (off : Nat) (v : Word) : (s.setReg off v).sec = s.sec := by rfl
@[simp] theorem State.setReg_alert (off : Nat) (v : Word) : (s.setReg off v).alert = s.alert := by rfl

/-! ## putF -/

@[simp] theorem State.putF_pending (f : Fld) (v : Nat) : (s.putF f v).pending = s.pending := by rfl
@[simp] theorem State.putF_held (f : Fld) (v : Nat) : (s.putF f v).held = s.held := by rfl
@[simp] theorem State.putF_free (f : Fld) (v : Nat) : (s.putF f v).free = s.free := by rfl
@[simp] theorem State.putF_timeNs (f : Fld) (v : Nat) : (s.putF f v).timeNs = s.timeNs := by rfl
@[simp] theorem State.putF_out (f : Fld) (v : Nat) : (s.putF f v).out = s.out := by rfl
@[simp] theorem State.putF_captures (f : Fld) (v : Nat) : (s.putF f v).captures = s.captures := by rfl
@[simp] theorem State.putF_stages (f : Fld) (v : Nat) : (s.putF f v).stages = s.stages := by rfl
@[simp] theorem State.putF_img (f : Fld) (v : Nat) : (s.putF f v).img = s.img := by rfl
@[simp] theorem State.putF_cores (f : Fld) (v : Nat) : (s.putF f v).cores = s.cores := by rfl
@[simp] theorem State.putF_job (f : Fld) (v : Nat) : (s.putF f v).job = s.job := by rfl
@[simp] theorem State.putF_cells (f : Fld) (v : Nat) : (s.putF f v).cells = s.cells := by rfl
@[simp] theorem State.putF_hostCmds (f : Fld) (v : Nat) : (s.putF f v).hostCmds = s.hostCmds := by rfl
@[simp] theorem State.putF_kv (f : Fld) (v : Nat) : (s.putF f v).kv = s.kv := by rfl
@[simp] theorem State.putF_tier (f : Fld) (v : Nat) : (s.putF f v).tier = s.tier := by rfl
@[simp] theorem State.putF_mem (f : Fld) (v : Nat) : (s.putF f v).mem = s.mem := by rfl
@[simp] theorem State.putF_host (f : Fld) (v : Nat) : (s.putF f v).host = s.host := by rfl
@[simp] theorem State.putF_fab (f : Fld) (v : Nat) : (s.putF f v).fab = s.fab := by rfl
@[simp] theorem State.putF_rel (f : Fld) (v : Nat) : (s.putF f v).rel = s.rel := by rfl
@[simp] theorem State.putF_vid (f : Fld) (v : Nat) : (s.putF f v).vid = s.vid := by rfl
@[simp] theorem State.putF_pwr (f : Fld) (v : Nat) : (s.putF f v).pwr = s.pwr := by rfl
@[simp] theorem State.putF_mail (f : Fld) (v : Nat) : (s.putF f v).mail = s.mail := by rfl
@[simp] theorem State.putF_sec (f : Fld) (v : Nat) : (s.putF f v).sec = s.sec := by rfl
@[simp] theorem State.putF_alert (f : Fld) (v : Nat) : (s.putF f v).alert = s.alert := by rfl

/-! ## addF -/

@[simp] theorem State.addF_pending (f : Fld) (n : Nat) : (s.addF f n).pending = s.pending := by rfl
@[simp] theorem State.addF_held (f : Fld) (n : Nat) : (s.addF f n).held = s.held := by rfl
@[simp] theorem State.addF_free (f : Fld) (n : Nat) : (s.addF f n).free = s.free := by rfl
@[simp] theorem State.addF_timeNs (f : Fld) (n : Nat) : (s.addF f n).timeNs = s.timeNs := by rfl
@[simp] theorem State.addF_out (f : Fld) (n : Nat) : (s.addF f n).out = s.out := by rfl
@[simp] theorem State.addF_captures (f : Fld) (n : Nat) : (s.addF f n).captures = s.captures := by rfl
@[simp] theorem State.addF_stages (f : Fld) (n : Nat) : (s.addF f n).stages = s.stages := by rfl
@[simp] theorem State.addF_img (f : Fld) (n : Nat) : (s.addF f n).img = s.img := by rfl
@[simp] theorem State.addF_cores (f : Fld) (n : Nat) : (s.addF f n).cores = s.cores := by rfl
@[simp] theorem State.addF_job (f : Fld) (n : Nat) : (s.addF f n).job = s.job := by rfl
@[simp] theorem State.addF_cells (f : Fld) (n : Nat) : (s.addF f n).cells = s.cells := by rfl
@[simp] theorem State.addF_hostCmds (f : Fld) (n : Nat) : (s.addF f n).hostCmds = s.hostCmds := by rfl
@[simp] theorem State.addF_kv (f : Fld) (n : Nat) : (s.addF f n).kv = s.kv := by rfl
@[simp] theorem State.addF_tier (f : Fld) (n : Nat) : (s.addF f n).tier = s.tier := by rfl
@[simp] theorem State.addF_mem (f : Fld) (n : Nat) : (s.addF f n).mem = s.mem := by rfl
@[simp] theorem State.addF_host (f : Fld) (n : Nat) : (s.addF f n).host = s.host := by rfl
@[simp] theorem State.addF_fab (f : Fld) (n : Nat) : (s.addF f n).fab = s.fab := by rfl
@[simp] theorem State.addF_rel (f : Fld) (n : Nat) : (s.addF f n).rel = s.rel := by rfl
@[simp] theorem State.addF_vid (f : Fld) (n : Nat) : (s.addF f n).vid = s.vid := by rfl
@[simp] theorem State.addF_pwr (f : Fld) (n : Nat) : (s.addF f n).pwr = s.pwr := by rfl
@[simp] theorem State.addF_mail (f : Fld) (n : Nat) : (s.addF f n).mail = s.mail := by rfl
@[simp] theorem State.addF_sec (f : Fld) (n : Nat) : (s.addF f n).sec = s.sec := by rfl
@[simp] theorem State.addF_alert (f : Fld) (n : Nat) : (s.addF f n).alert = s.alert := by rfl

/-! ## addSatF -/

@[simp] theorem State.addSatF_pending (f : Fld) (n : Nat) : (s.addSatF f n).pending = s.pending := by rfl
@[simp] theorem State.addSatF_held (f : Fld) (n : Nat) : (s.addSatF f n).held = s.held := by rfl
@[simp] theorem State.addSatF_free (f : Fld) (n : Nat) : (s.addSatF f n).free = s.free := by rfl
@[simp] theorem State.addSatF_timeNs (f : Fld) (n : Nat) : (s.addSatF f n).timeNs = s.timeNs := by rfl
@[simp] theorem State.addSatF_out (f : Fld) (n : Nat) : (s.addSatF f n).out = s.out := by rfl
@[simp] theorem State.addSatF_captures (f : Fld) (n : Nat) : (s.addSatF f n).captures = s.captures := by rfl
@[simp] theorem State.addSatF_stages (f : Fld) (n : Nat) : (s.addSatF f n).stages = s.stages := by rfl
@[simp] theorem State.addSatF_img (f : Fld) (n : Nat) : (s.addSatF f n).img = s.img := by rfl
@[simp] theorem State.addSatF_cores (f : Fld) (n : Nat) : (s.addSatF f n).cores = s.cores := by rfl
@[simp] theorem State.addSatF_job (f : Fld) (n : Nat) : (s.addSatF f n).job = s.job := by rfl
@[simp] theorem State.addSatF_cells (f : Fld) (n : Nat) : (s.addSatF f n).cells = s.cells := by rfl
@[simp] theorem State.addSatF_hostCmds (f : Fld) (n : Nat) : (s.addSatF f n).hostCmds = s.hostCmds := by rfl
@[simp] theorem State.addSatF_kv (f : Fld) (n : Nat) : (s.addSatF f n).kv = s.kv := by rfl
@[simp] theorem State.addSatF_tier (f : Fld) (n : Nat) : (s.addSatF f n).tier = s.tier := by rfl
@[simp] theorem State.addSatF_mem (f : Fld) (n : Nat) : (s.addSatF f n).mem = s.mem := by rfl
@[simp] theorem State.addSatF_host (f : Fld) (n : Nat) : (s.addSatF f n).host = s.host := by rfl
@[simp] theorem State.addSatF_fab (f : Fld) (n : Nat) : (s.addSatF f n).fab = s.fab := by rfl
@[simp] theorem State.addSatF_rel (f : Fld) (n : Nat) : (s.addSatF f n).rel = s.rel := by rfl
@[simp] theorem State.addSatF_vid (f : Fld) (n : Nat) : (s.addSatF f n).vid = s.vid := by rfl
@[simp] theorem State.addSatF_pwr (f : Fld) (n : Nat) : (s.addSatF f n).pwr = s.pwr := by rfl
@[simp] theorem State.addSatF_mail (f : Fld) (n : Nat) : (s.addSatF f n).mail = s.mail := by rfl
@[simp] theorem State.addSatF_sec (f : Fld) (n : Nat) : (s.addSatF f n).sec = s.sec := by rfl
@[simp] theorem State.addSatF_alert (f : Fld) (n : Nat) : (s.addSatF f n).alert = s.alert := by rfl

/-! ## putP -/

@[simp] theorem State.putP_pending (lo v : Nat) : (s.putP lo v).pending = s.pending := by rfl
@[simp] theorem State.putP_held (lo v : Nat) : (s.putP lo v).held = s.held := by rfl
@[simp] theorem State.putP_free (lo v : Nat) : (s.putP lo v).free = s.free := by rfl
@[simp] theorem State.putP_timeNs (lo v : Nat) : (s.putP lo v).timeNs = s.timeNs := by rfl
@[simp] theorem State.putP_out (lo v : Nat) : (s.putP lo v).out = s.out := by rfl
@[simp] theorem State.putP_captures (lo v : Nat) : (s.putP lo v).captures = s.captures := by rfl
@[simp] theorem State.putP_stages (lo v : Nat) : (s.putP lo v).stages = s.stages := by rfl
@[simp] theorem State.putP_img (lo v : Nat) : (s.putP lo v).img = s.img := by rfl
@[simp] theorem State.putP_cores (lo v : Nat) : (s.putP lo v).cores = s.cores := by rfl
@[simp] theorem State.putP_job (lo v : Nat) : (s.putP lo v).job = s.job := by rfl
@[simp] theorem State.putP_cells (lo v : Nat) : (s.putP lo v).cells = s.cells := by rfl
@[simp] theorem State.putP_hostCmds (lo v : Nat) : (s.putP lo v).hostCmds = s.hostCmds := by rfl
@[simp] theorem State.putP_kv (lo v : Nat) : (s.putP lo v).kv = s.kv := by rfl
@[simp] theorem State.putP_tier (lo v : Nat) : (s.putP lo v).tier = s.tier := by rfl
@[simp] theorem State.putP_mem (lo v : Nat) : (s.putP lo v).mem = s.mem := by rfl
@[simp] theorem State.putP_host (lo v : Nat) : (s.putP lo v).host = s.host := by rfl
@[simp] theorem State.putP_fab (lo v : Nat) : (s.putP lo v).fab = s.fab := by rfl
@[simp] theorem State.putP_rel (lo v : Nat) : (s.putP lo v).rel = s.rel := by rfl
@[simp] theorem State.putP_vid (lo v : Nat) : (s.putP lo v).vid = s.vid := by rfl
@[simp] theorem State.putP_pwr (lo v : Nat) : (s.putP lo v).pwr = s.pwr := by rfl
@[simp] theorem State.putP_mail (lo v : Nat) : (s.putP lo v).mail = s.mail := by rfl
@[simp] theorem State.putP_sec (lo v : Nat) : (s.putP lo v).sec = s.sec := by rfl
@[simp] theorem State.putP_alert (lo v : Nat) : (s.putP lo v).alert = s.alert := by rfl

/-! ## addP -/

@[simp] theorem State.addP_pending (lo n : Nat) : (s.addP lo n).pending = s.pending := by rfl
@[simp] theorem State.addP_held (lo n : Nat) : (s.addP lo n).held = s.held := by rfl
@[simp] theorem State.addP_free (lo n : Nat) : (s.addP lo n).free = s.free := by rfl
@[simp] theorem State.addP_timeNs (lo n : Nat) : (s.addP lo n).timeNs = s.timeNs := by rfl
@[simp] theorem State.addP_out (lo n : Nat) : (s.addP lo n).out = s.out := by rfl
@[simp] theorem State.addP_captures (lo n : Nat) : (s.addP lo n).captures = s.captures := by rfl
@[simp] theorem State.addP_stages (lo n : Nat) : (s.addP lo n).stages = s.stages := by rfl
@[simp] theorem State.addP_img (lo n : Nat) : (s.addP lo n).img = s.img := by rfl
@[simp] theorem State.addP_cores (lo n : Nat) : (s.addP lo n).cores = s.cores := by rfl
@[simp] theorem State.addP_job (lo n : Nat) : (s.addP lo n).job = s.job := by rfl
@[simp] theorem State.addP_cells (lo n : Nat) : (s.addP lo n).cells = s.cells := by rfl
@[simp] theorem State.addP_hostCmds (lo n : Nat) : (s.addP lo n).hostCmds = s.hostCmds := by rfl
@[simp] theorem State.addP_kv (lo n : Nat) : (s.addP lo n).kv = s.kv := by rfl
@[simp] theorem State.addP_tier (lo n : Nat) : (s.addP lo n).tier = s.tier := by rfl
@[simp] theorem State.addP_mem (lo n : Nat) : (s.addP lo n).mem = s.mem := by rfl
@[simp] theorem State.addP_host (lo n : Nat) : (s.addP lo n).host = s.host := by rfl
@[simp] theorem State.addP_fab (lo n : Nat) : (s.addP lo n).fab = s.fab := by rfl
@[simp] theorem State.addP_rel (lo n : Nat) : (s.addP lo n).rel = s.rel := by rfl
@[simp] theorem State.addP_vid (lo n : Nat) : (s.addP lo n).vid = s.vid := by rfl
@[simp] theorem State.addP_pwr (lo n : Nat) : (s.addP lo n).pwr = s.pwr := by rfl
@[simp] theorem State.addP_mail (lo n : Nat) : (s.addP lo n).mail = s.mail := by rfl
@[simp] theorem State.addP_sec (lo n : Nat) : (s.addP lo n).sec = s.sec := by rfl
@[simp] theorem State.addP_alert (lo n : Nat) : (s.addP lo n).alert = s.alert := by rfl

/-! ## emit -/

@[simp] theorem State.emit_pending (o : Output) : (s.emit o).pending = s.pending := by rfl
@[simp] theorem State.emit_held (o : Output) : (s.emit o).held = s.held := by rfl
@[simp] theorem State.emit_free (o : Output) : (s.emit o).free = s.free := by rfl
@[simp] theorem State.emit_timeNs (o : Output) : (s.emit o).timeNs = s.timeNs := by rfl
@[simp] theorem State.emit_out (o : Output) : (s.emit o).out = s.out ++ [o] := by rfl
@[simp] theorem State.emit_regs (o : Output) : (s.emit o).regs = s.regs := by rfl
@[simp] theorem State.emit_captures (o : Output) : (s.emit o).captures = s.captures := by rfl
@[simp] theorem State.emit_stages (o : Output) : (s.emit o).stages = s.stages := by rfl
@[simp] theorem State.emit_img (o : Output) : (s.emit o).img = s.img := by rfl
@[simp] theorem State.emit_cores (o : Output) : (s.emit o).cores = s.cores := by rfl
@[simp] theorem State.emit_job (o : Output) : (s.emit o).job = s.job := by rfl
@[simp] theorem State.emit_cells (o : Output) : (s.emit o).cells = s.cells := by rfl
@[simp] theorem State.emit_hostCmds (o : Output) : (s.emit o).hostCmds = s.hostCmds := by rfl
@[simp] theorem State.emit_kv (o : Output) : (s.emit o).kv = s.kv := by rfl
@[simp] theorem State.emit_tier (o : Output) : (s.emit o).tier = s.tier := by rfl
@[simp] theorem State.emit_mem (o : Output) : (s.emit o).mem = s.mem := by rfl
@[simp] theorem State.emit_host (o : Output) : (s.emit o).host = s.host := by rfl
@[simp] theorem State.emit_fab (o : Output) : (s.emit o).fab = s.fab := by rfl
@[simp] theorem State.emit_rel (o : Output) : (s.emit o).rel = s.rel := by rfl
@[simp] theorem State.emit_vid (o : Output) : (s.emit o).vid = s.vid := by rfl
@[simp] theorem State.emit_pwr (o : Output) : (s.emit o).pwr = s.pwr := by rfl
@[simp] theorem State.emit_mail (o : Output) : (s.emit o).mail = s.mail := by rfl
@[simp] theorem State.emit_sec (o : Output) : (s.emit o).sec = s.sec := by rfl
@[simp] theorem State.emit_alert (o : Output) : (s.emit o).alert = s.alert := by rfl

/-! ## hold -/

@[simp] theorem State.hold_pending (i : Instr) : (s.hold i).pending = s.pending := by rfl
@[simp] theorem State.hold_held (i : Instr) : (s.hold i).held = s.held ++ [i] := by rfl
@[simp] theorem State.hold_free (i : Instr) : (s.hold i).free = s.free := by rfl
@[simp] theorem State.hold_timeNs (i : Instr) : (s.hold i).timeNs = s.timeNs := by rfl
@[simp] theorem State.hold_out (i : Instr) : (s.hold i).out = s.out := by rfl
@[simp] theorem State.hold_regs (i : Instr) : (s.hold i).regs = s.regs := by rfl
@[simp] theorem State.hold_captures (i : Instr) : (s.hold i).captures = s.captures := by rfl
@[simp] theorem State.hold_stages (i : Instr) : (s.hold i).stages = s.stages := by rfl
@[simp] theorem State.hold_img (i : Instr) : (s.hold i).img = s.img := by rfl
@[simp] theorem State.hold_cores (i : Instr) : (s.hold i).cores = s.cores := by rfl
@[simp] theorem State.hold_job (i : Instr) : (s.hold i).job = s.job := by rfl
@[simp] theorem State.hold_cells (i : Instr) : (s.hold i).cells = s.cells := by rfl
@[simp] theorem State.hold_hostCmds (i : Instr) : (s.hold i).hostCmds = s.hostCmds := by rfl
@[simp] theorem State.hold_kv (i : Instr) : (s.hold i).kv = s.kv := by rfl
@[simp] theorem State.hold_tier (i : Instr) : (s.hold i).tier = s.tier := by rfl
@[simp] theorem State.hold_mem (i : Instr) : (s.hold i).mem = s.mem := by rfl
@[simp] theorem State.hold_host (i : Instr) : (s.hold i).host = s.host := by rfl
@[simp] theorem State.hold_fab (i : Instr) : (s.hold i).fab = s.fab := by rfl
@[simp] theorem State.hold_rel (i : Instr) : (s.hold i).rel = s.rel := by rfl
@[simp] theorem State.hold_vid (i : Instr) : (s.hold i).vid = s.vid := by rfl
@[simp] theorem State.hold_pwr (i : Instr) : (s.hold i).pwr = s.pwr := by rfl
@[simp] theorem State.hold_mail (i : Instr) : (s.hold i).mail = s.mail := by rfl
@[simp] theorem State.hold_sec (i : Instr) : (s.hold i).sec = s.sec := by rfl
@[simp] theorem State.hold_alert (i : Instr) : (s.hold i).alert = s.alert := by rfl

/-! ## retryLater -/

@[simp] theorem State.retryLater_pending (i : Nat) (c : Instr) : (s.retryLater i c).pending = s.pending := by rfl
@[simp] theorem State.retryLater_held (i : Nat) (c : Instr) : (s.retryLater i c).held = s.held := by rfl
@[simp] theorem State.retryLater_free (i : Nat) (c : Instr) : (s.retryLater i c).free = s.free := by rfl
@[simp] theorem State.retryLater_timeNs (i : Nat) (c : Instr) : (s.retryLater i c).timeNs = s.timeNs := by rfl
@[simp] theorem State.retryLater_out (i : Nat) (c : Instr) : (s.retryLater i c).out = s.out := by rfl
@[simp] theorem State.retryLater_regs (i : Nat) (c : Instr) : (s.retryLater i c).regs = s.regs := by rfl
@[simp] theorem State.retryLater_captures (i : Nat) (c : Instr) : (s.retryLater i c).captures = s.captures := by rfl
@[simp] theorem State.retryLater_stages (i : Nat) (c : Instr) : (s.retryLater i c).stages = s.stages := by rfl
@[simp] theorem State.retryLater_img (i : Nat) (c : Instr) : (s.retryLater i c).img = s.img := by rfl
@[simp] theorem State.retryLater_cores (i : Nat) (c : Instr) : (s.retryLater i c).cores = s.cores := by rfl
@[simp] theorem State.retryLater_job (i : Nat) (c : Instr) : (s.retryLater i c).job = s.job := by rfl
@[simp] theorem State.retryLater_cells (i : Nat) (c : Instr) : (s.retryLater i c).cells = s.cells := by rfl
@[simp] theorem State.retryLater_hostCmds (i : Nat) (c : Instr) : (s.retryLater i c).hostCmds = s.hostCmds := by rfl
@[simp] theorem State.retryLater_kv (i : Nat) (c : Instr) : (s.retryLater i c).kv = s.kv := by rfl
@[simp] theorem State.retryLater_tier (i : Nat) (c : Instr) : (s.retryLater i c).tier = s.tier := by rfl
@[simp] theorem State.retryLater_mem (i : Nat) (c : Instr) : (s.retryLater i c).mem = s.mem := by rfl
@[simp] theorem State.retryLater_host (i : Nat) (c : Instr) : (s.retryLater i c).host = s.host := by rfl
@[simp] theorem State.retryLater_fab (i : Nat) (c : Instr) : (s.retryLater i c).fab = s.fab := by rfl
@[simp] theorem State.retryLater_rel (i : Nat) (c : Instr) : (s.retryLater i c).rel = s.rel := by rfl
@[simp] theorem State.retryLater_vid (i : Nat) (c : Instr) : (s.retryLater i c).vid = s.vid := by rfl
@[simp] theorem State.retryLater_pwr (i : Nat) (c : Instr) : (s.retryLater i c).pwr = { s.pwr with retries := s.pwr.retries ++ [(i, c)] } := by rfl
@[simp] theorem State.retryLater_mail (i : Nat) (c : Instr) : (s.retryLater i c).mail = s.mail := by rfl
@[simp] theorem State.retryLater_sec (i : Nat) (c : Instr) : (s.retryLater i c).sec = s.sec := by rfl
@[simp] theorem State.retryLater_alert (i : Nat) (c : Instr) : (s.retryLater i c).alert = s.alert := by rfl

/-! ## setCore -/

@[simp] theorem State.setCore_pending (p : Nat) (c : Core) : (s.setCore p c).pending = s.pending := by rfl
@[simp] theorem State.setCore_held (p : Nat) (c : Core) : (s.setCore p c).held = s.held := by rfl
@[simp] theorem State.setCore_free (p : Nat) (c : Core) : (s.setCore p c).free = s.free := by rfl
@[simp] theorem State.setCore_timeNs (p : Nat) (c : Core) : (s.setCore p c).timeNs = s.timeNs := by rfl
@[simp] theorem State.setCore_out (p : Nat) (c : Core) : (s.setCore p c).out = s.out := by rfl
@[simp] theorem State.setCore_regs (p : Nat) (c : Core) : (s.setCore p c).regs = s.regs := by rfl
@[simp] theorem State.setCore_captures (p : Nat) (c : Core) : (s.setCore p c).captures = s.captures := by rfl
@[simp] theorem State.setCore_stages (p : Nat) (c : Core) : (s.setCore p c).stages = s.stages := by rfl
@[simp] theorem State.setCore_img (p : Nat) (c : Core) : (s.setCore p c).img = s.img := by rfl
@[simp] theorem State.setCore_cores (p : Nat) (c : Core) : (s.setCore p c).cores = storeSet (fun _ => Core.idle) s.cores p c := by rfl
@[simp] theorem State.setCore_job (p : Nat) (c : Core) : (s.setCore p c).job = s.job := by rfl
@[simp] theorem State.setCore_cells (p : Nat) (c : Core) : (s.setCore p c).cells = s.cells := by rfl
@[simp] theorem State.setCore_hostCmds (p : Nat) (c : Core) : (s.setCore p c).hostCmds = s.hostCmds := by rfl
@[simp] theorem State.setCore_kv (p : Nat) (c : Core) : (s.setCore p c).kv = s.kv := by rfl
@[simp] theorem State.setCore_tier (p : Nat) (c : Core) : (s.setCore p c).tier = s.tier := by rfl
@[simp] theorem State.setCore_mem (p : Nat) (c : Core) : (s.setCore p c).mem = s.mem := by rfl
@[simp] theorem State.setCore_host (p : Nat) (c : Core) : (s.setCore p c).host = s.host := by rfl
@[simp] theorem State.setCore_fab (p : Nat) (c : Core) : (s.setCore p c).fab = s.fab := by rfl
@[simp] theorem State.setCore_rel (p : Nat) (c : Core) : (s.setCore p c).rel = s.rel := by rfl
@[simp] theorem State.setCore_vid (p : Nat) (c : Core) : (s.setCore p c).vid = s.vid := by rfl
@[simp] theorem State.setCore_pwr (p : Nat) (c : Core) : (s.setCore p c).pwr = s.pwr := by rfl
@[simp] theorem State.setCore_mail (p : Nat) (c : Core) : (s.setCore p c).mail = s.mail := by rfl
@[simp] theorem State.setCore_sec (p : Nat) (c : Core) : (s.setCore p c).sec = s.sec := by rfl
@[simp] theorem State.setCore_alert (p : Nat) (c : Core) : (s.setCore p c).alert = s.alert := by rfl

/-! ## setScratch -/

@[simp] theorem State.setScratch_pending (p addr : Nat) (bs : List Byte) : (s.setScratch p addr bs).pending = s.pending := by rfl
@[simp] theorem State.setScratch_held (p addr : Nat) (bs : List Byte) : (s.setScratch p addr bs).held = s.held := by rfl
@[simp] theorem State.setScratch_free (p addr : Nat) (bs : List Byte) : (s.setScratch p addr bs).free = s.free := by rfl
@[simp] theorem State.setScratch_timeNs (p addr : Nat) (bs : List Byte) : (s.setScratch p addr bs).timeNs = s.timeNs := by rfl
@[simp] theorem State.setScratch_out (p addr : Nat) (bs : List Byte) : (s.setScratch p addr bs).out = s.out := by rfl
@[simp] theorem State.setScratch_regs (p addr : Nat) (bs : List Byte) : (s.setScratch p addr bs).regs = s.regs := by rfl
@[simp] theorem State.setScratch_captures (p addr : Nat) (bs : List Byte) : (s.setScratch p addr bs).captures = s.captures := by rfl
@[simp] theorem State.setScratch_stages (p addr : Nat) (bs : List Byte) : (s.setScratch p addr bs).stages = s.stages := by rfl
@[simp] theorem State.setScratch_img (p addr : Nat) (bs : List Byte) : (s.setScratch p addr bs).img = s.img := by rfl
@[simp] theorem State.setScratch_job (p addr : Nat) (bs : List Byte) : (s.setScratch p addr bs).job = s.job := by rfl
@[simp] theorem State.setScratch_cells (p addr : Nat) (bs : List Byte) : (s.setScratch p addr bs).cells = s.cells := by rfl
@[simp] theorem State.setScratch_hostCmds (p addr : Nat) (bs : List Byte) : (s.setScratch p addr bs).hostCmds = s.hostCmds := by rfl
@[simp] theorem State.setScratch_kv (p addr : Nat) (bs : List Byte) : (s.setScratch p addr bs).kv = s.kv := by rfl
@[simp] theorem State.setScratch_tier (p addr : Nat) (bs : List Byte) : (s.setScratch p addr bs).tier = s.tier := by rfl
@[simp] theorem State.setScratch_mem (p addr : Nat) (bs : List Byte) : (s.setScratch p addr bs).mem = s.mem := by rfl
@[simp] theorem State.setScratch_host (p addr : Nat) (bs : List Byte) : (s.setScratch p addr bs).host = s.host := by rfl
@[simp] theorem State.setScratch_fab (p addr : Nat) (bs : List Byte) : (s.setScratch p addr bs).fab = s.fab := by rfl
@[simp] theorem State.setScratch_rel (p addr : Nat) (bs : List Byte) : (s.setScratch p addr bs).rel = s.rel := by rfl
@[simp] theorem State.setScratch_vid (p addr : Nat) (bs : List Byte) : (s.setScratch p addr bs).vid = s.vid := by rfl
@[simp] theorem State.setScratch_pwr (p addr : Nat) (bs : List Byte) : (s.setScratch p addr bs).pwr = s.pwr := by rfl
@[simp] theorem State.setScratch_mail (p addr : Nat) (bs : List Byte) : (s.setScratch p addr bs).mail = s.mail := by rfl
@[simp] theorem State.setScratch_sec (p addr : Nat) (bs : List Byte) : (s.setScratch p addr bs).sec = s.sec := by rfl
@[simp] theorem State.setScratch_alert (p addr : Nat) (bs : List Byte) : (s.setScratch p addr bs).alert = s.alert := by rfl

/-! ## setAcc -/

@[simp] theorem State.setAcc_pending (p addr : Nat) (bs : List Byte) : (s.setAcc p addr bs).pending = s.pending := by rfl
@[simp] theorem State.setAcc_held (p addr : Nat) (bs : List Byte) : (s.setAcc p addr bs).held = s.held := by rfl
@[simp] theorem State.setAcc_free (p addr : Nat) (bs : List Byte) : (s.setAcc p addr bs).free = s.free := by rfl
@[simp] theorem State.setAcc_timeNs (p addr : Nat) (bs : List Byte) : (s.setAcc p addr bs).timeNs = s.timeNs := by rfl
@[simp] theorem State.setAcc_out (p addr : Nat) (bs : List Byte) : (s.setAcc p addr bs).out = s.out := by rfl
@[simp] theorem State.setAcc_regs (p addr : Nat) (bs : List Byte) : (s.setAcc p addr bs).regs = s.regs := by rfl
@[simp] theorem State.setAcc_captures (p addr : Nat) (bs : List Byte) : (s.setAcc p addr bs).captures = s.captures := by rfl
@[simp] theorem State.setAcc_stages (p addr : Nat) (bs : List Byte) : (s.setAcc p addr bs).stages = s.stages := by rfl
@[simp] theorem State.setAcc_img (p addr : Nat) (bs : List Byte) : (s.setAcc p addr bs).img = s.img := by rfl
@[simp] theorem State.setAcc_job (p addr : Nat) (bs : List Byte) : (s.setAcc p addr bs).job = s.job := by rfl
@[simp] theorem State.setAcc_cells (p addr : Nat) (bs : List Byte) : (s.setAcc p addr bs).cells = s.cells := by rfl
@[simp] theorem State.setAcc_hostCmds (p addr : Nat) (bs : List Byte) : (s.setAcc p addr bs).hostCmds = s.hostCmds := by rfl
@[simp] theorem State.setAcc_kv (p addr : Nat) (bs : List Byte) : (s.setAcc p addr bs).kv = s.kv := by rfl
@[simp] theorem State.setAcc_tier (p addr : Nat) (bs : List Byte) : (s.setAcc p addr bs).tier = s.tier := by rfl
@[simp] theorem State.setAcc_mem (p addr : Nat) (bs : List Byte) : (s.setAcc p addr bs).mem = s.mem := by rfl
@[simp] theorem State.setAcc_host (p addr : Nat) (bs : List Byte) : (s.setAcc p addr bs).host = s.host := by rfl
@[simp] theorem State.setAcc_fab (p addr : Nat) (bs : List Byte) : (s.setAcc p addr bs).fab = s.fab := by rfl
@[simp] theorem State.setAcc_rel (p addr : Nat) (bs : List Byte) : (s.setAcc p addr bs).rel = s.rel := by rfl
@[simp] theorem State.setAcc_vid (p addr : Nat) (bs : List Byte) : (s.setAcc p addr bs).vid = s.vid := by rfl
@[simp] theorem State.setAcc_pwr (p addr : Nat) (bs : List Byte) : (s.setAcc p addr bs).pwr = s.pwr := by rfl
@[simp] theorem State.setAcc_mail (p addr : Nat) (bs : List Byte) : (s.setAcc p addr bs).mail = s.mail := by rfl
@[simp] theorem State.setAcc_sec (p addr : Nat) (bs : List Byte) : (s.setAcc p addr bs).sec = s.sec := by rfl
@[simp] theorem State.setAcc_alert (p addr : Nat) (bs : List Byte) : (s.setAcc p addr bs).alert = s.alert := by rfl

/-! ## setProg -/

@[simp] theorem State.setProg_pending (p : Nat) (g : Program) : (s.setProg p g).pending = s.pending := by rfl
@[simp] theorem State.setProg_held (p : Nat) (g : Program) : (s.setProg p g).held = s.held := by rfl
@[simp] theorem State.setProg_free (p : Nat) (g : Program) : (s.setProg p g).free = s.free := by rfl
@[simp] theorem State.setProg_timeNs (p : Nat) (g : Program) : (s.setProg p g).timeNs = s.timeNs := by rfl
@[simp] theorem State.setProg_out (p : Nat) (g : Program) : (s.setProg p g).out = s.out := by rfl
@[simp] theorem State.setProg_regs (p : Nat) (g : Program) : (s.setProg p g).regs = s.regs := by rfl
@[simp] theorem State.setProg_captures (p : Nat) (g : Program) : (s.setProg p g).captures = s.captures := by rfl
@[simp] theorem State.setProg_stages (p : Nat) (g : Program) : (s.setProg p g).stages = s.stages := by rfl
@[simp] theorem State.setProg_img (p : Nat) (g : Program) : (s.setProg p g).img = s.img := by rfl
@[simp] theorem State.setProg_job (p : Nat) (g : Program) : (s.setProg p g).job = s.job := by rfl
@[simp] theorem State.setProg_cells (p : Nat) (g : Program) : (s.setProg p g).cells = s.cells := by rfl
@[simp] theorem State.setProg_hostCmds (p : Nat) (g : Program) : (s.setProg p g).hostCmds = s.hostCmds := by rfl
@[simp] theorem State.setProg_kv (p : Nat) (g : Program) : (s.setProg p g).kv = s.kv := by rfl
@[simp] theorem State.setProg_tier (p : Nat) (g : Program) : (s.setProg p g).tier = s.tier := by rfl
@[simp] theorem State.setProg_mem (p : Nat) (g : Program) : (s.setProg p g).mem = s.mem := by rfl
@[simp] theorem State.setProg_host (p : Nat) (g : Program) : (s.setProg p g).host = s.host := by rfl
@[simp] theorem State.setProg_fab (p : Nat) (g : Program) : (s.setProg p g).fab = s.fab := by rfl
@[simp] theorem State.setProg_rel (p : Nat) (g : Program) : (s.setProg p g).rel = s.rel := by rfl
@[simp] theorem State.setProg_vid (p : Nat) (g : Program) : (s.setProg p g).vid = s.vid := by rfl
@[simp] theorem State.setProg_pwr (p : Nat) (g : Program) : (s.setProg p g).pwr = s.pwr := by rfl
@[simp] theorem State.setProg_mail (p : Nat) (g : Program) : (s.setProg p g).mail = s.mail := by rfl
@[simp] theorem State.setProg_sec (p : Nat) (g : Program) : (s.setProg p g).sec = s.sec := by rfl
@[simp] theorem State.setProg_alert (p : Nat) (g : Program) : (s.setProg p g).alert = s.alert := by rfl

/-! ## addCounts -/

@[simp] theorem State.addCounts_pending (p sat flushed : Nat) : (s.addCounts p sat flushed).pending = s.pending := by rfl
@[simp] theorem State.addCounts_held (p sat flushed : Nat) : (s.addCounts p sat flushed).held = s.held := by rfl
@[simp] theorem State.addCounts_free (p sat flushed : Nat) : (s.addCounts p sat flushed).free = s.free := by rfl
@[simp] theorem State.addCounts_timeNs (p sat flushed : Nat) : (s.addCounts p sat flushed).timeNs = s.timeNs := by rfl
@[simp] theorem State.addCounts_out (p sat flushed : Nat) : (s.addCounts p sat flushed).out = s.out := by rfl
@[simp] theorem State.addCounts_regs (p sat flushed : Nat) : (s.addCounts p sat flushed).regs = s.regs := by rfl
@[simp] theorem State.addCounts_captures (p sat flushed : Nat) : (s.addCounts p sat flushed).captures = s.captures := by rfl
@[simp] theorem State.addCounts_stages (p sat flushed : Nat) : (s.addCounts p sat flushed).stages = s.stages := by rfl
@[simp] theorem State.addCounts_img (p sat flushed : Nat) : (s.addCounts p sat flushed).img = s.img := by rfl
@[simp] theorem State.addCounts_job (p sat flushed : Nat) : (s.addCounts p sat flushed).job = s.job := by rfl
@[simp] theorem State.addCounts_cells (p sat flushed : Nat) : (s.addCounts p sat flushed).cells = s.cells := by rfl
@[simp] theorem State.addCounts_hostCmds (p sat flushed : Nat) : (s.addCounts p sat flushed).hostCmds = s.hostCmds := by rfl
@[simp] theorem State.addCounts_kv (p sat flushed : Nat) : (s.addCounts p sat flushed).kv = s.kv := by rfl
@[simp] theorem State.addCounts_tier (p sat flushed : Nat) : (s.addCounts p sat flushed).tier = s.tier := by rfl
@[simp] theorem State.addCounts_mem (p sat flushed : Nat) : (s.addCounts p sat flushed).mem = s.mem := by rfl
@[simp] theorem State.addCounts_host (p sat flushed : Nat) : (s.addCounts p sat flushed).host = s.host := by rfl
@[simp] theorem State.addCounts_fab (p sat flushed : Nat) : (s.addCounts p sat flushed).fab = s.fab := by rfl
@[simp] theorem State.addCounts_rel (p sat flushed : Nat) : (s.addCounts p sat flushed).rel = s.rel := by rfl
@[simp] theorem State.addCounts_vid (p sat flushed : Nat) : (s.addCounts p sat flushed).vid = s.vid := by rfl
@[simp] theorem State.addCounts_pwr (p sat flushed : Nat) : (s.addCounts p sat flushed).pwr = s.pwr := by rfl
@[simp] theorem State.addCounts_mail (p sat flushed : Nat) : (s.addCounts p sat flushed).mail = s.mail := by rfl
@[simp] theorem State.addCounts_sec (p sat flushed : Nat) : (s.addCounts p sat flushed).sec = s.sec := by rfl
@[simp] theorem State.addCounts_alert (p sat flushed : Nat) : (s.addCounts p sat flushed).alert = s.alert := by rfl

/-! ## addFlags -/

@[simp] theorem State.addFlags_pending (p engine : Nat) (f : Flags) : (s.addFlags p engine f).pending = s.pending := by rfl
@[simp] theorem State.addFlags_held (p engine : Nat) (f : Flags) : (s.addFlags p engine f).held = s.held := by rfl
@[simp] theorem State.addFlags_free (p engine : Nat) (f : Flags) : (s.addFlags p engine f).free = s.free := by rfl
@[simp] theorem State.addFlags_timeNs (p engine : Nat) (f : Flags) : (s.addFlags p engine f).timeNs = s.timeNs := by rfl
@[simp] theorem State.addFlags_out (p engine : Nat) (f : Flags) : (s.addFlags p engine f).out = s.out := by rfl
@[simp] theorem State.addFlags_captures (p engine : Nat) (f : Flags) : (s.addFlags p engine f).captures = s.captures := by rfl
@[simp] theorem State.addFlags_stages (p engine : Nat) (f : Flags) : (s.addFlags p engine f).stages = s.stages := by rfl
@[simp] theorem State.addFlags_img (p engine : Nat) (f : Flags) : (s.addFlags p engine f).img = s.img := by rfl
@[simp] theorem State.addFlags_cores (p engine : Nat) (f : Flags) : (s.addFlags p engine f).cores = s.cores := by rfl
@[simp] theorem State.addFlags_job (p engine : Nat) (f : Flags) : (s.addFlags p engine f).job = s.job := by rfl
@[simp] theorem State.addFlags_cells (p engine : Nat) (f : Flags) : (s.addFlags p engine f).cells = s.cells := by rfl
@[simp] theorem State.addFlags_hostCmds (p engine : Nat) (f : Flags) : (s.addFlags p engine f).hostCmds = s.hostCmds := by rfl
@[simp] theorem State.addFlags_kv (p engine : Nat) (f : Flags) : (s.addFlags p engine f).kv = s.kv := by rfl
@[simp] theorem State.addFlags_tier (p engine : Nat) (f : Flags) : (s.addFlags p engine f).tier = s.tier := by rfl
@[simp] theorem State.addFlags_mem (p engine : Nat) (f : Flags) : (s.addFlags p engine f).mem = s.mem := by rfl
@[simp] theorem State.addFlags_host (p engine : Nat) (f : Flags) : (s.addFlags p engine f).host = s.host := by rfl
@[simp] theorem State.addFlags_fab (p engine : Nat) (f : Flags) : (s.addFlags p engine f).fab = s.fab := by rfl
@[simp] theorem State.addFlags_rel (p engine : Nat) (f : Flags) : (s.addFlags p engine f).rel = s.rel := by rfl
@[simp] theorem State.addFlags_vid (p engine : Nat) (f : Flags) : (s.addFlags p engine f).vid = s.vid := by rfl
@[simp] theorem State.addFlags_pwr (p engine : Nat) (f : Flags) : (s.addFlags p engine f).pwr = s.pwr := by rfl
@[simp] theorem State.addFlags_mail (p engine : Nat) (f : Flags) : (s.addFlags p engine f).mail = s.mail := by rfl
@[simp] theorem State.addFlags_sec (p engine : Nat) (f : Flags) : (s.addFlags p engine f).sec = s.sec := by rfl
@[simp] theorem State.addFlags_alert (p engine : Nat) (f : Flags) : (s.addFlags p engine f).alert = s.alert := by rfl

/-! ## addDelivered -/

@[simp] theorem State.addDelivered_pending (p engine : Nat) (d : Delivered) : (s.addDelivered p engine d).pending = s.pending := by rfl
@[simp] theorem State.addDelivered_held (p engine : Nat) (d : Delivered) : (s.addDelivered p engine d).held = s.held := by rfl
@[simp] theorem State.addDelivered_free (p engine : Nat) (d : Delivered) : (s.addDelivered p engine d).free = s.free := by rfl
@[simp] theorem State.addDelivered_timeNs (p engine : Nat) (d : Delivered) : (s.addDelivered p engine d).timeNs = s.timeNs := by rfl
@[simp] theorem State.addDelivered_out (p engine : Nat) (d : Delivered) : (s.addDelivered p engine d).out = s.out := by rfl
@[simp] theorem State.addDelivered_captures (p engine : Nat) (d : Delivered) : (s.addDelivered p engine d).captures = s.captures := by rfl
@[simp] theorem State.addDelivered_stages (p engine : Nat) (d : Delivered) : (s.addDelivered p engine d).stages = s.stages := by rfl
@[simp] theorem State.addDelivered_img (p engine : Nat) (d : Delivered) : (s.addDelivered p engine d).img = s.img := by rfl
@[simp] theorem State.addDelivered_job (p engine : Nat) (d : Delivered) : (s.addDelivered p engine d).job = s.job := by rfl
@[simp] theorem State.addDelivered_cells (p engine : Nat) (d : Delivered) : (s.addDelivered p engine d).cells = s.cells := by rfl
@[simp] theorem State.addDelivered_hostCmds (p engine : Nat) (d : Delivered) : (s.addDelivered p engine d).hostCmds = s.hostCmds := by rfl
@[simp] theorem State.addDelivered_kv (p engine : Nat) (d : Delivered) : (s.addDelivered p engine d).kv = s.kv := by rfl
@[simp] theorem State.addDelivered_tier (p engine : Nat) (d : Delivered) : (s.addDelivered p engine d).tier = s.tier := by rfl
@[simp] theorem State.addDelivered_mem (p engine : Nat) (d : Delivered) : (s.addDelivered p engine d).mem = s.mem := by rfl
@[simp] theorem State.addDelivered_host (p engine : Nat) (d : Delivered) : (s.addDelivered p engine d).host = s.host := by rfl
@[simp] theorem State.addDelivered_fab (p engine : Nat) (d : Delivered) : (s.addDelivered p engine d).fab = s.fab := by rfl
@[simp] theorem State.addDelivered_rel (p engine : Nat) (d : Delivered) : (s.addDelivered p engine d).rel = s.rel := by rfl
@[simp] theorem State.addDelivered_vid (p engine : Nat) (d : Delivered) : (s.addDelivered p engine d).vid = s.vid := by rfl
@[simp] theorem State.addDelivered_pwr (p engine : Nat) (d : Delivered) : (s.addDelivered p engine d).pwr = s.pwr := by rfl
@[simp] theorem State.addDelivered_mail (p engine : Nat) (d : Delivered) : (s.addDelivered p engine d).mail = s.mail := by rfl
@[simp] theorem State.addDelivered_sec (p engine : Nat) (d : Delivered) : (s.addDelivered p engine d).sec = s.sec := by rfl
@[simp] theorem State.addDelivered_alert (p engine : Nat) (d : Delivered) : (s.addDelivered p engine d).alert = s.alert := by rfl

/-! ## vecBusy -/

@[simp] theorem State.vecBusy_pending (p n : Nat) : (s.vecBusy p n).pending = s.pending := by rfl
@[simp] theorem State.vecBusy_held (p n : Nat) : (s.vecBusy p n).held = s.held := by rfl
@[simp] theorem State.vecBusy_free (p n : Nat) : (s.vecBusy p n).free = s.free := by rfl
@[simp] theorem State.vecBusy_timeNs (p n : Nat) : (s.vecBusy p n).timeNs = s.timeNs := by rfl
@[simp] theorem State.vecBusy_out (p n : Nat) : (s.vecBusy p n).out = s.out := by rfl
@[simp] theorem State.vecBusy_captures (p n : Nat) : (s.vecBusy p n).captures = s.captures := by rfl
@[simp] theorem State.vecBusy_stages (p n : Nat) : (s.vecBusy p n).stages = s.stages := by rfl
@[simp] theorem State.vecBusy_img (p n : Nat) : (s.vecBusy p n).img = s.img := by rfl
@[simp] theorem State.vecBusy_cores (p n : Nat) : (s.vecBusy p n).cores = s.cores := by rfl
@[simp] theorem State.vecBusy_job (p n : Nat) : (s.vecBusy p n).job = s.job := by rfl
@[simp] theorem State.vecBusy_cells (p n : Nat) : (s.vecBusy p n).cells = s.cells := by rfl
@[simp] theorem State.vecBusy_hostCmds (p n : Nat) : (s.vecBusy p n).hostCmds = s.hostCmds := by rfl
@[simp] theorem State.vecBusy_kv (p n : Nat) : (s.vecBusy p n).kv = s.kv := by rfl
@[simp] theorem State.vecBusy_tier (p n : Nat) : (s.vecBusy p n).tier = s.tier := by rfl
@[simp] theorem State.vecBusy_mem (p n : Nat) : (s.vecBusy p n).mem = s.mem := by rfl
@[simp] theorem State.vecBusy_host (p n : Nat) : (s.vecBusy p n).host = s.host := by rfl
@[simp] theorem State.vecBusy_fab (p n : Nat) : (s.vecBusy p n).fab = s.fab := by rfl
@[simp] theorem State.vecBusy_rel (p n : Nat) : (s.vecBusy p n).rel = s.rel := by rfl
@[simp] theorem State.vecBusy_vid (p n : Nat) : (s.vecBusy p n).vid = s.vid := by rfl
@[simp] theorem State.vecBusy_pwr (p n : Nat) : (s.vecBusy p n).pwr = s.pwr := by rfl
@[simp] theorem State.vecBusy_mail (p n : Nat) : (s.vecBusy p n).mail = s.mail := by rfl
@[simp] theorem State.vecBusy_sec (p n : Nat) : (s.vecBusy p n).sec = s.sec := by rfl
@[simp] theorem State.vecBusy_alert (p n : Nat) : (s.vecBusy p n).alert = s.alert := by rfl

/-! ## setCtx -/

@[simp] theorem State.setCtx_pending (n : Nat) (c : Ctx) : (s.setCtx n c).pending = s.pending := by rfl
@[simp] theorem State.setCtx_held (n : Nat) (c : Ctx) : (s.setCtx n c).held = s.held := by rfl
@[simp] theorem State.setCtx_free (n : Nat) (c : Ctx) : (s.setCtx n c).free = s.free := by rfl
@[simp] theorem State.setCtx_timeNs (n : Nat) (c : Ctx) : (s.setCtx n c).timeNs = s.timeNs := by rfl
@[simp] theorem State.setCtx_out (n : Nat) (c : Ctx) : (s.setCtx n c).out = s.out := by rfl
@[simp] theorem State.setCtx_regs (n : Nat) (c : Ctx) : (s.setCtx n c).regs = s.regs := by rfl
@[simp] theorem State.setCtx_captures (n : Nat) (c : Ctx) : (s.setCtx n c).captures = s.captures := by rfl
@[simp] theorem State.setCtx_stages (n : Nat) (c : Ctx) : (s.setCtx n c).stages = s.stages := by rfl
@[simp] theorem State.setCtx_img (n : Nat) (c : Ctx) : (s.setCtx n c).img = s.img := by rfl
@[simp] theorem State.setCtx_cores (n : Nat) (c : Ctx) : (s.setCtx n c).cores = s.cores := by rfl
@[simp] theorem State.setCtx_job (n : Nat) (c : Ctx) : (s.setCtx n c).job = { s.job with ctxs := storeSet (fun _ => Ctx.fresh) s.job.ctxs n c } := by rfl
@[simp] theorem State.setCtx_cells (n : Nat) (c : Ctx) : (s.setCtx n c).cells = s.cells := by rfl
@[simp] theorem State.setCtx_hostCmds (n : Nat) (c : Ctx) : (s.setCtx n c).hostCmds = s.hostCmds := by rfl
@[simp] theorem State.setCtx_kv (n : Nat) (c : Ctx) : (s.setCtx n c).kv = s.kv := by rfl
@[simp] theorem State.setCtx_tier (n : Nat) (c : Ctx) : (s.setCtx n c).tier = s.tier := by rfl
@[simp] theorem State.setCtx_mem (n : Nat) (c : Ctx) : (s.setCtx n c).mem = s.mem := by rfl
@[simp] theorem State.setCtx_host (n : Nat) (c : Ctx) : (s.setCtx n c).host = s.host := by rfl
@[simp] theorem State.setCtx_fab (n : Nat) (c : Ctx) : (s.setCtx n c).fab = s.fab := by rfl
@[simp] theorem State.setCtx_rel (n : Nat) (c : Ctx) : (s.setCtx n c).rel = s.rel := by rfl
@[simp] theorem State.setCtx_vid (n : Nat) (c : Ctx) : (s.setCtx n c).vid = s.vid := by rfl
@[simp] theorem State.setCtx_pwr (n : Nat) (c : Ctx) : (s.setCtx n c).pwr = s.pwr := by rfl
@[simp] theorem State.setCtx_mail (n : Nat) (c : Ctx) : (s.setCtx n c).mail = s.mail := by rfl
@[simp] theorem State.setCtx_sec (n : Nat) (c : Ctx) : (s.setCtx n c).sec = s.sec := by rfl
@[simp] theorem State.setCtx_alert (n : Nat) (c : Ctx) : (s.setCtx n c).alert = s.alert := by rfl

/-! ## setJob -/

@[simp] theorem State.setJob_pending (j : Job) : (s.setJob j).pending = s.pending := by rfl
@[simp] theorem State.setJob_held (j : Job) : (s.setJob j).held = s.held := by rfl
@[simp] theorem State.setJob_free (j : Job) : (s.setJob j).free = s.free := by rfl
@[simp] theorem State.setJob_timeNs (j : Job) : (s.setJob j).timeNs = s.timeNs := by rfl
@[simp] theorem State.setJob_out (j : Job) : (s.setJob j).out = s.out := by rfl
@[simp] theorem State.setJob_regs (j : Job) : (s.setJob j).regs = s.regs := by rfl
@[simp] theorem State.setJob_captures (j : Job) : (s.setJob j).captures = s.captures := by rfl
@[simp] theorem State.setJob_stages (j : Job) : (s.setJob j).stages = s.stages := by rfl
@[simp] theorem State.setJob_img (j : Job) : (s.setJob j).img = s.img := by rfl
@[simp] theorem State.setJob_cores (j : Job) : (s.setJob j).cores = s.cores := by rfl
@[simp] theorem State.setJob_job (j : Job) : (s.setJob j).job = { s.job with jobs := s.job.jobs.map fun x => if x.uid == j.uid then j else x } := by rfl
@[simp] theorem State.setJob_cells (j : Job) : (s.setJob j).cells = s.cells := by rfl
@[simp] theorem State.setJob_hostCmds (j : Job) : (s.setJob j).hostCmds = s.hostCmds := by rfl
@[simp] theorem State.setJob_kv (j : Job) : (s.setJob j).kv = s.kv := by rfl
@[simp] theorem State.setJob_tier (j : Job) : (s.setJob j).tier = s.tier := by rfl
@[simp] theorem State.setJob_mem (j : Job) : (s.setJob j).mem = s.mem := by rfl
@[simp] theorem State.setJob_host (j : Job) : (s.setJob j).host = s.host := by rfl
@[simp] theorem State.setJob_fab (j : Job) : (s.setJob j).fab = s.fab := by rfl
@[simp] theorem State.setJob_rel (j : Job) : (s.setJob j).rel = s.rel := by rfl
@[simp] theorem State.setJob_vid (j : Job) : (s.setJob j).vid = s.vid := by rfl
@[simp] theorem State.setJob_pwr (j : Job) : (s.setJob j).pwr = s.pwr := by rfl
@[simp] theorem State.setJob_mail (j : Job) : (s.setJob j).mail = s.mail := by rfl
@[simp] theorem State.setJob_sec (j : Job) : (s.setJob j).sec = s.sec := by rfl
@[simp] theorem State.setJob_alert (j : Job) : (s.setJob j).alert = s.alert := by rfl

/-! ## dropJob -/

@[simp] theorem State.dropJob_pending (uid : Nat) : (s.dropJob uid).pending = s.pending := by rfl
@[simp] theorem State.dropJob_held (uid : Nat) : (s.dropJob uid).held = s.held := by rfl
@[simp] theorem State.dropJob_free (uid : Nat) : (s.dropJob uid).free = s.free := by rfl
@[simp] theorem State.dropJob_timeNs (uid : Nat) : (s.dropJob uid).timeNs = s.timeNs := by rfl
@[simp] theorem State.dropJob_out (uid : Nat) : (s.dropJob uid).out = s.out := by rfl
@[simp] theorem State.dropJob_regs (uid : Nat) : (s.dropJob uid).regs = s.regs := by rfl
@[simp] theorem State.dropJob_captures (uid : Nat) : (s.dropJob uid).captures = s.captures := by rfl
@[simp] theorem State.dropJob_stages (uid : Nat) : (s.dropJob uid).stages = s.stages := by rfl
@[simp] theorem State.dropJob_img (uid : Nat) : (s.dropJob uid).img = s.img := by rfl
@[simp] theorem State.dropJob_cores (uid : Nat) : (s.dropJob uid).cores = s.cores := by rfl
@[simp] theorem State.dropJob_job (uid : Nat) : (s.dropJob uid).job = { s.job with jobs := s.job.jobs.filter (·.uid != uid) } := by rfl
@[simp] theorem State.dropJob_cells (uid : Nat) : (s.dropJob uid).cells = s.cells := by rfl
@[simp] theorem State.dropJob_hostCmds (uid : Nat) : (s.dropJob uid).hostCmds = s.hostCmds := by rfl
@[simp] theorem State.dropJob_kv (uid : Nat) : (s.dropJob uid).kv = s.kv := by rfl
@[simp] theorem State.dropJob_tier (uid : Nat) : (s.dropJob uid).tier = s.tier := by rfl
@[simp] theorem State.dropJob_mem (uid : Nat) : (s.dropJob uid).mem = s.mem := by rfl
@[simp] theorem State.dropJob_host (uid : Nat) : (s.dropJob uid).host = s.host := by rfl
@[simp] theorem State.dropJob_fab (uid : Nat) : (s.dropJob uid).fab = s.fab := by rfl
@[simp] theorem State.dropJob_rel (uid : Nat) : (s.dropJob uid).rel = s.rel := by rfl
@[simp] theorem State.dropJob_vid (uid : Nat) : (s.dropJob uid).vid = s.vid := by rfl
@[simp] theorem State.dropJob_pwr (uid : Nat) : (s.dropJob uid).pwr = s.pwr := by rfl
@[simp] theorem State.dropJob_mail (uid : Nat) : (s.dropJob uid).mail = s.mail := by rfl
@[simp] theorem State.dropJob_sec (uid : Nat) : (s.dropJob uid).sec = s.sec := by rfl
@[simp] theorem State.dropJob_alert (uid : Nat) : (s.dropJob uid).alert = s.alert := by rfl

/-! ## setCell -/

@[simp] theorem State.setCell_pending (c : Cell) : (s.setCell c).pending = s.pending := by rfl
@[simp] theorem State.setCell_held (c : Cell) : (s.setCell c).held = s.held := by rfl
@[simp] theorem State.setCell_free (c : Cell) : (s.setCell c).free = s.free := by rfl
@[simp] theorem State.setCell_timeNs (c : Cell) : (s.setCell c).timeNs = s.timeNs := by rfl
@[simp] theorem State.setCell_out (c : Cell) : (s.setCell c).out = s.out := by rfl
@[simp] theorem State.setCell_regs (c : Cell) : (s.setCell c).regs = s.regs := by rfl
@[simp] theorem State.setCell_captures (c : Cell) : (s.setCell c).captures = s.captures := by rfl
@[simp] theorem State.setCell_stages (c : Cell) : (s.setCell c).stages = s.stages := by rfl
@[simp] theorem State.setCell_img (c : Cell) : (s.setCell c).img = s.img := by rfl
@[simp] theorem State.setCell_cores (c : Cell) : (s.setCell c).cores = s.cores := by rfl
@[simp] theorem State.setCell_job (c : Cell) : (s.setCell c).job = s.job := by rfl
@[simp] theorem State.setCell_hostCmds (c : Cell) : (s.setCell c).hostCmds = s.hostCmds := by rfl
@[simp] theorem State.setCell_kv (c : Cell) : (s.setCell c).kv = s.kv := by rfl
@[simp] theorem State.setCell_tier (c : Cell) : (s.setCell c).tier = s.tier := by rfl
@[simp] theorem State.setCell_mem (c : Cell) : (s.setCell c).mem = s.mem := by rfl
@[simp] theorem State.setCell_host (c : Cell) : (s.setCell c).host = s.host := by rfl
@[simp] theorem State.setCell_fab (c : Cell) : (s.setCell c).fab = s.fab := by rfl
@[simp] theorem State.setCell_rel (c : Cell) : (s.setCell c).rel = s.rel := by rfl
@[simp] theorem State.setCell_vid (c : Cell) : (s.setCell c).vid = s.vid := by rfl
@[simp] theorem State.setCell_pwr (c : Cell) : (s.setCell c).pwr = s.pwr := by rfl
@[simp] theorem State.setCell_mail (c : Cell) : (s.setCell c).mail = s.mail := by rfl
@[simp] theorem State.setCell_sec (c : Cell) : (s.setCell c).sec = s.sec := by rfl
@[simp] theorem State.setCell_alert (c : Cell) : (s.setCell c).alert = s.alert := by rfl

/-! ## setKvPage -/

@[simp] theorem State.setKvPage_pending (i : Nat) (p : KvPage) : (s.setKvPage i p).pending = s.pending := by rfl
@[simp] theorem State.setKvPage_held (i : Nat) (p : KvPage) : (s.setKvPage i p).held = s.held := by rfl
@[simp] theorem State.setKvPage_free (i : Nat) (p : KvPage) : (s.setKvPage i p).free = s.free := by rfl
@[simp] theorem State.setKvPage_timeNs (i : Nat) (p : KvPage) : (s.setKvPage i p).timeNs = s.timeNs := by rfl
@[simp] theorem State.setKvPage_out (i : Nat) (p : KvPage) : (s.setKvPage i p).out = s.out := by rfl
@[simp] theorem State.setKvPage_regs (i : Nat) (p : KvPage) : (s.setKvPage i p).regs = s.regs := by rfl
@[simp] theorem State.setKvPage_captures (i : Nat) (p : KvPage) : (s.setKvPage i p).captures = s.captures := by rfl
@[simp] theorem State.setKvPage_stages (i : Nat) (p : KvPage) : (s.setKvPage i p).stages = s.stages := by rfl
@[simp] theorem State.setKvPage_img (i : Nat) (p : KvPage) : (s.setKvPage i p).img = s.img := by rfl
@[simp] theorem State.setKvPage_cores (i : Nat) (p : KvPage) : (s.setKvPage i p).cores = s.cores := by rfl
@[simp] theorem State.setKvPage_job (i : Nat) (p : KvPage) : (s.setKvPage i p).job = s.job := by rfl
@[simp] theorem State.setKvPage_cells (i : Nat) (p : KvPage) : (s.setKvPage i p).cells = s.cells := by rfl
@[simp] theorem State.setKvPage_hostCmds (i : Nat) (p : KvPage) : (s.setKvPage i p).hostCmds = s.hostCmds := by rfl
@[simp] theorem State.setKvPage_tier (i : Nat) (p : KvPage) : (s.setKvPage i p).tier = s.tier := by rfl
@[simp] theorem State.setKvPage_mem (i : Nat) (p : KvPage) : (s.setKvPage i p).mem = s.mem := by rfl
@[simp] theorem State.setKvPage_host (i : Nat) (p : KvPage) : (s.setKvPage i p).host = s.host := by rfl
@[simp] theorem State.setKvPage_fab (i : Nat) (p : KvPage) : (s.setKvPage i p).fab = s.fab := by rfl
@[simp] theorem State.setKvPage_rel (i : Nat) (p : KvPage) : (s.setKvPage i p).rel = s.rel := by rfl
@[simp] theorem State.setKvPage_vid (i : Nat) (p : KvPage) : (s.setKvPage i p).vid = s.vid := by rfl
@[simp] theorem State.setKvPage_pwr (i : Nat) (p : KvPage) : (s.setKvPage i p).pwr = s.pwr := by rfl
@[simp] theorem State.setKvPage_mail (i : Nat) (p : KvPage) : (s.setKvPage i p).mail = s.mail := by rfl
@[simp] theorem State.setKvPage_sec (i : Nat) (p : KvPage) : (s.setKvPage i p).sec = s.sec := by rfl
@[simp] theorem State.setKvPage_alert (i : Nat) (p : KvPage) : (s.setKvPage i p).alert = s.alert := by rfl

/-! ## setObj -/

@[simp] theorem State.setObj_pending (o : TierObj) : (s.setObj o).pending = s.pending := by rfl
@[simp] theorem State.setObj_held (o : TierObj) : (s.setObj o).held = s.held := by rfl
@[simp] theorem State.setObj_free (o : TierObj) : (s.setObj o).free = s.free := by rfl
@[simp] theorem State.setObj_timeNs (o : TierObj) : (s.setObj o).timeNs = s.timeNs := by rfl
@[simp] theorem State.setObj_out (o : TierObj) : (s.setObj o).out = s.out := by rfl
@[simp] theorem State.setObj_regs (o : TierObj) : (s.setObj o).regs = s.regs := by rfl
@[simp] theorem State.setObj_captures (o : TierObj) : (s.setObj o).captures = s.captures := by rfl
@[simp] theorem State.setObj_stages (o : TierObj) : (s.setObj o).stages = s.stages := by rfl
@[simp] theorem State.setObj_img (o : TierObj) : (s.setObj o).img = s.img := by rfl
@[simp] theorem State.setObj_cores (o : TierObj) : (s.setObj o).cores = s.cores := by rfl
@[simp] theorem State.setObj_job (o : TierObj) : (s.setObj o).job = s.job := by rfl
@[simp] theorem State.setObj_cells (o : TierObj) : (s.setObj o).cells = s.cells := by rfl
@[simp] theorem State.setObj_hostCmds (o : TierObj) : (s.setObj o).hostCmds = s.hostCmds := by rfl
@[simp] theorem State.setObj_kv (o : TierObj) : (s.setObj o).kv = s.kv := by rfl
@[simp] theorem State.setObj_mem (o : TierObj) : (s.setObj o).mem = s.mem := by rfl
@[simp] theorem State.setObj_host (o : TierObj) : (s.setObj o).host = s.host := by rfl
@[simp] theorem State.setObj_fab (o : TierObj) : (s.setObj o).fab = s.fab := by rfl
@[simp] theorem State.setObj_rel (o : TierObj) : (s.setObj o).rel = s.rel := by rfl
@[simp] theorem State.setObj_vid (o : TierObj) : (s.setObj o).vid = s.vid := by rfl
@[simp] theorem State.setObj_pwr (o : TierObj) : (s.setObj o).pwr = s.pwr := by rfl
@[simp] theorem State.setObj_mail (o : TierObj) : (s.setObj o).mail = s.mail := by rfl
@[simp] theorem State.setObj_sec (o : TierObj) : (s.setObj o).sec = s.sec := by rfl
@[simp] theorem State.setObj_alert (o : TierObj) : (s.setObj o).alert = s.alert := by rfl

/-! ## setPort -/

@[simp] theorem State.setPort_pending (p : Nat) (a : Port) : (s.setPort p a).pending = s.pending := by rfl
@[simp] theorem State.setPort_held (p : Nat) (a : Port) : (s.setPort p a).held = s.held := by rfl
@[simp] theorem State.setPort_free (p : Nat) (a : Port) : (s.setPort p a).free = s.free := by rfl
@[simp] theorem State.setPort_timeNs (p : Nat) (a : Port) : (s.setPort p a).timeNs = s.timeNs := by rfl
@[simp] theorem State.setPort_out (p : Nat) (a : Port) : (s.setPort p a).out = s.out := by rfl
@[simp] theorem State.setPort_regs (p : Nat) (a : Port) : (s.setPort p a).regs = s.regs := by rfl
@[simp] theorem State.setPort_captures (p : Nat) (a : Port) : (s.setPort p a).captures = s.captures := by rfl
@[simp] theorem State.setPort_stages (p : Nat) (a : Port) : (s.setPort p a).stages = s.stages := by rfl
@[simp] theorem State.setPort_img (p : Nat) (a : Port) : (s.setPort p a).img = s.img := by rfl
@[simp] theorem State.setPort_cores (p : Nat) (a : Port) : (s.setPort p a).cores = s.cores := by rfl
@[simp] theorem State.setPort_job (p : Nat) (a : Port) : (s.setPort p a).job = s.job := by rfl
@[simp] theorem State.setPort_cells (p : Nat) (a : Port) : (s.setPort p a).cells = s.cells := by rfl
@[simp] theorem State.setPort_hostCmds (p : Nat) (a : Port) : (s.setPort p a).hostCmds = s.hostCmds := by rfl
@[simp] theorem State.setPort_kv (p : Nat) (a : Port) : (s.setPort p a).kv = s.kv := by rfl
@[simp] theorem State.setPort_tier (p : Nat) (a : Port) : (s.setPort p a).tier = s.tier := by rfl
@[simp] theorem State.setPort_mem (p : Nat) (a : Port) : (s.setPort p a).mem = s.mem := by rfl
@[simp] theorem State.setPort_host (p : Nat) (a : Port) : (s.setPort p a).host = s.host := by rfl
@[simp] theorem State.setPort_rel (p : Nat) (a : Port) : (s.setPort p a).rel = s.rel := by rfl
@[simp] theorem State.setPort_vid (p : Nat) (a : Port) : (s.setPort p a).vid = s.vid := by rfl
@[simp] theorem State.setPort_pwr (p : Nat) (a : Port) : (s.setPort p a).pwr = s.pwr := by rfl
@[simp] theorem State.setPort_mail (p : Nat) (a : Port) : (s.setPort p a).mail = s.mail := by rfl
@[simp] theorem State.setPort_sec (p : Nat) (a : Port) : (s.setPort p a).sec = s.sec := by rfl
@[simp] theorem State.setPort_alert (p : Nat) (a : Port) : (s.setPort p a).alert = s.alert := by rfl

/-! ## setSync -/

@[simp] theorem State.setSync_pending (o : SyncObj) : (s.setSync o).pending = s.pending := by rfl
@[simp] theorem State.setSync_held (o : SyncObj) : (s.setSync o).held = s.held := by rfl
@[simp] theorem State.setSync_free (o : SyncObj) : (s.setSync o).free = s.free := by rfl
@[simp] theorem State.setSync_timeNs (o : SyncObj) : (s.setSync o).timeNs = s.timeNs := by rfl
@[simp] theorem State.setSync_out (o : SyncObj) : (s.setSync o).out = s.out := by rfl
@[simp] theorem State.setSync_regs (o : SyncObj) : (s.setSync o).regs = s.regs := by rfl
@[simp] theorem State.setSync_captures (o : SyncObj) : (s.setSync o).captures = s.captures := by rfl
@[simp] theorem State.setSync_stages (o : SyncObj) : (s.setSync o).stages = s.stages := by rfl
@[simp] theorem State.setSync_img (o : SyncObj) : (s.setSync o).img = s.img := by rfl
@[simp] theorem State.setSync_cores (o : SyncObj) : (s.setSync o).cores = s.cores := by rfl
@[simp] theorem State.setSync_job (o : SyncObj) : (s.setSync o).job = s.job := by rfl
@[simp] theorem State.setSync_cells (o : SyncObj) : (s.setSync o).cells = s.cells := by rfl
@[simp] theorem State.setSync_hostCmds (o : SyncObj) : (s.setSync o).hostCmds = s.hostCmds := by rfl
@[simp] theorem State.setSync_kv (o : SyncObj) : (s.setSync o).kv = s.kv := by rfl
@[simp] theorem State.setSync_tier (o : SyncObj) : (s.setSync o).tier = s.tier := by rfl
@[simp] theorem State.setSync_mem (o : SyncObj) : (s.setSync o).mem = s.mem := by rfl
@[simp] theorem State.setSync_host (o : SyncObj) : (s.setSync o).host = s.host := by rfl
@[simp] theorem State.setSync_rel (o : SyncObj) : (s.setSync o).rel = s.rel := by rfl
@[simp] theorem State.setSync_vid (o : SyncObj) : (s.setSync o).vid = s.vid := by rfl
@[simp] theorem State.setSync_pwr (o : SyncObj) : (s.setSync o).pwr = s.pwr := by rfl
@[simp] theorem State.setSync_mail (o : SyncObj) : (s.setSync o).mail = s.mail := by rfl
@[simp] theorem State.setSync_sec (o : SyncObj) : (s.setSync o).sec = s.sec := by rfl
@[simp] theorem State.setSync_alert (o : SyncObj) : (s.setSync o).alert = s.alert := by rfl

/-! ## setStream -/

@[simp] theorem State.setStream_pending (v : Stream) : (s.setStream v).pending = s.pending := by rfl
@[simp] theorem State.setStream_held (v : Stream) : (s.setStream v).held = s.held := by rfl
@[simp] theorem State.setStream_free (v : Stream) : (s.setStream v).free = s.free := by rfl
@[simp] theorem State.setStream_timeNs (v : Stream) : (s.setStream v).timeNs = s.timeNs := by rfl
@[simp] theorem State.setStream_out (v : Stream) : (s.setStream v).out = s.out := by rfl
@[simp] theorem State.setStream_regs (v : Stream) : (s.setStream v).regs = s.regs := by rfl
@[simp] theorem State.setStream_captures (v : Stream) : (s.setStream v).captures = s.captures := by rfl
@[simp] theorem State.setStream_stages (v : Stream) : (s.setStream v).stages = s.stages := by rfl
@[simp] theorem State.setStream_img (v : Stream) : (s.setStream v).img = s.img := by rfl
@[simp] theorem State.setStream_cores (v : Stream) : (s.setStream v).cores = s.cores := by rfl
@[simp] theorem State.setStream_job (v : Stream) : (s.setStream v).job = s.job := by rfl
@[simp] theorem State.setStream_cells (v : Stream) : (s.setStream v).cells = s.cells := by rfl
@[simp] theorem State.setStream_hostCmds (v : Stream) : (s.setStream v).hostCmds = s.hostCmds := by rfl
@[simp] theorem State.setStream_kv (v : Stream) : (s.setStream v).kv = s.kv := by rfl
@[simp] theorem State.setStream_tier (v : Stream) : (s.setStream v).tier = s.tier := by rfl
@[simp] theorem State.setStream_mem (v : Stream) : (s.setStream v).mem = s.mem := by rfl
@[simp] theorem State.setStream_host (v : Stream) : (s.setStream v).host = s.host := by rfl
@[simp] theorem State.setStream_fab (v : Stream) : (s.setStream v).fab = s.fab := by rfl
@[simp] theorem State.setStream_rel (v : Stream) : (s.setStream v).rel = s.rel := by rfl
@[simp] theorem State.setStream_pwr (v : Stream) : (s.setStream v).pwr = s.pwr := by rfl
@[simp] theorem State.setStream_mail (v : Stream) : (s.setStream v).mail = s.mail := by rfl
@[simp] theorem State.setStream_sec (v : Stream) : (s.setStream v).sec = s.sec := by rfl
@[simp] theorem State.setStream_alert (v : Stream) : (s.setStream v).alert = s.alert := by rfl

/-! ## What each update leaves of what is read through a name -/

@[simp] theorem State.section_setReg (off : Nat) (v : Word) (x y : Nat) : (s.setReg off v).section x y = s.section x y := by rfl
@[simp] theorem State.core_setReg (off : Nat) (v : Word) (x : Nat) : (s.setReg off v).core x = s.core x := by rfl
@[simp] theorem State.ctx_setReg (off : Nat) (v : Word) (x : Nat) : (s.setReg off v).ctx x = s.ctx x := by rfl
@[simp] theorem State.jobOf_setReg (off : Nat) (v : Word) (x : Nat) : (s.setReg off v).jobOf x = s.jobOf x := by rfl
@[simp] theorem State.port_setReg (off : Nat) (v : Word) (x : Nat) : (s.setReg off v).port x = s.port x := by rfl
@[simp] theorem State.kvPage_setReg (off : Nat) (v : Word) (x : Nat) : (s.setReg off v).kvPage x = s.kvPage x := by rfl
@[simp] theorem State.obj_setReg (off : Nat) (v : Word) (x : Nat) : (s.setReg off v).obj x = s.obj x := by rfl
@[simp] theorem State.streamAt_setReg (off : Nat) (v : Word) (x : Nat) : (s.setReg off v).streamAt x = s.streamAt x := by rfl
@[simp] theorem State.cell_setReg (off : Nat) (v : Word) (x : PortKind) (y z : Nat) : (s.setReg off v).cell x y z = s.cell x y z := by rfl
@[simp] theorem State.notice_setReg (off : Nat) (v : Word) (x : Nat) : (s.setReg off v).notice x = s.notice x := by rfl
@[simp] theorem State.hbm_setReg (off : Nat) (v : Word) (x y : Nat) : (s.setReg off v).hbm x y = s.hbm x y := by rfl

@[simp] theorem State.section_putF (f : Fld) (v : Nat) (x y : Nat) : (s.putF f v).section x y = s.section x y := by rfl
@[simp] theorem State.core_putF (f : Fld) (v : Nat) (x : Nat) : (s.putF f v).core x = s.core x := by rfl
@[simp] theorem State.ctx_putF (f : Fld) (v : Nat) (x : Nat) : (s.putF f v).ctx x = s.ctx x := by rfl
@[simp] theorem State.jobOf_putF (f : Fld) (v : Nat) (x : Nat) : (s.putF f v).jobOf x = s.jobOf x := by rfl
@[simp] theorem State.port_putF (f : Fld) (v : Nat) (x : Nat) : (s.putF f v).port x = s.port x := by rfl
@[simp] theorem State.kvPage_putF (f : Fld) (v : Nat) (x : Nat) : (s.putF f v).kvPage x = s.kvPage x := by rfl
@[simp] theorem State.obj_putF (f : Fld) (v : Nat) (x : Nat) : (s.putF f v).obj x = s.obj x := by rfl
@[simp] theorem State.streamAt_putF (f : Fld) (v : Nat) (x : Nat) : (s.putF f v).streamAt x = s.streamAt x := by rfl
@[simp] theorem State.cell_putF (f : Fld) (v : Nat) (x : PortKind) (y z : Nat) : (s.putF f v).cell x y z = s.cell x y z := by rfl
@[simp] theorem State.notice_putF (f : Fld) (v : Nat) (x : Nat) : (s.putF f v).notice x = s.notice x := by rfl
@[simp] theorem State.hbm_putF (f : Fld) (v : Nat) (x y : Nat) : (s.putF f v).hbm x y = s.hbm x y := by rfl

@[simp] theorem State.section_addF (f : Fld) (n : Nat) (x y : Nat) : (s.addF f n).section x y = s.section x y := by rfl
@[simp] theorem State.core_addF (f : Fld) (n : Nat) (x : Nat) : (s.addF f n).core x = s.core x := by rfl
@[simp] theorem State.ctx_addF (f : Fld) (n : Nat) (x : Nat) : (s.addF f n).ctx x = s.ctx x := by rfl
@[simp] theorem State.jobOf_addF (f : Fld) (n : Nat) (x : Nat) : (s.addF f n).jobOf x = s.jobOf x := by rfl
@[simp] theorem State.port_addF (f : Fld) (n : Nat) (x : Nat) : (s.addF f n).port x = s.port x := by rfl
@[simp] theorem State.kvPage_addF (f : Fld) (n : Nat) (x : Nat) : (s.addF f n).kvPage x = s.kvPage x := by rfl
@[simp] theorem State.obj_addF (f : Fld) (n : Nat) (x : Nat) : (s.addF f n).obj x = s.obj x := by rfl
@[simp] theorem State.streamAt_addF (f : Fld) (n : Nat) (x : Nat) : (s.addF f n).streamAt x = s.streamAt x := by rfl
@[simp] theorem State.cell_addF (f : Fld) (n : Nat) (x : PortKind) (y z : Nat) : (s.addF f n).cell x y z = s.cell x y z := by rfl
@[simp] theorem State.notice_addF (f : Fld) (n : Nat) (x : Nat) : (s.addF f n).notice x = s.notice x := by rfl
@[simp] theorem State.hbm_addF (f : Fld) (n : Nat) (x y : Nat) : (s.addF f n).hbm x y = s.hbm x y := by rfl

@[simp] theorem State.section_addSatF (f : Fld) (n : Nat) (x y : Nat) : (s.addSatF f n).section x y = s.section x y := by rfl
@[simp] theorem State.core_addSatF (f : Fld) (n : Nat) (x : Nat) : (s.addSatF f n).core x = s.core x := by rfl
@[simp] theorem State.ctx_addSatF (f : Fld) (n : Nat) (x : Nat) : (s.addSatF f n).ctx x = s.ctx x := by rfl
@[simp] theorem State.jobOf_addSatF (f : Fld) (n : Nat) (x : Nat) : (s.addSatF f n).jobOf x = s.jobOf x := by rfl
@[simp] theorem State.port_addSatF (f : Fld) (n : Nat) (x : Nat) : (s.addSatF f n).port x = s.port x := by rfl
@[simp] theorem State.kvPage_addSatF (f : Fld) (n : Nat) (x : Nat) : (s.addSatF f n).kvPage x = s.kvPage x := by rfl
@[simp] theorem State.obj_addSatF (f : Fld) (n : Nat) (x : Nat) : (s.addSatF f n).obj x = s.obj x := by rfl
@[simp] theorem State.streamAt_addSatF (f : Fld) (n : Nat) (x : Nat) : (s.addSatF f n).streamAt x = s.streamAt x := by rfl
@[simp] theorem State.cell_addSatF (f : Fld) (n : Nat) (x : PortKind) (y z : Nat) : (s.addSatF f n).cell x y z = s.cell x y z := by rfl
@[simp] theorem State.notice_addSatF (f : Fld) (n : Nat) (x : Nat) : (s.addSatF f n).notice x = s.notice x := by rfl
@[simp] theorem State.hbm_addSatF (f : Fld) (n : Nat) (x y : Nat) : (s.addSatF f n).hbm x y = s.hbm x y := by rfl

@[simp] theorem State.section_putP (lo v : Nat) (x y : Nat) : (s.putP lo v).section x y = s.section x y := by rfl
@[simp] theorem State.core_putP (lo v : Nat) (x : Nat) : (s.putP lo v).core x = s.core x := by rfl
@[simp] theorem State.ctx_putP (lo v : Nat) (x : Nat) : (s.putP lo v).ctx x = s.ctx x := by rfl
@[simp] theorem State.jobOf_putP (lo v : Nat) (x : Nat) : (s.putP lo v).jobOf x = s.jobOf x := by rfl
@[simp] theorem State.port_putP (lo v : Nat) (x : Nat) : (s.putP lo v).port x = s.port x := by rfl
@[simp] theorem State.kvPage_putP (lo v : Nat) (x : Nat) : (s.putP lo v).kvPage x = s.kvPage x := by rfl
@[simp] theorem State.obj_putP (lo v : Nat) (x : Nat) : (s.putP lo v).obj x = s.obj x := by rfl
@[simp] theorem State.streamAt_putP (lo v : Nat) (x : Nat) : (s.putP lo v).streamAt x = s.streamAt x := by rfl
@[simp] theorem State.cell_putP (lo v : Nat) (x : PortKind) (y z : Nat) : (s.putP lo v).cell x y z = s.cell x y z := by rfl
@[simp] theorem State.notice_putP (lo v : Nat) (x : Nat) : (s.putP lo v).notice x = s.notice x := by rfl
@[simp] theorem State.hbm_putP (lo v : Nat) (x y : Nat) : (s.putP lo v).hbm x y = s.hbm x y := by rfl

@[simp] theorem State.section_addP (lo n : Nat) (x y : Nat) : (s.addP lo n).section x y = s.section x y := by rfl
@[simp] theorem State.core_addP (lo n : Nat) (x : Nat) : (s.addP lo n).core x = s.core x := by rfl
@[simp] theorem State.ctx_addP (lo n : Nat) (x : Nat) : (s.addP lo n).ctx x = s.ctx x := by rfl
@[simp] theorem State.jobOf_addP (lo n : Nat) (x : Nat) : (s.addP lo n).jobOf x = s.jobOf x := by rfl
@[simp] theorem State.port_addP (lo n : Nat) (x : Nat) : (s.addP lo n).port x = s.port x := by rfl
@[simp] theorem State.kvPage_addP (lo n : Nat) (x : Nat) : (s.addP lo n).kvPage x = s.kvPage x := by rfl
@[simp] theorem State.obj_addP (lo n : Nat) (x : Nat) : (s.addP lo n).obj x = s.obj x := by rfl
@[simp] theorem State.streamAt_addP (lo n : Nat) (x : Nat) : (s.addP lo n).streamAt x = s.streamAt x := by rfl
@[simp] theorem State.cell_addP (lo n : Nat) (x : PortKind) (y z : Nat) : (s.addP lo n).cell x y z = s.cell x y z := by rfl
@[simp] theorem State.notice_addP (lo n : Nat) (x : Nat) : (s.addP lo n).notice x = s.notice x := by rfl
@[simp] theorem State.hbm_addP (lo n : Nat) (x y : Nat) : (s.addP lo n).hbm x y = s.hbm x y := by rfl

@[simp] theorem State.reg_emit (o : Output) (x : Nat) : (s.emit o).reg x = s.reg x := by rfl
@[simp] theorem State.getF_emit (o : Output) (x : Fld) : (s.emit o).getF x = s.getF x := by rfl
@[simp] theorem State.getP_emit (o : Output) (x : Nat) : (s.emit o).getP x = s.getP x := by rfl
@[simp] theorem State.section_emit (o : Output) (x y : Nat) : (s.emit o).section x y = s.section x y := by rfl
@[simp] theorem State.core_emit (o : Output) (x : Nat) : (s.emit o).core x = s.core x := by rfl
@[simp] theorem State.ctx_emit (o : Output) (x : Nat) : (s.emit o).ctx x = s.ctx x := by rfl
@[simp] theorem State.jobOf_emit (o : Output) (x : Nat) : (s.emit o).jobOf x = s.jobOf x := by rfl
@[simp] theorem State.port_emit (o : Output) (x : Nat) : (s.emit o).port x = s.port x := by rfl
@[simp] theorem State.kvPage_emit (o : Output) (x : Nat) : (s.emit o).kvPage x = s.kvPage x := by rfl
@[simp] theorem State.obj_emit (o : Output) (x : Nat) : (s.emit o).obj x = s.obj x := by rfl
@[simp] theorem State.streamAt_emit (o : Output) (x : Nat) : (s.emit o).streamAt x = s.streamAt x := by rfl
@[simp] theorem State.cell_emit (o : Output) (x : PortKind) (y z : Nat) : (s.emit o).cell x y z = s.cell x y z := by rfl
@[simp] theorem State.notice_emit (o : Output) (x : Nat) : (s.emit o).notice x = s.notice x := by rfl
@[simp] theorem State.hbm_emit (o : Output) (x y : Nat) : (s.emit o).hbm x y = s.hbm x y := by rfl

@[simp] theorem State.reg_hold (i : Instr) (x : Nat) : (s.hold i).reg x = s.reg x := by rfl
@[simp] theorem State.getF_hold (i : Instr) (x : Fld) : (s.hold i).getF x = s.getF x := by rfl
@[simp] theorem State.getP_hold (i : Instr) (x : Nat) : (s.hold i).getP x = s.getP x := by rfl
@[simp] theorem State.section_hold (i : Instr) (x y : Nat) : (s.hold i).section x y = s.section x y := by rfl
@[simp] theorem State.core_hold (i : Instr) (x : Nat) : (s.hold i).core x = s.core x := by rfl
@[simp] theorem State.ctx_hold (i : Instr) (x : Nat) : (s.hold i).ctx x = s.ctx x := by rfl
@[simp] theorem State.jobOf_hold (i : Instr) (x : Nat) : (s.hold i).jobOf x = s.jobOf x := by rfl
@[simp] theorem State.port_hold (i : Instr) (x : Nat) : (s.hold i).port x = s.port x := by rfl
@[simp] theorem State.kvPage_hold (i : Instr) (x : Nat) : (s.hold i).kvPage x = s.kvPage x := by rfl
@[simp] theorem State.obj_hold (i : Instr) (x : Nat) : (s.hold i).obj x = s.obj x := by rfl
@[simp] theorem State.streamAt_hold (i : Instr) (x : Nat) : (s.hold i).streamAt x = s.streamAt x := by rfl
@[simp] theorem State.cell_hold (i : Instr) (x : PortKind) (y z : Nat) : (s.hold i).cell x y z = s.cell x y z := by rfl
@[simp] theorem State.notice_hold (i : Instr) (x : Nat) : (s.hold i).notice x = s.notice x := by rfl
@[simp] theorem State.hbm_hold (i : Instr) (x y : Nat) : (s.hold i).hbm x y = s.hbm x y := by rfl

@[simp] theorem State.reg_retryLater (i : Nat) (c : Instr) (x : Nat) : (s.retryLater i c).reg x = s.reg x := by rfl
@[simp] theorem State.getF_retryLater (i : Nat) (c : Instr) (x : Fld) : (s.retryLater i c).getF x = s.getF x := by rfl
@[simp] theorem State.getP_retryLater (i : Nat) (c : Instr) (x : Nat) : (s.retryLater i c).getP x = s.getP x := by rfl
@[simp] theorem State.section_retryLater (i : Nat) (c : Instr) (x y : Nat) : (s.retryLater i c).section x y = s.section x y := by rfl
@[simp] theorem State.core_retryLater (i : Nat) (c : Instr) (x : Nat) : (s.retryLater i c).core x = s.core x := by rfl
@[simp] theorem State.ctx_retryLater (i : Nat) (c : Instr) (x : Nat) : (s.retryLater i c).ctx x = s.ctx x := by rfl
@[simp] theorem State.jobOf_retryLater (i : Nat) (c : Instr) (x : Nat) : (s.retryLater i c).jobOf x = s.jobOf x := by rfl
@[simp] theorem State.port_retryLater (i : Nat) (c : Instr) (x : Nat) : (s.retryLater i c).port x = s.port x := by rfl
@[simp] theorem State.kvPage_retryLater (i : Nat) (c : Instr) (x : Nat) : (s.retryLater i c).kvPage x = s.kvPage x := by rfl
@[simp] theorem State.obj_retryLater (i : Nat) (c : Instr) (x : Nat) : (s.retryLater i c).obj x = s.obj x := by rfl
@[simp] theorem State.streamAt_retryLater (i : Nat) (c : Instr) (x : Nat) : (s.retryLater i c).streamAt x = s.streamAt x := by rfl
@[simp] theorem State.cell_retryLater (i : Nat) (c : Instr) (x : PortKind) (y z : Nat) : (s.retryLater i c).cell x y z = s.cell x y z := by rfl
@[simp] theorem State.notice_retryLater (i : Nat) (c : Instr) (x : Nat) : (s.retryLater i c).notice x = s.notice x := by rfl
@[simp] theorem State.hbm_retryLater (i : Nat) (c : Instr) (x y : Nat) : (s.retryLater i c).hbm x y = s.hbm x y := by rfl

@[simp] theorem State.reg_setCore (p : Nat) (c : Core) (x : Nat) : (s.setCore p c).reg x = s.reg x := by rfl
@[simp] theorem State.getF_setCore (p : Nat) (c : Core) (x : Fld) : (s.setCore p c).getF x = s.getF x := by rfl
@[simp] theorem State.getP_setCore (p : Nat) (c : Core) (x : Nat) : (s.setCore p c).getP x = s.getP x := by rfl
@[simp] theorem State.section_setCore (p : Nat) (c : Core) (x y : Nat) : (s.setCore p c).section x y = s.section x y := by rfl
@[simp] theorem State.ctx_setCore (p : Nat) (c : Core) (x : Nat) : (s.setCore p c).ctx x = s.ctx x := by rfl
@[simp] theorem State.jobOf_setCore (p : Nat) (c : Core) (x : Nat) : (s.setCore p c).jobOf x = s.jobOf x := by rfl
@[simp] theorem State.port_setCore (p : Nat) (c : Core) (x : Nat) : (s.setCore p c).port x = s.port x := by rfl
@[simp] theorem State.kvPage_setCore (p : Nat) (c : Core) (x : Nat) : (s.setCore p c).kvPage x = s.kvPage x := by rfl
@[simp] theorem State.obj_setCore (p : Nat) (c : Core) (x : Nat) : (s.setCore p c).obj x = s.obj x := by rfl
@[simp] theorem State.streamAt_setCore (p : Nat) (c : Core) (x : Nat) : (s.setCore p c).streamAt x = s.streamAt x := by rfl
@[simp] theorem State.cell_setCore (p : Nat) (c : Core) (x : PortKind) (y z : Nat) : (s.setCore p c).cell x y z = s.cell x y z := by rfl
@[simp] theorem State.notice_setCore (p : Nat) (c : Core) (x : Nat) : (s.setCore p c).notice x = s.notice x := by rfl
@[simp] theorem State.hbm_setCore (p : Nat) (c : Core) (x y : Nat) : (s.setCore p c).hbm x y = s.hbm x y := by rfl

@[simp] theorem State.reg_setScratch (p addr : Nat) (bs : List Byte) (x : Nat) : (s.setScratch p addr bs).reg x = s.reg x := by rfl
@[simp] theorem State.getF_setScratch (p addr : Nat) (bs : List Byte) (x : Fld) : (s.setScratch p addr bs).getF x = s.getF x := by rfl
@[simp] theorem State.getP_setScratch (p addr : Nat) (bs : List Byte) (x : Nat) : (s.setScratch p addr bs).getP x = s.getP x := by rfl
@[simp] theorem State.section_setScratch (p addr : Nat) (bs : List Byte) (x y : Nat) : (s.setScratch p addr bs).section x y = s.section x y := by rfl
@[simp] theorem State.ctx_setScratch (p addr : Nat) (bs : List Byte) (x : Nat) : (s.setScratch p addr bs).ctx x = s.ctx x := by rfl
@[simp] theorem State.jobOf_setScratch (p addr : Nat) (bs : List Byte) (x : Nat) : (s.setScratch p addr bs).jobOf x = s.jobOf x := by rfl
@[simp] theorem State.port_setScratch (p addr : Nat) (bs : List Byte) (x : Nat) : (s.setScratch p addr bs).port x = s.port x := by rfl
@[simp] theorem State.kvPage_setScratch (p addr : Nat) (bs : List Byte) (x : Nat) : (s.setScratch p addr bs).kvPage x = s.kvPage x := by rfl
@[simp] theorem State.obj_setScratch (p addr : Nat) (bs : List Byte) (x : Nat) : (s.setScratch p addr bs).obj x = s.obj x := by rfl
@[simp] theorem State.streamAt_setScratch (p addr : Nat) (bs : List Byte) (x : Nat) : (s.setScratch p addr bs).streamAt x = s.streamAt x := by rfl
@[simp] theorem State.cell_setScratch (p addr : Nat) (bs : List Byte) (x : PortKind) (y z : Nat) : (s.setScratch p addr bs).cell x y z = s.cell x y z := by rfl
@[simp] theorem State.notice_setScratch (p addr : Nat) (bs : List Byte) (x : Nat) : (s.setScratch p addr bs).notice x = s.notice x := by rfl
@[simp] theorem State.hbm_setScratch (p addr : Nat) (bs : List Byte) (x y : Nat) : (s.setScratch p addr bs).hbm x y = s.hbm x y := by rfl

@[simp] theorem State.reg_setAcc (p addr : Nat) (bs : List Byte) (x : Nat) : (s.setAcc p addr bs).reg x = s.reg x := by rfl
@[simp] theorem State.getF_setAcc (p addr : Nat) (bs : List Byte) (x : Fld) : (s.setAcc p addr bs).getF x = s.getF x := by rfl
@[simp] theorem State.getP_setAcc (p addr : Nat) (bs : List Byte) (x : Nat) : (s.setAcc p addr bs).getP x = s.getP x := by rfl
@[simp] theorem State.section_setAcc (p addr : Nat) (bs : List Byte) (x y : Nat) : (s.setAcc p addr bs).section x y = s.section x y := by rfl
@[simp] theorem State.ctx_setAcc (p addr : Nat) (bs : List Byte) (x : Nat) : (s.setAcc p addr bs).ctx x = s.ctx x := by rfl
@[simp] theorem State.jobOf_setAcc (p addr : Nat) (bs : List Byte) (x : Nat) : (s.setAcc p addr bs).jobOf x = s.jobOf x := by rfl
@[simp] theorem State.port_setAcc (p addr : Nat) (bs : List Byte) (x : Nat) : (s.setAcc p addr bs).port x = s.port x := by rfl
@[simp] theorem State.kvPage_setAcc (p addr : Nat) (bs : List Byte) (x : Nat) : (s.setAcc p addr bs).kvPage x = s.kvPage x := by rfl
@[simp] theorem State.obj_setAcc (p addr : Nat) (bs : List Byte) (x : Nat) : (s.setAcc p addr bs).obj x = s.obj x := by rfl
@[simp] theorem State.streamAt_setAcc (p addr : Nat) (bs : List Byte) (x : Nat) : (s.setAcc p addr bs).streamAt x = s.streamAt x := by rfl
@[simp] theorem State.cell_setAcc (p addr : Nat) (bs : List Byte) (x : PortKind) (y z : Nat) : (s.setAcc p addr bs).cell x y z = s.cell x y z := by rfl
@[simp] theorem State.notice_setAcc (p addr : Nat) (bs : List Byte) (x : Nat) : (s.setAcc p addr bs).notice x = s.notice x := by rfl
@[simp] theorem State.hbm_setAcc (p addr : Nat) (bs : List Byte) (x y : Nat) : (s.setAcc p addr bs).hbm x y = s.hbm x y := by rfl

@[simp] theorem State.reg_setProg (p : Nat) (g : Program) (x : Nat) : (s.setProg p g).reg x = s.reg x := by rfl
@[simp] theorem State.getF_setProg (p : Nat) (g : Program) (x : Fld) : (s.setProg p g).getF x = s.getF x := by rfl
@[simp] theorem State.getP_setProg (p : Nat) (g : Program) (x : Nat) : (s.setProg p g).getP x = s.getP x := by rfl
@[simp] theorem State.section_setProg (p : Nat) (g : Program) (x y : Nat) : (s.setProg p g).section x y = s.section x y := by rfl
@[simp] theorem State.ctx_setProg (p : Nat) (g : Program) (x : Nat) : (s.setProg p g).ctx x = s.ctx x := by rfl
@[simp] theorem State.jobOf_setProg (p : Nat) (g : Program) (x : Nat) : (s.setProg p g).jobOf x = s.jobOf x := by rfl
@[simp] theorem State.port_setProg (p : Nat) (g : Program) (x : Nat) : (s.setProg p g).port x = s.port x := by rfl
@[simp] theorem State.kvPage_setProg (p : Nat) (g : Program) (x : Nat) : (s.setProg p g).kvPage x = s.kvPage x := by rfl
@[simp] theorem State.obj_setProg (p : Nat) (g : Program) (x : Nat) : (s.setProg p g).obj x = s.obj x := by rfl
@[simp] theorem State.streamAt_setProg (p : Nat) (g : Program) (x : Nat) : (s.setProg p g).streamAt x = s.streamAt x := by rfl
@[simp] theorem State.cell_setProg (p : Nat) (g : Program) (x : PortKind) (y z : Nat) : (s.setProg p g).cell x y z = s.cell x y z := by rfl
@[simp] theorem State.notice_setProg (p : Nat) (g : Program) (x : Nat) : (s.setProg p g).notice x = s.notice x := by rfl
@[simp] theorem State.hbm_setProg (p : Nat) (g : Program) (x y : Nat) : (s.setProg p g).hbm x y = s.hbm x y := by rfl

@[simp] theorem State.reg_addCounts (p sat flushed : Nat) (x : Nat) : (s.addCounts p sat flushed).reg x = s.reg x := by rfl
@[simp] theorem State.getF_addCounts (p sat flushed : Nat) (x : Fld) : (s.addCounts p sat flushed).getF x = s.getF x := by rfl
@[simp] theorem State.getP_addCounts (p sat flushed : Nat) (x : Nat) : (s.addCounts p sat flushed).getP x = s.getP x := by rfl
@[simp] theorem State.section_addCounts (p sat flushed : Nat) (x y : Nat) : (s.addCounts p sat flushed).section x y = s.section x y := by rfl
@[simp] theorem State.ctx_addCounts (p sat flushed : Nat) (x : Nat) : (s.addCounts p sat flushed).ctx x = s.ctx x := by rfl
@[simp] theorem State.jobOf_addCounts (p sat flushed : Nat) (x : Nat) : (s.addCounts p sat flushed).jobOf x = s.jobOf x := by rfl
@[simp] theorem State.port_addCounts (p sat flushed : Nat) (x : Nat) : (s.addCounts p sat flushed).port x = s.port x := by rfl
@[simp] theorem State.kvPage_addCounts (p sat flushed : Nat) (x : Nat) : (s.addCounts p sat flushed).kvPage x = s.kvPage x := by rfl
@[simp] theorem State.obj_addCounts (p sat flushed : Nat) (x : Nat) : (s.addCounts p sat flushed).obj x = s.obj x := by rfl
@[simp] theorem State.streamAt_addCounts (p sat flushed : Nat) (x : Nat) : (s.addCounts p sat flushed).streamAt x = s.streamAt x := by rfl
@[simp] theorem State.cell_addCounts (p sat flushed : Nat) (x : PortKind) (y z : Nat) : (s.addCounts p sat flushed).cell x y z = s.cell x y z := by rfl
@[simp] theorem State.notice_addCounts (p sat flushed : Nat) (x : Nat) : (s.addCounts p sat flushed).notice x = s.notice x := by rfl
@[simp] theorem State.hbm_addCounts (p sat flushed : Nat) (x y : Nat) : (s.addCounts p sat flushed).hbm x y = s.hbm x y := by rfl

@[simp] theorem State.section_addFlags (p engine : Nat) (f : Flags) (x y : Nat) : (s.addFlags p engine f).section x y = s.section x y := by rfl
@[simp] theorem State.core_addFlags (p engine : Nat) (f : Flags) (x : Nat) : (s.addFlags p engine f).core x = s.core x := by rfl
@[simp] theorem State.ctx_addFlags (p engine : Nat) (f : Flags) (x : Nat) : (s.addFlags p engine f).ctx x = s.ctx x := by rfl
@[simp] theorem State.jobOf_addFlags (p engine : Nat) (f : Flags) (x : Nat) : (s.addFlags p engine f).jobOf x = s.jobOf x := by rfl
@[simp] theorem State.port_addFlags (p engine : Nat) (f : Flags) (x : Nat) : (s.addFlags p engine f).port x = s.port x := by rfl
@[simp] theorem State.kvPage_addFlags (p engine : Nat) (f : Flags) (x : Nat) : (s.addFlags p engine f).kvPage x = s.kvPage x := by rfl
@[simp] theorem State.obj_addFlags (p engine : Nat) (f : Flags) (x : Nat) : (s.addFlags p engine f).obj x = s.obj x := by rfl
@[simp] theorem State.streamAt_addFlags (p engine : Nat) (f : Flags) (x : Nat) : (s.addFlags p engine f).streamAt x = s.streamAt x := by rfl
@[simp] theorem State.cell_addFlags (p engine : Nat) (f : Flags) (x : PortKind) (y z : Nat) : (s.addFlags p engine f).cell x y z = s.cell x y z := by rfl
@[simp] theorem State.notice_addFlags (p engine : Nat) (f : Flags) (x : Nat) : (s.addFlags p engine f).notice x = s.notice x := by rfl
@[simp] theorem State.hbm_addFlags (p engine : Nat) (f : Flags) (x y : Nat) : (s.addFlags p engine f).hbm x y = s.hbm x y := by rfl

@[simp] theorem State.section_addDelivered (p engine : Nat) (d : Delivered) (x y : Nat) : (s.addDelivered p engine d).section x y = s.section x y := by rfl
@[simp] theorem State.ctx_addDelivered (p engine : Nat) (d : Delivered) (x : Nat) : (s.addDelivered p engine d).ctx x = s.ctx x := by rfl
@[simp] theorem State.jobOf_addDelivered (p engine : Nat) (d : Delivered) (x : Nat) : (s.addDelivered p engine d).jobOf x = s.jobOf x := by rfl
@[simp] theorem State.port_addDelivered (p engine : Nat) (d : Delivered) (x : Nat) : (s.addDelivered p engine d).port x = s.port x := by rfl
@[simp] theorem State.kvPage_addDelivered (p engine : Nat) (d : Delivered) (x : Nat) : (s.addDelivered p engine d).kvPage x = s.kvPage x := by rfl
@[simp] theorem State.obj_addDelivered (p engine : Nat) (d : Delivered) (x : Nat) : (s.addDelivered p engine d).obj x = s.obj x := by rfl
@[simp] theorem State.streamAt_addDelivered (p engine : Nat) (d : Delivered) (x : Nat) : (s.addDelivered p engine d).streamAt x = s.streamAt x := by rfl
@[simp] theorem State.cell_addDelivered (p engine : Nat) (d : Delivered) (x : PortKind) (y z : Nat) : (s.addDelivered p engine d).cell x y z = s.cell x y z := by rfl
@[simp] theorem State.notice_addDelivered (p engine : Nat) (d : Delivered) (x : Nat) : (s.addDelivered p engine d).notice x = s.notice x := by rfl
@[simp] theorem State.hbm_addDelivered (p engine : Nat) (d : Delivered) (x y : Nat) : (s.addDelivered p engine d).hbm x y = s.hbm x y := by rfl

@[simp] theorem State.section_vecBusy (p n : Nat) (x y : Nat) : (s.vecBusy p n).section x y = s.section x y := by rfl
@[simp] theorem State.core_vecBusy (p n : Nat) (x : Nat) : (s.vecBusy p n).core x = s.core x := by rfl
@[simp] theorem State.ctx_vecBusy (p n : Nat) (x : Nat) : (s.vecBusy p n).ctx x = s.ctx x := by rfl
@[simp] theorem State.jobOf_vecBusy (p n : Nat) (x : Nat) : (s.vecBusy p n).jobOf x = s.jobOf x := by rfl
@[simp] theorem State.port_vecBusy (p n : Nat) (x : Nat) : (s.vecBusy p n).port x = s.port x := by rfl
@[simp] theorem State.kvPage_vecBusy (p n : Nat) (x : Nat) : (s.vecBusy p n).kvPage x = s.kvPage x := by rfl
@[simp] theorem State.obj_vecBusy (p n : Nat) (x : Nat) : (s.vecBusy p n).obj x = s.obj x := by rfl
@[simp] theorem State.streamAt_vecBusy (p n : Nat) (x : Nat) : (s.vecBusy p n).streamAt x = s.streamAt x := by rfl
@[simp] theorem State.cell_vecBusy (p n : Nat) (x : PortKind) (y z : Nat) : (s.vecBusy p n).cell x y z = s.cell x y z := by rfl
@[simp] theorem State.notice_vecBusy (p n : Nat) (x : Nat) : (s.vecBusy p n).notice x = s.notice x := by rfl
@[simp] theorem State.hbm_vecBusy (p n : Nat) (x y : Nat) : (s.vecBusy p n).hbm x y = s.hbm x y := by rfl

@[simp] theorem State.reg_setCtx (n : Nat) (c : Ctx) (x : Nat) : (s.setCtx n c).reg x = s.reg x := by rfl
@[simp] theorem State.getF_setCtx (n : Nat) (c : Ctx) (x : Fld) : (s.setCtx n c).getF x = s.getF x := by rfl
@[simp] theorem State.getP_setCtx (n : Nat) (c : Ctx) (x : Nat) : (s.setCtx n c).getP x = s.getP x := by rfl
@[simp] theorem State.section_setCtx (n : Nat) (c : Ctx) (x y : Nat) : (s.setCtx n c).section x y = s.section x y := by rfl
@[simp] theorem State.core_setCtx (n : Nat) (c : Ctx) (x : Nat) : (s.setCtx n c).core x = s.core x := by rfl
@[simp] theorem State.port_setCtx (n : Nat) (c : Ctx) (x : Nat) : (s.setCtx n c).port x = s.port x := by rfl
@[simp] theorem State.kvPage_setCtx (n : Nat) (c : Ctx) (x : Nat) : (s.setCtx n c).kvPage x = s.kvPage x := by rfl
@[simp] theorem State.obj_setCtx (n : Nat) (c : Ctx) (x : Nat) : (s.setCtx n c).obj x = s.obj x := by rfl
@[simp] theorem State.streamAt_setCtx (n : Nat) (c : Ctx) (x : Nat) : (s.setCtx n c).streamAt x = s.streamAt x := by rfl
@[simp] theorem State.cell_setCtx (n : Nat) (c : Ctx) (x : PortKind) (y z : Nat) : (s.setCtx n c).cell x y z = s.cell x y z := by rfl
@[simp] theorem State.notice_setCtx (n : Nat) (c : Ctx) (x : Nat) : (s.setCtx n c).notice x = s.notice x := by rfl
@[simp] theorem State.hbm_setCtx (n : Nat) (c : Ctx) (x y : Nat) : (s.setCtx n c).hbm x y = s.hbm x y := by rfl

@[simp] theorem State.reg_setJob (j : Job) (x : Nat) : (s.setJob j).reg x = s.reg x := by rfl
@[simp] theorem State.getF_setJob (j : Job) (x : Fld) : (s.setJob j).getF x = s.getF x := by rfl
@[simp] theorem State.getP_setJob (j : Job) (x : Nat) : (s.setJob j).getP x = s.getP x := by rfl
@[simp] theorem State.section_setJob (j : Job) (x y : Nat) : (s.setJob j).section x y = s.section x y := by rfl
@[simp] theorem State.core_setJob (j : Job) (x : Nat) : (s.setJob j).core x = s.core x := by rfl
@[simp] theorem State.port_setJob (j : Job) (x : Nat) : (s.setJob j).port x = s.port x := by rfl
@[simp] theorem State.kvPage_setJob (j : Job) (x : Nat) : (s.setJob j).kvPage x = s.kvPage x := by rfl
@[simp] theorem State.obj_setJob (j : Job) (x : Nat) : (s.setJob j).obj x = s.obj x := by rfl
@[simp] theorem State.streamAt_setJob (j : Job) (x : Nat) : (s.setJob j).streamAt x = s.streamAt x := by rfl
@[simp] theorem State.cell_setJob (j : Job) (x : PortKind) (y z : Nat) : (s.setJob j).cell x y z = s.cell x y z := by rfl
@[simp] theorem State.notice_setJob (j : Job) (x : Nat) : (s.setJob j).notice x = s.notice x := by rfl
@[simp] theorem State.hbm_setJob (j : Job) (x y : Nat) : (s.setJob j).hbm x y = s.hbm x y := by rfl

@[simp] theorem State.reg_dropJob (uid : Nat) (x : Nat) : (s.dropJob uid).reg x = s.reg x := by rfl
@[simp] theorem State.getF_dropJob (uid : Nat) (x : Fld) : (s.dropJob uid).getF x = s.getF x := by rfl
@[simp] theorem State.getP_dropJob (uid : Nat) (x : Nat) : (s.dropJob uid).getP x = s.getP x := by rfl
@[simp] theorem State.section_dropJob (uid : Nat) (x y : Nat) : (s.dropJob uid).section x y = s.section x y := by rfl
@[simp] theorem State.core_dropJob (uid : Nat) (x : Nat) : (s.dropJob uid).core x = s.core x := by rfl
@[simp] theorem State.port_dropJob (uid : Nat) (x : Nat) : (s.dropJob uid).port x = s.port x := by rfl
@[simp] theorem State.kvPage_dropJob (uid : Nat) (x : Nat) : (s.dropJob uid).kvPage x = s.kvPage x := by rfl
@[simp] theorem State.obj_dropJob (uid : Nat) (x : Nat) : (s.dropJob uid).obj x = s.obj x := by rfl
@[simp] theorem State.streamAt_dropJob (uid : Nat) (x : Nat) : (s.dropJob uid).streamAt x = s.streamAt x := by rfl
@[simp] theorem State.cell_dropJob (uid : Nat) (x : PortKind) (y z : Nat) : (s.dropJob uid).cell x y z = s.cell x y z := by rfl
@[simp] theorem State.notice_dropJob (uid : Nat) (x : Nat) : (s.dropJob uid).notice x = s.notice x := by rfl
@[simp] theorem State.hbm_dropJob (uid : Nat) (x y : Nat) : (s.dropJob uid).hbm x y = s.hbm x y := by rfl

@[simp] theorem State.reg_setCell (c : Cell) (x : Nat) : (s.setCell c).reg x = s.reg x := by rfl
@[simp] theorem State.getF_setCell (c : Cell) (x : Fld) : (s.setCell c).getF x = s.getF x := by rfl
@[simp] theorem State.getP_setCell (c : Cell) (x : Nat) : (s.setCell c).getP x = s.getP x := by rfl
@[simp] theorem State.section_setCell (c : Cell) (x y : Nat) : (s.setCell c).section x y = s.section x y := by rfl
@[simp] theorem State.core_setCell (c : Cell) (x : Nat) : (s.setCell c).core x = s.core x := by rfl
@[simp] theorem State.ctx_setCell (c : Cell) (x : Nat) : (s.setCell c).ctx x = s.ctx x := by rfl
@[simp] theorem State.jobOf_setCell (c : Cell) (x : Nat) : (s.setCell c).jobOf x = s.jobOf x := by rfl
@[simp] theorem State.port_setCell (c : Cell) (x : Nat) : (s.setCell c).port x = s.port x := by rfl
@[simp] theorem State.kvPage_setCell (c : Cell) (x : Nat) : (s.setCell c).kvPage x = s.kvPage x := by rfl
@[simp] theorem State.obj_setCell (c : Cell) (x : Nat) : (s.setCell c).obj x = s.obj x := by rfl
@[simp] theorem State.streamAt_setCell (c : Cell) (x : Nat) : (s.setCell c).streamAt x = s.streamAt x := by rfl
@[simp] theorem State.notice_setCell (c : Cell) (x : Nat) : (s.setCell c).notice x = s.notice x := by rfl
@[simp] theorem State.hbm_setCell (c : Cell) (x y : Nat) : (s.setCell c).hbm x y = s.hbm x y := by rfl

@[simp] theorem State.reg_setKvPage (i : Nat) (p : KvPage) (x : Nat) : (s.setKvPage i p).reg x = s.reg x := by rfl
@[simp] theorem State.getF_setKvPage (i : Nat) (p : KvPage) (x : Fld) : (s.setKvPage i p).getF x = s.getF x := by rfl
@[simp] theorem State.getP_setKvPage (i : Nat) (p : KvPage) (x : Nat) : (s.setKvPage i p).getP x = s.getP x := by rfl
@[simp] theorem State.section_setKvPage (i : Nat) (p : KvPage) (x y : Nat) : (s.setKvPage i p).section x y = s.section x y := by rfl
@[simp] theorem State.core_setKvPage (i : Nat) (p : KvPage) (x : Nat) : (s.setKvPage i p).core x = s.core x := by rfl
@[simp] theorem State.ctx_setKvPage (i : Nat) (p : KvPage) (x : Nat) : (s.setKvPage i p).ctx x = s.ctx x := by rfl
@[simp] theorem State.jobOf_setKvPage (i : Nat) (p : KvPage) (x : Nat) : (s.setKvPage i p).jobOf x = s.jobOf x := by rfl
@[simp] theorem State.port_setKvPage (i : Nat) (p : KvPage) (x : Nat) : (s.setKvPage i p).port x = s.port x := by rfl
@[simp] theorem State.obj_setKvPage (i : Nat) (p : KvPage) (x : Nat) : (s.setKvPage i p).obj x = s.obj x := by rfl
@[simp] theorem State.streamAt_setKvPage (i : Nat) (p : KvPage) (x : Nat) : (s.setKvPage i p).streamAt x = s.streamAt x := by rfl
@[simp] theorem State.cell_setKvPage (i : Nat) (p : KvPage) (x : PortKind) (y z : Nat) : (s.setKvPage i p).cell x y z = s.cell x y z := by rfl
@[simp] theorem State.notice_setKvPage (i : Nat) (p : KvPage) (x : Nat) : (s.setKvPage i p).notice x = s.notice x := by rfl
@[simp] theorem State.hbm_setKvPage (i : Nat) (p : KvPage) (x y : Nat) : (s.setKvPage i p).hbm x y = s.hbm x y := by rfl

@[simp] theorem State.reg_setObj (o : TierObj) (x : Nat) : (s.setObj o).reg x = s.reg x := by rfl
@[simp] theorem State.getF_setObj (o : TierObj) (x : Fld) : (s.setObj o).getF x = s.getF x := by rfl
@[simp] theorem State.getP_setObj (o : TierObj) (x : Nat) : (s.setObj o).getP x = s.getP x := by rfl
@[simp] theorem State.section_setObj (o : TierObj) (x y : Nat) : (s.setObj o).section x y = s.section x y := by rfl
@[simp] theorem State.core_setObj (o : TierObj) (x : Nat) : (s.setObj o).core x = s.core x := by rfl
@[simp] theorem State.ctx_setObj (o : TierObj) (x : Nat) : (s.setObj o).ctx x = s.ctx x := by rfl
@[simp] theorem State.jobOf_setObj (o : TierObj) (x : Nat) : (s.setObj o).jobOf x = s.jobOf x := by rfl
@[simp] theorem State.port_setObj (o : TierObj) (x : Nat) : (s.setObj o).port x = s.port x := by rfl
@[simp] theorem State.kvPage_setObj (o : TierObj) (x : Nat) : (s.setObj o).kvPage x = s.kvPage x := by rfl
@[simp] theorem State.streamAt_setObj (o : TierObj) (x : Nat) : (s.setObj o).streamAt x = s.streamAt x := by rfl
@[simp] theorem State.cell_setObj (o : TierObj) (x : PortKind) (y z : Nat) : (s.setObj o).cell x y z = s.cell x y z := by rfl
@[simp] theorem State.notice_setObj (o : TierObj) (x : Nat) : (s.setObj o).notice x = s.notice x := by rfl
@[simp] theorem State.hbm_setObj (o : TierObj) (x y : Nat) : (s.setObj o).hbm x y = s.hbm x y := by rfl

@[simp] theorem State.reg_setPort (p : Nat) (a : Port) (x : Nat) : (s.setPort p a).reg x = s.reg x := by rfl
@[simp] theorem State.getF_setPort (p : Nat) (a : Port) (x : Fld) : (s.setPort p a).getF x = s.getF x := by rfl
@[simp] theorem State.getP_setPort (p : Nat) (a : Port) (x : Nat) : (s.setPort p a).getP x = s.getP x := by rfl
@[simp] theorem State.section_setPort (p : Nat) (a : Port) (x y : Nat) : (s.setPort p a).section x y = s.section x y := by rfl
@[simp] theorem State.core_setPort (p : Nat) (a : Port) (x : Nat) : (s.setPort p a).core x = s.core x := by rfl
@[simp] theorem State.ctx_setPort (p : Nat) (a : Port) (x : Nat) : (s.setPort p a).ctx x = s.ctx x := by rfl
@[simp] theorem State.jobOf_setPort (p : Nat) (a : Port) (x : Nat) : (s.setPort p a).jobOf x = s.jobOf x := by rfl
@[simp] theorem State.kvPage_setPort (p : Nat) (a : Port) (x : Nat) : (s.setPort p a).kvPage x = s.kvPage x := by rfl
@[simp] theorem State.obj_setPort (p : Nat) (a : Port) (x : Nat) : (s.setPort p a).obj x = s.obj x := by rfl
@[simp] theorem State.streamAt_setPort (p : Nat) (a : Port) (x : Nat) : (s.setPort p a).streamAt x = s.streamAt x := by rfl
@[simp] theorem State.cell_setPort (p : Nat) (a : Port) (x : PortKind) (y z : Nat) : (s.setPort p a).cell x y z = s.cell x y z := by rfl
@[simp] theorem State.notice_setPort (p : Nat) (a : Port) (x : Nat) : (s.setPort p a).notice x = s.notice x := by rfl
@[simp] theorem State.hbm_setPort (p : Nat) (a : Port) (x y : Nat) : (s.setPort p a).hbm x y = s.hbm x y := by rfl

@[simp] theorem State.reg_setSync (o : SyncObj) (x : Nat) : (s.setSync o).reg x = s.reg x := by rfl
@[simp] theorem State.getF_setSync (o : SyncObj) (x : Fld) : (s.setSync o).getF x = s.getF x := by rfl
@[simp] theorem State.getP_setSync (o : SyncObj) (x : Nat) : (s.setSync o).getP x = s.getP x := by rfl
@[simp] theorem State.section_setSync (o : SyncObj) (x y : Nat) : (s.setSync o).section x y = s.section x y := by rfl
@[simp] theorem State.core_setSync (o : SyncObj) (x : Nat) : (s.setSync o).core x = s.core x := by rfl
@[simp] theorem State.ctx_setSync (o : SyncObj) (x : Nat) : (s.setSync o).ctx x = s.ctx x := by rfl
@[simp] theorem State.jobOf_setSync (o : SyncObj) (x : Nat) : (s.setSync o).jobOf x = s.jobOf x := by rfl
@[simp] theorem State.kvPage_setSync (o : SyncObj) (x : Nat) : (s.setSync o).kvPage x = s.kvPage x := by rfl
@[simp] theorem State.obj_setSync (o : SyncObj) (x : Nat) : (s.setSync o).obj x = s.obj x := by rfl
@[simp] theorem State.streamAt_setSync (o : SyncObj) (x : Nat) : (s.setSync o).streamAt x = s.streamAt x := by rfl
@[simp] theorem State.cell_setSync (o : SyncObj) (x : PortKind) (y z : Nat) : (s.setSync o).cell x y z = s.cell x y z := by rfl
@[simp] theorem State.notice_setSync (o : SyncObj) (x : Nat) : (s.setSync o).notice x = s.notice x := by rfl
@[simp] theorem State.hbm_setSync (o : SyncObj) (x y : Nat) : (s.setSync o).hbm x y = s.hbm x y := by rfl

@[simp] theorem State.reg_setStream (v : Stream) (x : Nat) : (s.setStream v).reg x = s.reg x := by rfl
@[simp] theorem State.getF_setStream (v : Stream) (x : Fld) : (s.setStream v).getF x = s.getF x := by rfl
@[simp] theorem State.getP_setStream (v : Stream) (x : Nat) : (s.setStream v).getP x = s.getP x := by rfl
@[simp] theorem State.section_setStream (v : Stream) (x y : Nat) : (s.setStream v).section x y = s.section x y := by rfl
@[simp] theorem State.core_setStream (v : Stream) (x : Nat) : (s.setStream v).core x = s.core x := by rfl
@[simp] theorem State.ctx_setStream (v : Stream) (x : Nat) : (s.setStream v).ctx x = s.ctx x := by rfl
@[simp] theorem State.jobOf_setStream (v : Stream) (x : Nat) : (s.setStream v).jobOf x = s.jobOf x := by rfl
@[simp] theorem State.port_setStream (v : Stream) (x : Nat) : (s.setStream v).port x = s.port x := by rfl
@[simp] theorem State.kvPage_setStream (v : Stream) (x : Nat) : (s.setStream v).kvPage x = s.kvPage x := by rfl
@[simp] theorem State.obj_setStream (v : Stream) (x : Nat) : (s.setStream v).obj x = s.obj x := by rfl
@[simp] theorem State.cell_setStream (v : Stream) (x : PortKind) (y z : Nat) : (s.setStream v).cell x y z = s.cell x y z := by rfl
@[simp] theorem State.notice_setStream (v : Stream) (x : Nat) : (s.setStream v).notice x = s.notice x := by rfl
@[simp] theorem State.hbm_setStream (v : Stream) (x y : Nat) : (s.setStream v).hbm x y = s.hbm x y := by rfl

end Sys2Proof.Machine
end

