-- ==== Sys2Proof/Laws/Store.lean ====
section
/-! SUPPORT. Sparse stores: what a read gives after each update, and that every update keeps the canonical form. -/

namespace Sys2Proof.Machine

variable {α : Type} {d : Nat → α} {st : Store α}

/-! ## Reads -/

theorem storeGet_filter (p : Nat × α → Bool) (k : Nat) (h : ∀ v, p (k, v) = true) :
    storeGet d (st.filter p) k = storeGet d st k := by
  induction st with
  | nil => rfl
  | cons e t ih =>
    obtain ⟨j, v⟩ := e
    by_cases hp : p (j, v) = true
    · simp [hp, storeGet, ih]
    · by_cases hj : j = k
      · subst hj; exact absurd (h v) hp
      · simp [hp, storeGet, hj, ih]

theorem storeGet_filter_out (p : Nat × α → Bool) (k : Nat) (h : ∀ v, p (k, v) = false) :
    storeGet d (st.filter p) k = d k := by
  induction st with
  | nil => rfl
  | cons e t ih =>
    obtain ⟨j, v⟩ := e
    by_cases hp : p (j, v) = true
    · by_cases hj : j = k
      · subst hj; simp [h v] at hp
      · simp [hp, storeGet, hj, ih]
    · simp [hp, ih]

theorem storeGet_storeErase (k j : Nat) :
    storeGet d (storeErase st k) j = if j = k then d k else storeGet d st j := by
  unfold storeErase
  by_cases h : j = k
  · subst h; simp [storeGet_filter_out]
  · simp [h, storeGet_filter]

theorem storeGet_storeInsert (k j : Nat) (v : α) :
    storeGet d (storeInsert st k v) j = if j = k then v else storeGet d st j := by
  induction st with
  | nil => simp [storeInsert, storeGet, eq_comm]
  | cons e t ih =>
    obtain ⟨i, w⟩ := e
    simp only [storeInsert]
    split
    · simp only [storeGet]; grind
    · split <;> simp only [storeGet] <;> grind

/-- A write is read back; every other key reads as before. -/
theorem storeGet_storeSet [DecidableEq α] (k j : Nat) (v : α) :
    storeGet d (storeSet d st k v) j = if j = k then v else storeGet d st j := by
  unfold storeSet
  split
  · rw [storeGet_storeErase]; grind
  · exact storeGet_storeInsert k j v

theorem storeGet_storeRun [DecidableEq α] (k j : Nat) (vs : List α) (t : Store α) :
    storeGet d (storeRun d k vs ++ t) j = if h : k ≤ j ∧ j < k + vs.length then
      (if vs[j - k]'(by omega) = d j then storeGet d t j else vs[j - k]'(by omega)) else storeGet d t j := by
  induction vs generalizing k with
  | nil =>
    rw [dif_neg (by simp only [List.length_nil]; omega)]
    rfl
  | cons v vs ih =>
    simp only [storeRun]
    split
    · rename_i hv
      rw [ih]
      by_cases hj : j = k
      · subst hj
        rw [dif_neg (by omega), dif_pos ⟨Nat.le_refl _, by simp only [List.length_cons]; omega⟩]
        simp only [Nat.sub_self, List.getElem_cons_zero, hv, if_true]
      · by_cases hr : k ≤ j ∧ j < k + (v :: vs).length
        · have hr' := hr
          simp only [List.length_cons] at hr'
          have h2 : j - k = (j - (k + 1)) + 1 := by omega
          rw [dif_pos hr, dif_pos (by omega)]
          simp only [h2, List.getElem_cons_succ]
        · have hr' := hr
          simp only [List.length_cons] at hr'
          rw [dif_neg hr, dif_neg (by omega)]
    · rename_i hv
      simp only [List.cons_append, storeGet]
      rw [ih]
      by_cases hj : j = k
      · subst hj
        rw [if_pos rfl, dif_pos ⟨Nat.le_refl _, by simp only [List.length_cons]; omega⟩]
        simp only [Nat.sub_self, List.getElem_cons_zero, hv, if_false]
      · have hkj : ¬ k = j := fun e => hj e.symm
        rw [if_neg hkj]
        by_cases hr : k ≤ j ∧ j < k + (v :: vs).length
        · have hr' := hr
          simp only [List.length_cons] at hr'
          have h2 : j - k = (j - (k + 1)) + 1 := by omega
          rw [dif_pos hr, dif_pos (by omega)]
          simp only [h2, List.getElem_cons_succ]
        · have hr' := hr
          simp only [List.length_cons] at hr'
          rw [dif_neg hr, dif_neg (by omega)]

theorem storeGet_append_out (t : Store α) (k : Nat) (h : ∀ e ∈ st, e.1 ≠ k) :
    storeGet d (st ++ t) k = storeGet d t k := by
  induction st with
  | nil => rfl
  | cons e s ih =>
    obtain ⟨j, v⟩ := e
    have : j ≠ k := h (j, v) (by simp)
    simp [storeGet, this, ih (fun e he => h e (by simp [he]))]

theorem storeGet_append_in (t : Store α) (k : Nat) (h : ∀ e ∈ t, e.1 ≠ k) :
    storeGet d (st ++ t) k = storeGet d st k := by
  induction st with
  | nil =>
    have := storeGet_append_out (d := d) (st := t) [] k h
    simpa [storeGet] using this
  | cons e s ih => obtain ⟨j, v⟩ := e; simp [storeGet, ih]

/-- A run of values is read back; every key outside it reads as before. -/
theorem storeGet_storeSetRun [DecidableEq α] (k j : Nat) (vs : List α) :
    storeGet d (storeSetRun d st k vs) j =
      if h : k ≤ j ∧ j < k + vs.length then vs[j - k]'(by omega) else storeGet d st j := by
  unfold storeSetRun
  have lo : ∀ e ∈ st.filter (fun e => e.1 < k), e.1 < k := by intro e he; simpa using (List.mem_filter.mp he).2
  have hi : ∀ e ∈ st.filter (fun e => k + vs.length ≤ e.1), k + vs.length ≤ e.1 := by
    intro e he; simpa using (List.mem_filter.mp he).2
  rw [List.append_assoc]
  by_cases h1 : j < k
  · have hn : ¬(k ≤ j ∧ j < k + vs.length) := by omega
    simp only [hn, dite_false]
    rw [storeGet_append_in]
    · exact storeGet_filter _ _ (by simp [h1])
    · intro e he
      rcases List.mem_append.mp he with h | h
      · have hk : ∀ (k : Nat) (vs : List α), ∀ e ∈ storeRun d k vs, k ≤ e.1 := by
          intro k vs
          induction vs generalizing k with
          | nil => simp [storeRun]
          | cons v vs ih =>
            simp only [storeRun]
            split
            · intro e he; have := ih _ e he; omega
            · intro e he
              rcases List.mem_cons.mp he with rfl | he
              · simp
              · have := ih _ e he; omega
        have := hk _ _ e h; omega
      · have := hi e h; omega
  · rw [storeGet_append_out _ _ (fun e he => by have := lo e he; omega), storeGet_storeRun]
    by_cases h2 : j < k + vs.length
    · have h : k ≤ j ∧ j < k + vs.length := by omega
      simp only [h, and_self, dite_true]
      split
      · rename_i hv
        rw [hv]
        exact storeGet_filter_out _ _ (by simp [h2])
      · rfl
    · have h : ¬(k ≤ j ∧ j < k + vs.length) := by omega
      simp only [h, dite_false]
      exact storeGet_filter _ _ (by simp; omega)

theorem storeGet_storeClear (k j n : Nat) :
    storeGet d (storeClear st k n) j = if k ≤ j ∧ j < k + n then d j else storeGet d st j := by
  unfold storeClear
  have lo : ∀ e ∈ st.filter (fun e => e.1 < k), e.1 < k := by intro e he; simpa using (List.mem_filter.mp he).2
  have hi : ∀ e ∈ st.filter (fun e => k + n ≤ e.1), k + n ≤ e.1 := by intro e he; simpa using (List.mem_filter.mp he).2
  by_cases h1 : j < k
  · rw [storeGet_append_in _ _ (fun e he => by have := hi e he; omega), storeGet_filter _ _ (by simp [h1])]
    simp; omega
  · rw [storeGet_append_out _ _ (fun e he => by have := lo e he; omega)]
    by_cases h2 : j < k + n
    · rw [storeGet_filter_out _ _ (by simp [h2])]; simp; omega
    · rw [storeGet_filter _ _ (by simp; omega)]; simp; omega

/-! ## The canonical form -/

theorem storeRising_mono {lo lo' : Nat} (h : lo' ≤ lo) (hr : storeRising lo st = true) : storeRising lo' st = true := by
  cases st with
  | nil => rfl
  | cons e t =>
    obtain ⟨j, v⟩ := e
    simp only [storeRising, Bool.and_eq_true, decide_eq_true_eq] at *
    exact ⟨by omega, hr.2⟩

theorem storeRising_above {lo m : Nat} (hr : storeRising lo st = true) (h : ∀ e ∈ st, m ≤ e.1) : storeRising m st = true := by
  cases st with
  | nil => rfl
  | cons e t =>
    obtain ⟨j, v⟩ := e
    have := h (j, v) (by simp)
    simp only [storeRising, Bool.and_eq_true, decide_eq_true_eq] at *
    exact ⟨this, hr.2⟩

theorem storeRising_le {lo : Nat} (hr : storeRising lo st = true) : ∀ e ∈ st, lo ≤ e.1 := by
  induction st generalizing lo with
  | nil => simp
  | cons e t ih =>
    obtain ⟨j, v⟩ := e
    simp [storeRising] at hr
    intro e he
    rcases List.mem_cons.mp he with rfl | he
    · exact hr.1
    · have := ih hr.2 e he; omega

theorem storeRising_filter (p : Nat × α → Bool) {lo : Nat} (hr : storeRising lo st = true) :
    storeRising lo (st.filter p) = true := by
  induction st generalizing lo with
  | nil => rfl
  | cons e t ih =>
    obtain ⟨j, v⟩ := e
    simp [storeRising] at hr
    simp only [List.filter_cons]
    split
    · simp [storeRising, hr.1, ih hr.2]
    · exact ih (storeRising_mono (by omega) hr.2)

theorem storeRising_append {lo m : Nat} {t : Store α} (hr : storeRising lo st = true) (hlt : ∀ e ∈ st, e.1 < m) (hm : lo ≤ m)
    (ht : storeRising m t = true) : storeRising lo (st ++ t) = true := by
  induction st generalizing lo with
  | nil => exact storeRising_mono hm ht
  | cons e s ih =>
    obtain ⟨j, v⟩ := e
    simp [storeRising] at hr
    have hj : j < m := hlt (j, v) (by simp)
    simp only [List.cons_append, storeRising, Bool.and_eq_true, decide_eq_true_eq]
    exact ⟨hr.1, ih hr.2 (fun e he => hlt e (by simp [he])) (by omega)⟩

theorem storeRising_insert {lo k : Nat} (v : α) (hk : lo ≤ k) (hr : storeRising lo st = true) :
    storeRising lo (storeInsert st k v) = true := by
  induction st generalizing lo with
  | nil => simp [storeInsert, storeRising, hk]
  | cons e t ih =>
    obtain ⟨j, w⟩ := e
    simp [storeRising] at hr
    simp only [storeInsert]
    split
    · simp only [storeRising, Bool.and_eq_true, decide_eq_true_eq]
      exact ⟨hk, by omega, hr.2⟩
    · split
      · rename_i h; subst h; simp [storeRising, hr]
      · simp only [storeRising, Bool.and_eq_true, decide_eq_true_eq]
        exact ⟨hr.1, ih (by omega) hr.2⟩

theorem storeRising_run [DecidableEq α] (k : Nat) (vs : List α) :
    storeRising k (storeRun d k vs) = true ∧ ∀ e ∈ storeRun d k vs, e.1 < k + vs.length := by
  induction vs generalizing k with
  | nil => simp [storeRun, storeRising]
  | cons v vs ih =>
    obtain ⟨h1, h2⟩ := ih (k + 1)
    simp only [storeRun]
    split
    · exact ⟨storeRising_mono (by omega) h1, fun e he => by have := h2 e he; simp; omega⟩
    · refine ⟨by simp [storeRising, h1], fun e he => ?_⟩
      rcases List.mem_cons.mp he with rfl | he
      · simp
      · have := h2 e he; simp; omega

/-- No entry equal to its default. -/
def storeListed [DecidableEq α] (d : Nat → α) (st : Store α) : Bool := st.all fun (k, v) => v != d k

theorem storeWf_iff [DecidableEq α] : storeWf d st = true ↔ storeRising 0 st = true ∧ storeListed d st = true := by
  simp [storeWf, storeListed]

theorem storeListed_filter [DecidableEq α] (p : Nat × α → Bool) (h : storeListed d st = true) : storeListed d (st.filter p) = true := by
  simp only [storeListed, List.all_eq_true] at *
  intro e he; exact h e (List.mem_filter.mp he).1

theorem storeListed_append [DecidableEq α] {t : Store α} (h : storeListed d st = true) (ht : storeListed d t = true) :
    storeListed d (st ++ t) = true := by
  simp [storeListed] at *; exact ⟨h, ht⟩

theorem storeListed_insert [DecidableEq α] {k : Nat} {v : α} (hv : v ≠ d k) (h : storeListed d st = true) :
    storeListed d (storeInsert st k v) = true := by
  induction st with
  | nil => simp [storeInsert, storeListed, hv]
  | cons e t ih =>
    obtain ⟨j, w⟩ := e
    simp only [storeListed, List.all_cons, Bool.and_eq_true] at h ih
    simp only [storeInsert]
    split
    · simp only [storeListed, List.all_cons, Bool.and_eq_true]; exact ⟨by simpa using hv, h⟩
    · split
      · simp only [storeListed, List.all_cons, Bool.and_eq_true]; exact ⟨by simpa using hv, h.2⟩
      · simp only [storeListed, List.all_cons, Bool.and_eq_true]; exact ⟨h.1, ih h.2⟩

theorem storeListed_run [DecidableEq α] (k : Nat) (vs : List α) : storeListed d (storeRun d k vs) = true := by
  induction vs generalizing k with
  | nil => rfl
  | cons v vs ih =>
    simp only [storeRun]
    split
    · exact ih _
    · rename_i h; simp only [storeListed, List.all_cons, Bool.and_eq_true]; exact ⟨by simpa using h, ih _⟩

@[simp] theorem storeWf_nil [DecidableEq α] : storeWf d ([] : Store α) = true := rfl

theorem storeWf_filter [DecidableEq α] (p : Nat × α → Bool) (h : storeWf d st = true) : storeWf d (st.filter p) = true := by
  rw [storeWf_iff] at *
  exact ⟨storeRising_filter p h.1, storeListed_filter p h.2⟩

theorem storeWf_set [DecidableEq α] (k : Nat) (v : α) (h : storeWf d st = true) : storeWf d (storeSet d st k v) = true := by
  unfold storeSet
  split
  · exact storeWf_filter _ h
  · rename_i hv
    rw [storeWf_iff] at *
    exact ⟨storeRising_insert v (by omega) h.1, storeListed_insert hv h.2⟩

theorem storeWf_setRun [DecidableEq α] (k : Nat) (vs : List α) (h : storeWf d st = true) :
    storeWf d (storeSetRun d st k vs) = true := by
  rw [storeWf_iff] at *
  have hr := storeRising_run (d := d) k vs
  have hi : storeRising (k + vs.length) (st.filter (fun e => k + vs.length ≤ e.1)) = true :=
    storeRising_above (storeRising_filter _ h.1) (by intro e he; simpa using (List.mem_filter.mp he).2)
  refine ⟨?_, storeListed_append (storeListed_append (storeListed_filter _ h.2) (storeListed_run k vs)) (storeListed_filter _ h.2)⟩
  have hlo : storeRising 0 (st.filter (fun e => e.1 < k)) = true := storeRising_filter _ h.1
  have hlt : ∀ e ∈ st.filter (fun e => e.1 < k), e.1 < k := by intro e he; simpa using (List.mem_filter.mp he).2
  unfold storeSetRun
  have h2 := storeRising_append hlo hlt (Nat.zero_le _) hr.1
  exact storeRising_append h2 (fun e he => by
    rcases List.mem_append.mp he with he | he
    · have := hlt e he; omega
    · exact hr.2 e he) (by omega) hi

theorem storeWf_clear [DecidableEq α] (k n : Nat) (h : storeWf d st = true) : storeWf d (storeClear st k n) = true := by
  have e : storeClear st k n = st.filter (fun e => e.1 < k) ++ st.filter (fun e => k + n ≤ e.1) := rfl
  rw [storeWf_iff] at *
  refine ⟨?_, by rw [e]; exact storeListed_append (storeListed_filter _ h.2) (storeListed_filter _ h.2)⟩
  rw [e]
  have hlo : storeRising 0 (st.filter (fun e => e.1 < k)) = true := storeRising_filter _ h.1
  have hlt : ∀ e ∈ st.filter (fun e => e.1 < k), e.1 < k := by intro e he; simpa using (List.mem_filter.mp he).2
  exact storeRising_append hlo hlt (Nat.zero_le _) (storeRising_above (storeRising_filter _ h.1) (by
    intro e he
    have := (List.mem_filter.mp he).2
    simp at this; omega))

theorem storeWf_paste [DecidableEq α] (dest : Nat) (src : Store α) (k n : Nat) (h : storeWf d st = true) :
    storeWf d (storePaste d st dest src k n) = true := by
  unfold storePaste
  have h' := storeWf_clear dest n h
  generalize storeClear st dest n = m at *
  induction src generalizing m with
  | nil => exact h'
  | cons e t ih =>
    simp only [List.foldl_cons]
    split
    · exact ih _ (storeWf_set _ _ h')
    · exact ih _ h'

end Sys2Proof.Machine
end

