-- ==== Sys2Proof/Laws/Ops.lean ====
section
/-! SUPPORT. What the shared operations do, said once: a read after a write of a register, a field, a pair, a core or a context;
interrupts; host writes; log entries; and how a tile instruction issues. -/

namespace Sys2Proof.Machine

open Sys2Proof

variable (s : State)

/-! ## Bit fields -/

/-- A field of the machine's tables: its bits lie in the word, the low one below the high one. -/
abbrev Fld.ok (f : Fld) : Prop := f.lo ≤ f.hi ∧ f.hi < 32

theorem bits_le (v hi lo : Nat) : bits v hi lo * 2 ^ lo ≤ v := by
  unfold bits
  calc v / 2 ^ lo % 2 ^ (hi + 1 - lo) * 2 ^ lo ≤ v / 2 ^ lo * 2 ^ lo := Nat.mul_le_mul_right _ (Nat.mod_le _ _)
    _ ≤ v := Nat.div_mul_le_self v _

/-- Written low, middle and high, a number's middle field is replaced alone. -/
theorem putBits_split (v hi lo f : Nat) (h : lo ≤ hi + 1) :
    putBits v hi lo f = v % 2 ^ lo + 2 ^ lo * (f % 2 ^ (hi + 1 - lo)) + 2 ^ (hi + 1) * (v / 2 ^ (hi + 1)) := by
  have hp : 2 ^ (hi + 1) = 2 ^ lo * 2 ^ (hi + 1 - lo) := by rw [← Nat.pow_add]; congr 1; omega
  have hv : v = v % 2 ^ lo + 2 ^ lo * (v / 2 ^ lo % 2 ^ (hi + 1 - lo)) + 2 ^ (hi + 1) * (v / 2 ^ (hi + 1)) := by
    have h1 := Nat.mod_add_div v (2 ^ lo)
    have h2 := Nat.mod_add_div (v / 2 ^ lo) (2 ^ (hi + 1 - lo))
    rw [Nat.div_div_eq_div_mul, ← hp] at h2
    calc v = v % 2 ^ lo + 2 ^ lo * (v / 2 ^ lo) := h1.symm
      _ = v % 2 ^ lo + 2 ^ lo * (v / 2 ^ lo % 2 ^ (hi + 1 - lo) + 2 ^ (hi + 1 - lo) * (v / 2 ^ (hi + 1))) := by rw [h2]
      _ = _ := by rw [Nat.mul_add, ← Nat.mul_assoc, ← hp, Nat.add_assoc]
  have hb : bits v hi lo * 2 ^ lo = 2 ^ lo * (v / 2 ^ lo % 2 ^ (hi + 1 - lo)) := Nat.mul_comm _ _
  unfold putBits
  rw [hb, Nat.mul_comm (f % _) (2 ^ lo)]
  generalize 2 ^ lo * (v / 2 ^ lo % 2 ^ (hi + 1 - lo)) = m at *
  generalize 2 ^ lo * (f % 2 ^ (hi + 1 - lo)) = n at *
  omega

theorem putBits_lt (v hi lo f : Nat) (h : lo ≤ hi + 1) (hv : v < 2 ^ 32) (hh : hi < 32) : putBits v hi lo f < 2 ^ 32 := by
  have hp : 2 ^ (hi + 1) = 2 ^ lo * 2 ^ (hi + 1 - lo) := by rw [← Nat.pow_add]; congr 1; omega
  rw [putBits_split v hi lo f h]
  have h1 : v % 2 ^ lo < 2 ^ lo := Nat.mod_lt _ (Nat.two_pow_pos _)
  have h2 : f % 2 ^ (hi + 1 - lo) < 2 ^ (hi + 1 - lo) := Nat.mod_lt _ (Nat.two_pow_pos _)
  have h3 : 2 ^ lo * (f % 2 ^ (hi + 1 - lo)) + 2 ^ lo ≤ 2 ^ (hi + 1) := by
    rw [hp, ← Nat.mul_succ]; exact Nat.mul_le_mul_left _ h2
  have h5 : (2 : Nat) ^ 32 = 2 ^ (hi + 1) * 2 ^ (31 - hi) := by rw [← Nat.pow_add]; congr 1; omega
  have h4 : v / 2 ^ (hi + 1) < 2 ^ (31 - hi) := by
    rw [Nat.div_lt_iff_lt_mul (Nat.two_pow_pos _), Nat.mul_comm, ← h5]; exact hv
  have h6 : 2 ^ (hi + 1) * (v / 2 ^ (hi + 1)) + 2 ^ (hi + 1) ≤ 2 ^ 32 := by
    rw [h5, ← Nat.mul_succ]; exact Nat.mul_le_mul_left _ h4
  omega

/-- The replaced field reads as what was put there. -/
theorem bits_putBits (v hi lo f : Nat) (h : lo ≤ hi + 1) : bits (putBits v hi lo f) hi lo = f % 2 ^ (hi + 1 - lo) := by
  have hp : 2 ^ (hi + 1) = 2 ^ lo * 2 ^ (hi + 1 - lo) := by rw [← Nat.pow_add]; congr 1; omega
  rw [putBits_split v hi lo f h]
  unfold bits
  rw [hp, Nat.mul_assoc, Nat.add_assoc, ← Nat.mul_add, Nat.add_mul_div_left _ _ (Nat.two_pow_pos _),
    Nat.div_eq_of_lt (Nat.mod_lt _ (Nat.two_pow_pos _)), Nat.zero_add, Nat.add_mul_mod_self_left, Nat.mod_mod]

/-- A field below the replaced one reads as before. -/
theorem bits_putBits_below (v hi lo f a b : Nat) (h : lo ≤ hi + 1) (ha : a < lo) (hb : b ≤ a) :
    bits (putBits v hi lo f) a b = bits v a b := by
  have hp : 2 ^ (hi + 1) = 2 ^ lo * 2 ^ (hi + 1 - lo) := by rw [← Nat.pow_add]; congr 1; omega
  have hm : ∀ x : Nat, bits x a b = bits (x % 2 ^ lo) a b := by
    intro x
    have hq : 2 ^ lo = 2 ^ b * (2 ^ (a + 1 - b) * 2 ^ (lo - (a + 1))) := by
      rw [← Nat.pow_add, ← Nat.pow_add]; congr 1; omega
    unfold bits
    rw [hq, Nat.mod_mul_right_div_self, Nat.mod_mul_right_mod]
  rw [hm, hm v]
  congr 1
  rw [putBits_split v hi lo f h, hp, Nat.mul_assoc, Nat.add_assoc, ← Nat.mul_add, Nat.add_mul_mod_self_left, Nat.mod_mod]

/-- A field above the replaced one reads as before. -/
theorem bits_putBits_above (v hi lo f a b : Nat) (h : lo ≤ hi + 1) (hb : hi < b) :
    bits (putBits v hi lo f) a b = bits v a b := by
  have hp : 2 ^ (hi + 1) = 2 ^ lo * 2 ^ (hi + 1 - lo) := by rw [← Nat.pow_add]; congr 1; omega
  have hx : putBits v hi lo f / 2 ^ (hi + 1) = v / 2 ^ (hi + 1) := by
    rw [putBits_split v hi lo f h, Nat.add_mul_div_left _ _ (Nat.two_pow_pos _)]
    have h1 : v % 2 ^ lo < 2 ^ lo := Nat.mod_lt _ (Nat.two_pow_pos _)
    have h3 : 2 ^ lo * (f % 2 ^ (hi + 1 - lo)) + 2 ^ lo ≤ 2 ^ (hi + 1) := by
      rw [hp, ← Nat.mul_succ]; exact Nat.mul_le_mul_left _ (Nat.mod_lt _ (Nat.two_pow_pos _))
    rw [Nat.div_eq_of_lt (by omega), Nat.zero_add]
  have hd : ∀ x : Nat, x / 2 ^ b = x / 2 ^ (hi + 1) / 2 ^ (b - (hi + 1)) := by
    intro x; rw [Nat.div_div_eq_div_mul, ← Nat.pow_add]; congr 2; omega
  unfold bits
  rw [hd, hx, ← hd]

/-! ## Registers -/

theorem State.reg_setReg (a b : Nat) (v : Word) : (s.setReg a v).reg b = if b = a then v else s.reg b := by
  simp [State.reg, State.setReg, storeGet_storeSet]

@[simp] theorem State.reg_setReg_same (a : Nat) (v : Word) : (s.setReg a v).reg a = v := by simp [State.reg_setReg]

theorem State.reg_setReg_other {a b : Nat} (v : Word) (h : b ≠ a) : (s.setReg a v).reg b = s.reg b := by
  simp [State.reg_setReg, h]

theorem State.reg_of_regs {s t : State} (h : t.regs = s.regs) (a : Nat) : t.reg a = s.reg a := by simp [State.reg, h]

theorem State.getF_of_regs {s t : State} (h : t.regs = s.regs) (f : Fld) : t.getF f = s.getF f := by simp [State.getF, State.reg, h]

theorem State.reg_putF_other {f : Fld} {b : Nat} (v : Nat) (h : b ≠ f.off) : (s.putF f v).reg b = s.reg b := by
  simp [State.putF, State.reg_setReg, h]

theorem State.getF_setReg_other {f : Fld} {a : Nat} (v : Word) (h : f.off ≠ a) : (s.setReg a v).getF f = s.getF f := by
  simp [State.getF, State.reg_setReg, h]

theorem State.getF_putF_same {f : Fld} (v : Nat) (h : f.ok) : (s.putF f v).getF f = v % 2 ^ (f.hi + 1 - f.lo) := by
  have hl := putBits_lt (s.reg f.off).toNat f.hi f.lo v (by have := h.1; omega) (s.reg f.off).isLt h.2
  simp only [State.getF, State.putF, State.reg_setReg_same, BitVec.toNat_ofNat, Nat.mod_eq_of_lt hl]
  exact bits_putBits _ _ _ _ (by have := h.1; omega)

theorem State.getF_putF_off {f g : Fld} (v : Nat) (h : f.off ≠ g.off) : (s.putF g v).getF f = s.getF f := by
  simp [State.getF, State.putF, State.reg_setReg, h]

theorem State.getF_putF_apart {f g : Fld} (v : Nat) (hg : g.ok) (hf : f.lo ≤ f.hi) (h : f.hi < g.lo ∨ g.hi < f.lo) :
    (s.putF g v).getF f = s.getF f := by
  by_cases ho : f.off = g.off
  · have hl := putBits_lt (s.reg g.off).toNat g.hi g.lo v (by have := hg.1; omega) (s.reg g.off).isLt hg.2
    simp only [State.getF, State.putF, ho, State.reg_setReg_same, BitVec.toNat_ofNat, Nat.mod_eq_of_lt hl]
    rcases h with h | h
    · exact bits_putBits_below _ _ _ _ _ _ (by have := hg.1; omega) h hf
    · exact bits_putBits_above _ _ _ _ _ _ (by have := hg.1; omega) h
  · exact s.getF_putF_off v ho

/-! ## Cores, contexts, ports, jobs -/

theorem State.core_setCore (p q : Nat) (c : Core) : (s.setCore p c).core q = if q = p then c else s.core q := by
  simp [State.core, State.setCore, storeGet_storeSet]

@[simp] theorem State.core_setCore_same (p : Nat) (c : Core) : (s.setCore p c).core p = c := by simp [State.core_setCore]

theorem State.core_setCore_other {p q : Nat} (c : Core) (h : q ≠ p) : (s.setCore p c).core q = s.core q := by
  simp [State.core_setCore, h]

theorem State.ctx_setCtx (m n : Nat) (c : Ctx) : (s.setCtx m c).ctx n = if n = m then c else s.ctx n := by
  simp [State.ctx, State.setCtx, storeGet_storeSet]

theorem State.port_setPort (p q : Nat) (x : Port) : (s.setPort p x).port q = if q = p then x else s.port q := by
  simp [State.port, State.setPort, storeGet_storeSet]

theorem State.kvPage_setKvPage (i j : Nat) (p : KvPage) : (s.setKvPage i p).kvPage j = if j = i then p else s.kvPage j := by
  simp [State.kvPage, State.setKvPage, storeGet_storeSet]

/-! ## Scratchpad and accumulator bytes -/

/-- A byte of a core's scratchpad after a run of bytes is written. -/
theorem State.scratch_setScratch_out {p q a b : Nat} (bs : List Byte) (h : q ≠ p ∨ b < a ∨ a + bs.length ≤ b) :
    (s.setScratch p a bs).scratch q b 1 = s.scratch q b 1 := by
  simp only [State.scratch, State.setScratch, State.core_setCore, storeGetRun]
  split
  · subst q
    have : ¬(a ≤ b ∧ b < a + bs.length) := by omega
    simp [List.range_succ, storeGet_storeSetRun, this]
  · rfl

/-! ## Staged and captured halves (R10) -/

/-- What a requester has staged after one of its halves is staged anew. -/
theorem stagedLo_cons (l : List (Requester × Nat × Word)) (req : Requester) (off : Nat) (v : Word) (q : Requester) (o : Nat) :
    stagedLo ((req, off, v) :: dropLo l req off) q o = if (q, o) = (req, off) then some v else stagedLo l q o := by
  unfold stagedLo dropLo
  induction l with
  | nil => grind
  | cons e l ih => grind

/-- What a requester has staged after one of its halves is used up. -/
theorem stagedLo_dropLo (l : List (Requester × Nat × Word)) (req : Requester) (off : Nat) (q : Requester) (o : Nat) :
    stagedLo (dropLo l req off) q o = if (q, o) = (req, off) then none else stagedLo l q o := by
  unfold stagedLo dropLo
  induction l with
  | nil => grind
  | cons e l ih => grind

theorem State.noteStaged_eq (o : Nat) : s.noteStaged o = { s with mail.staged := (s.noteStaged o).mail.staged } := by
  unfold State.noteStaged; split <;> rfl

@[simp] theorem State.reg_noteStaged (o x : Nat) : (s.noteStaged o).reg x = s.reg x := by rw [State.noteStaged_eq]; rfl

@[simp] theorem State.stages_noteStaged (o : Nat) : (s.noteStaged o).stages = s.stages := by rw [State.noteStaged_eq]

@[simp] theorem State.img_noteStaged (o : Nat) : (s.noteStaged o).img = s.img := by rw [State.noteStaged_eq]

/-! ## Outcomes -/

@[simp] theorem whenPart_true (r : Res) : whenPart true r = r := rfl
@[simp] theorem whenPart_false (r : Res) : whenPart false r = .fault .noSuchPart := rfl

/-- A reserved source never asserts; any other changes only its own register. -/
theorem State.raise_regs (n : Nat) : s.raise n = { s with regs := (s.raise n).regs } := by
  unfold State.raise; dsimp only; split <;> rfl

theorem State.raise_reg_other (n b : Nat) (h : b ≠ 0x400000 + 4 * n) : (s.raise n).reg b = s.reg b := by
  unfold State.raise; dsimp only; split
  · rfl
  · exact s.reg_putF_other _ (by simpa [F.IRQ_SRC_PENDING] using h)

end Sys2Proof.Machine
end

