-- ==== Sys2Proof/Laws/Frames.lean ====
section
/-! SUPPORT. How frames are shown: each update that stays within a frame keeps it, so that a chain of updates is framed one update at
a time. -/

namespace Sys2Proof.Machine

open Sys2Proof

variable {s t : State} {l : List Nat} {p : Nat}

/-! ## Registers only -/

theorem State.onlyRegs_refl : s.onlyRegs s l := ⟨rfl, fun _ _ => rfl⟩

theorem State.onlyRegs_setReg (h : s.onlyRegs t l) {a : Nat} (v : Word) (ha : a ∈ l) : s.onlyRegs (t.setReg a v) l := by
  refine ⟨?_, fun o ho => ?_⟩
  · have h1 := h.1
    show ({ t with regs := _ } : State) = _
    rw [h1]; rfl
  · rw [State.reg_setReg_other t v (b := o) (fun e => ho (by rw [e]; exact ha))]; exact h.2 o ho

theorem State.onlyRegs_putF (h : s.onlyRegs t l) {f : Fld} (v : Nat) (hf : f.off ∈ l) : s.onlyRegs (t.putF f v) l :=
  State.onlyRegs_setReg h _ hf

theorem State.onlyRegs_addF (h : s.onlyRegs t l) {f : Fld} (v : Nat) (hf : f.off ∈ l) : s.onlyRegs (t.addF f v) l :=
  State.onlyRegs_putF h _ hf

theorem State.onlyRegs_addSatF (h : s.onlyRegs t l) {f : Fld} (v : Nat) (hf : f.off ∈ l) : s.onlyRegs (t.addSatF f v) l :=
  State.onlyRegs_putF h _ hf

theorem State.onlyRegs_putP (h : s.onlyRegs t l) {a : Nat} (v : Nat) (ha : a ∈ l) (hb : a + 4 ∈ l) : s.onlyRegs (t.putP a v) l :=
  State.onlyRegs_setReg (State.onlyRegs_setReg h _ ha) _ hb

theorem State.onlyRegs_addP (h : s.onlyRegs t l) {a : Nat} (v : Nat) (ha : a ∈ l) (hb : a + 4 ∈ l) : s.onlyRegs (t.addP a v) l :=
  State.onlyRegs_putP h _ ha hb

theorem State.onlyRegs_raise (h : s.onlyRegs t l) (n : Nat) (hn : 0x400000 + 4 * n ∈ l) : s.onlyRegs (t.raise n) l := by
  unfold State.raise; dsimp only; split
  · exact h
  · exact State.onlyRegs_putF h _ (by simpa [F.IRQ_SRC_PENDING] using hn)

theorem State.onlyRegs_ite (c : Prop) [Decidable c] {u : State} (h : s.onlyRegs t l) (k : s.onlyRegs u l) :
    s.onlyRegs (if c then t else u) l := by split <;> assumption

theorem State.onlyRegs_mono {m : List Nat} (h : s.onlyRegs t l) (hm : ∀ o ∈ l, o ∈ m) : s.onlyRegs t m :=
  ⟨h.1, fun o ho => h.2 o fun k => ho (hm o k)⟩

/-! ## Registers and what leaves the block -/

theorem State.onlyRegsOut_refl : s.onlyRegsOut s l := ⟨rfl, fun _ _ => rfl⟩

theorem State.onlyRegsOut_of (h : s.onlyRegs t l) : s.onlyRegsOut t l := by
  refine ⟨?_, h.2⟩
  have h1 := h.1
  have h2 : t.out = s.out := by rw [h1]
  rw [h2]; exact h1

theorem State.onlyRegsOut_setReg (h : s.onlyRegsOut t l) {a : Nat} (v : Word) (ha : a ∈ l) : s.onlyRegsOut (t.setReg a v) l := by
  refine ⟨?_, fun o ho => ?_⟩
  · have h1 := h.1
    show ({ t with regs := _ } : State) = _
    rw [h1]; rfl
  · rw [State.reg_setReg_other t v (b := o) (fun e => ho (by rw [e]; exact ha))]; exact h.2 o ho

theorem State.onlyRegsOut_putF (h : s.onlyRegsOut t l) {f : Fld} (v : Nat) (hf : f.off ∈ l) : s.onlyRegsOut (t.putF f v) l :=
  State.onlyRegsOut_setReg h _ hf

theorem State.onlyRegsOut_addF (h : s.onlyRegsOut t l) {f : Fld} (v : Nat) (hf : f.off ∈ l) : s.onlyRegsOut (t.addF f v) l :=
  State.onlyRegsOut_putF h _ hf

theorem State.onlyRegsOut_addSatF (h : s.onlyRegsOut t l) {f : Fld} (v : Nat) (hf : f.off ∈ l) : s.onlyRegsOut (t.addSatF f v) l :=
  State.onlyRegsOut_putF h _ hf

theorem State.onlyRegsOut_putP (h : s.onlyRegsOut t l) {a : Nat} (v : Nat) (ha : a ∈ l) (hb : a + 4 ∈ l) :
    s.onlyRegsOut (t.putP a v) l :=
  State.onlyRegsOut_setReg (State.onlyRegsOut_setReg h _ ha) _ hb

theorem State.onlyRegsOut_emit (h : s.onlyRegsOut t l) (o : Output) : s.onlyRegsOut (t.emit o) l := by
  refine ⟨?_, h.2⟩
  have h1 := h.1
  show ({ t with out := _ } : State) = _
  rw [h1]; rfl

theorem State.onlyRegsOut_raise (h : s.onlyRegsOut t l) (n : Nat) (hn : 0x400000 + 4 * n ∈ l) : s.onlyRegsOut (t.raise n) l := by
  unfold State.raise; dsimp only; split
  · exact h
  · exact State.onlyRegsOut_putF h _ (by simpa [F.IRQ_SRC_PENDING] using hn)

/-! ## One core and registers -/

theorem State.onlyCore_refl : s.onlyCore s p l := ⟨rfl, fun _ _ => rfl, fun _ _ => rfl⟩

theorem State.onlyCore_setReg (h : s.onlyCore t p l) {a : Nat} (v : Word) (ha : a ∈ l) : s.onlyCore (t.setReg a v) p l := by
  refine ⟨?_, h.2.1, fun o ho => ?_⟩
  · have h1 := h.1
    show ({ t with regs := _ } : State) = _
    rw [h1]; rfl
  · rw [State.reg_setReg_other t v (b := o) (fun e => ho (by rw [e]; exact ha))]; exact h.2.2 o ho

theorem State.onlyCore_putF (h : s.onlyCore t p l) {f : Fld} (v : Nat) (hf : f.off ∈ l) : s.onlyCore (t.putF f v) p l :=
  State.onlyCore_setReg h _ hf

theorem State.onlyCore_addF (h : s.onlyCore t p l) {f : Fld} (v : Nat) (hf : f.off ∈ l) : s.onlyCore (t.addF f v) p l :=
  State.onlyCore_putF h _ hf

theorem State.onlyCore_putP (h : s.onlyCore t p l) {a : Nat} (v : Nat) (ha : a ∈ l) (hb : a + 4 ∈ l) : s.onlyCore (t.putP a v) p l :=
  State.onlyCore_setReg (State.onlyCore_setReg h _ ha) _ hb

theorem State.onlyCore_addP (h : s.onlyCore t p l) {a : Nat} (v : Nat) (ha : a ∈ l) (hb : a + 4 ∈ l) : s.onlyCore (t.addP a v) p l :=
  State.onlyCore_putP h _ ha hb

theorem State.onlyCore_setCore (h : s.onlyCore t p l) (c : Core) : s.onlyCore (t.setCore p c) p l := by
  refine ⟨?_, fun q hq => ?_, h.2.2⟩
  · have h1 := h.1
    show ({ t with cores := _ } : State) = _
    rw [h1]; rfl
  · rw [State.core_setCore_other t c hq]; exact h.2.1 q hq

theorem State.onlyCore_setScratch (h : s.onlyCore t p l) (a : Nat) (bs : List Byte) : s.onlyCore (t.setScratch p a bs) p l :=
  State.onlyCore_setCore h _

theorem State.onlyCore_setAcc (h : s.onlyCore t p l) (a : Nat) (bs : List Byte) : s.onlyCore (t.setAcc p a bs) p l :=
  State.onlyCore_setCore h _

theorem State.onlyCore_setStore (h : s.onlyCore t p l) (acc : Bool) (a : Nat) (bs : List Byte) :
    s.onlyCore (t.setStore p acc a bs) p l := by
  unfold State.setStore; split
  · exact State.onlyCore_setAcc h a bs
  · exact State.onlyCore_setScratch h a bs

theorem State.onlyCore_addCounts (h : s.onlyCore t p l) (a b : Nat) : s.onlyCore (t.addCounts p a b) p l :=
  State.onlyCore_setCore h _

end Sys2Proof.Machine
end

