-- ==== Sys2Proof/Laws/Tile.lean ====
section
/-! SUPPORT. What issuing a tile instruction does, once for every row that issues one. -/

namespace Sys2Proof.Machine

open Sys2Proof

variable {s : State} {p : Nat} {enc : BitVec 256} {cmd : Instr} {row : Nat} {judge : Program → Job → Judged}
  {body : Program → Job → TileRes} {g : Program} {j : Job}

/-- The job a fetched instruction belongs to is the one its program names. -/
theorem State.fetched_uid (h : s.fetched p enc g j) : j.uid = g.job := by
  obtain ⟨_, _, hj, _⟩ := h
  have := List.find?_some hj
  simpa using this

/-- A fetched instruction that its row judges legal and within the limits ends as its execution does. -/
theorem State.issue_legal (h : s.fetched p enc g j) (hv : judge g j = ⟨row, true, 0⟩) (hr : row ≠ 0) :
    s.issue p enc cmd row judge body =
      .next (s.tileEnd p j.uid (s.getF (F.JOB_CORE_PROGRAM_NEXT p)) (s.getF (F.JOB_CORE_STATUS_LOGICAL p)) cmd (body g j)) := by
  obtain ⟨hp, hg, hj, hret, hph, hn, bs, hf, hb⟩ := h
  simp [State.issue, whenPart, hp, hg, hj, hret, hph, Nat.not_le.mpr hn, hf, hb, hv, hr]

/-- A fetched instruction that is not legal is a job fault, and runs nothing. -/
theorem State.issue_illegal (h : s.fetched p enc g j) (hr : (judge g j).row = 0 ∨ (judge g j).row = row)
    (hv : (judge g j).row = 0 ∨ (judge g j).legal = false) :
    s.issue p enc cmd row judge body =
      .next (s.jobFault j.uid Code.ILLEGAL_INSTRUCTION (s.getF (F.JOB_CORE_PROGRAM_NEXT p)) 0
        (s.getF (F.JOB_CORE_STATUS_LOGICAL p))) := by
  obtain ⟨hp, hg, hj, hret, hph, hn, bs, hf, hb⟩ := h
  have h1 : ¬((judge g j).row ≠ 0 ∧ (judge g j).row ≠ row) := by rintro ⟨a, b⟩; cases hr <;> contradiction
  have h2 : (judge g j).row = 0 ∨ (!(judge g j).legal) = true := by simpa using hv
  simp only [State.issue, whenPart, hp, hg, hj, hret, hph, Nat.not_le.mpr hn, hf, hb, decide_true, if_true, if_false, ne_eq,
    not_true_eq_false, Bool.false_eq_true, reduceCtorEq, Bool.and_eq_true, decide_eq_true_eq]
  rw [if_neg (by simpa using h1), if_pos (by simpa using h2)]

/-- A legal instruction that breaks a limit is RESOURCE_OVERFLOW with the kind it breaks. -/
theorem State.issue_over (h : s.fetched p enc g j) {k : Nat} (hv : judge g j = ⟨row, true, k⟩) (hr : row ≠ 0) (hk : k ≠ 0) :
    s.issue p enc cmd row judge body =
      .next (s.jobFault j.uid Code.RESOURCE_OVERFLOW (s.getF (F.JOB_CORE_PROGRAM_NEXT p)) k
        (s.getF (F.JOB_CORE_STATUS_LOGICAL p))) := by
  obtain ⟨hp, hg, hj, hret, hph, hn, bs, hf, hb⟩ := h
  simp [State.issue, whenPart, hp, hg, hj, hret, hph, Nat.not_le.mpr hn, hf, hb, hv, hr, hk]

/-- An instruction of a preempted job waits. -/
theorem State.issue_preempted (hp : p < 1088) (hg : (s.core p).prog = some g) (hj : s.jobOf g.job = some j) (hret : g.retired = false)
    (hph : j.phase = .preempted) : s.issue p enc cmd row judge body = .next (s.hold cmd) := by
  simp [State.issue, whenPart, hp, hg, hj, hret, hph]

end Sys2Proof.Machine
end

