-- ==== Sys2Proof/Tests/Slice0.lean ====
section
/-! SUPPORT. Tests: ill-formed commands are refused, single steps give what the manual's own examples give, and each statement's hypotheses
are met by some concrete state. -/

namespace Sys2Proof.Tests

open Sys2Proof Sys2Proof.Machine

/-! ## States -/

def rst : State := State.reset

/-- Bytes of a number, then zeros up to a length. -/
def pad (n : Nat) (bs : List Byte) : List Byte := bs ++ List.replicate (n - bs.length) 0

/-- The block with a supply, in a device state. -/
def dev (n : Nat) : State := { rst with pwr.supply := true }.putF F.JOB_DEVICE_STATE_STATE n

/-- An object of 2 MiB in the fifth page of HBM that context 0 has mapped at 0x200000. -/
def obj0 : TierObj :=
  ⟨0, 2, 0, false, 1, 0, 4, 0x200000, true, false, false, false, false, [], none, .absent, 0, 0, none, false, [], false, 0⟩

def step0 : StepRun := ⟨0, [0], 0, [], 0, [], [], false, false, false, 0, none, false, false, 0, [], [0]⟩

/-- A job of context 0 whose only step runs on core 0. -/
def job0 : Job :=
  ⟨1, 0, 7, 1, 0x200000, 0, 1, .running, 0, some step0, 0, 0, 0, 0, 0, 0, 0, 0, false, false, none, false, false⟩

/-- A tile program of 16 instructions at 0x200000 with 512 KiB of scratchpad, 16 accumulator tiles and 8 barriers. -/
def prog0 : Program := ⟨0, 1, 0x200000, 16, 0, false, 0x80000, 16, 8, 0, [⟨0, 0x100⟩], 0, [], false, [], none, false⟩

/-- Core 0 at instruction 0 of its program, which is `enc`. -/
def tile (enc : BitVec 256) : State :=
  { dev 3 with
    job.jobs := [job0]
    tier.objs := [obj0]
    mem.hbm := storeSetRun zeroByte [] (4 * pageBytes + 0x40) (leBytes 32 enc.toNat)
    cores := [(0, { Core.idle with prog := some prog0 })] }

/-- A section in force. -/
def sec (typ : Nat) (bs : List Byte) : Section := ⟨typ, 0, false, bs⟩

/-- A structure in force: 1,024 cores, one partition of weights at page 512 and one of 64 pages that persists, quotas, a template of the
saffron class for 16 contexts. -/
def image : List Section :=
  [ sec 1 (pad 32 (leBytes 4 0x10 ++ leBytes 2 1024 ++ leBytes 1 4 ++ leBytes 1 0 ++ leBytes 4 0 ++ leBytes 4 4096)),
    sec 3 (List.replicate 272 0xAA ++ ((List.range 4).flatMap fun _ => (List.range 32).flatMap (leBytes 1)) ++ leBytes 4 0),
    sec 5 (pad 32 (leBytes 4 512 ++ leBytes 4 8 ++ leBytes 2 64 ++ leBytes 2 16 ++ leBytes 2 0x10 ++ leBytes 1 0xFF) ++
      pad 32 (leBytes 4 1024 ++ leBytes 4 64 ++ leBytes 2 64 ++ leBytes 2 16 ++ leBytes 2 1 ++ leBytes 1 0xFF)),
    sec 6 (pad 32 ([1024, 0, 1024, 1024].flatMap (leBytes 4))),
    sec 9 ((List.range 10).flatMap fun k =>
      let r := islandRange ([0, 1088, 1152, 1156, 1188, 1196, 1200, 1214, 1216, 1217].getD k 0)
      leBytes 1 0 ++ leBytes 1 k ++ leBytes 2 0 ++ leBytes 2 (if k = 9 then 1000 else r.2.1) ++ leBytes 2 (if k = 9 then 1000 else r.2.2.2) ++ leBytes 2 800 ++ leBytes 2 0),
    sec 10 (List.replicate 48 0),
    sec 11 (pad 144 (leBytes 1 0 ++ leBytes 1 0 ++ leBytes 1 0 ++ leBytes 1 1 ++ leBytes 2 3 ++ leBytes 2 16)),
    sec 12 (pad 32 (leBytes 4 0x0F ++ leBytes 4 0 ++ leBytes 1 0x0F)) ]

/-- A device state with that structure in force. -/
def withImage (s : State) : State :=
  let s := { s with img.sections := image }.putF F.SIL_STATUS_IMAGE_VALID 1
  let s := (s.putF F.GLB_PROFILE_ACTIVE_CORES 1024).putF F.GLB_HBM_PAGES_ALLOC_PAGES 4096
  (List.range 8).foldl (fun s i => s.putF (F.MEM_STACK_PAGES_PAGES i) 4096) s

/-- A patch image of a KIND with one delta section of a TYPE and no entry. -/
def patch (kind typ : Nat) : List Byte :=
  pad 128 (leBytes 4 0x51534931 ++ leBytes 2 1 ++ leBytes 2 kind ++ leBytes 4 324 ++ leBytes 2 1 ++ leBytes 2 0x1024) ++
    pad 64 (leBytes 1 typ ++ leBytes 1 0 ++ leBytes 2 1 ++ leBytes 4 192 ++ leBytes 4 4) ++ leBytes 4 0 ++ List.replicate 128 0

/-- A load of an image under way. -/
def loading (state : Nat) (wait : Bool) (img : List Byte) : State :=
  { withImage (dev 2) with img.image := img, img.wait := wait }.putF F.SIL_STATUS_STATE state

def goodSig : SigVerdict := ⟨true, 0⟩

/-! ## Witnesses: registers -/

theorem witness_UndefinedOffsetReadsZero :
    0xFFC % 4 = 0 ∧ 0xFFC < 0x4000000 ∧ regAt 0xFFC = none ∧ rst.denied .host 0xFFC = false := by decide +kernel

theorem witness_SecureOnlyAccessIsAnswered :
    0x300000 % 4 = 0 ∧ 0x300000 < 0x4000000 ∧ secureOnly 0x300000 = true ∧ isSecure .host = false := by decide +kernel

theorem witness_UnauthorizedDebugAccessIsAnswered :
    rst.facilityOpen .host 1 = false ∧ rst.facilityOpen .host 2 = false ∧ inDebug R.DBG_SYNC_DUMP_STATUS = true ∧
    R.DBG_SYNC_DUMP_STATUS % 4 = 0 ∧ rst.debugOpen .host R.DBG_SYNC_DUMP_STATUS = false ∧ bit (1 : Word).toNat 0 = true := by decide +kernel

/-- A register with a ranged field. -/
theorem witness_RegisterWriteTakesEachField :
    (∃ r, regAt 0x48 = some r ∧ r.ownWrite = false ∧ r.half = .single ∧ rst.gateOpen r 0x48 = true) ∧
    rst.denied .host 0x48 = false ∧ rst.quietIsland 0x48 = none ∧ rst.regDown 0x48 = false ∧
    0x48 ≠ R.JOB_CTX_KV_CMD_3 (ctxOfOff 0x48) ∧ 0x48 ≠ R.JOB_CTX_TIER_CMD_7 (ctxOfOff 0x48) ∧ 0x48 ≠ R.VID_CTX_CMD_7 (ctxOfOff 0x48) ∧
    0x48 ≠ R.LNK_ROUTE_SELECT :=
  ⟨⟨_, rfl, by decide +kernel⟩, by decide +kernel⟩

theorem witness_ReadClearsCounters : ∃ r, regAt R.GLB_ACCESS_DENIED = some r ∧ isRc r = true := ⟨_, rfl, by decide +kernel⟩

theorem witness_PairReadsAreConsistent :
    (∃ r, regAt P.SIL_SRC_ADDR = some r ∧ r.half = .lo) ∧ (∃ r, regAt (P.SIL_SRC_ADDR + 4) = some r ∧ r.half = .hi) ∧
    rst.denied .host P.SIL_SRC_ADDR = false ∧ rst.quietIsland P.SIL_SRC_ADDR = none ∧ rst.pageDown P.SIL_SRC_ADDR = false ∧
    rst.denied .host (P.SIL_SRC_ADDR + 4) = false ∧ rst.quietIsland (P.SIL_SRC_ADDR + 4) = none ∧
    rst.pageDown (P.SIL_SRC_ADDR + 4) = false :=
  ⟨⟨_, rfl, rfl⟩, ⟨_, rfl, rfl⟩, by decide +kernel⟩

theorem witness_PairWritesCommitBothHalves :
    (∃ r, regAt P.SIL_SRC_ADDR = some r ∧ r.half = .lo ∧ writable r = true ∧ rst.gateOpen r P.SIL_SRC_ADDR = true ∧
      r.fields = [⟨31, 0, .rw, 0, .any⟩]) ∧
    (∃ r, regAt (P.SIL_SRC_ADDR + 4) = some r ∧ r.half = .hi ∧ r.ownWrite = false ∧ r.gate ≠ .bar4 ∧
      rst.gateOpen r (P.SIL_SRC_ADDR + 4) = true ∧ r.fields = [⟨31, 0, .rw, 0, .any⟩]) ∧
    (∀ o ∈ [P.SIL_SRC_ADDR, P.SIL_SRC_ADDR + 4], rst.denied .host o = false ∧ rst.quietIsland o = none ∧ rst.regDown o = false) :=
  ⟨⟨_, rfl, by decide +kernel⟩, ⟨_, rfl, by decide +kernel⟩, by decide +kernel⟩

/-! ## Witnesses: the structure image -/

theorem witness_ImageLoadStartsAndCancels :
    (bit (0x11 : Word).toNat 0 = true ∧ bit (0x11 : Word).toNat 1 = false ∧ bits (0x11 : Word).toNat 3 2 = 0 ∧
      rst.getF F.GLB_PROFILE_RETIRE = 0 ∧ rst.getF F.SIL_STATUS_STATE = 0 ∧ rst.getP P.SIL_SRC_ADDR % 64 = 0 ∧
      rst.getP P.SIL_SRC_ADDR + rst.getF F.SIL_LENGTH_LENGTH ≤ 2 ^ 30 ∧
      rst.poisoned (rst.getP P.SIL_SRC_ADDR) (rst.getF F.SIL_LENGTH_LENGTH) = false) ∧
    (loading 2 true []).getF F.SIL_STATUS_STATE = 2 ∧ (loading 2 true []).getF F.GLB_PROFILE_RETIRE = 0 ∧
    (rst.putF F.GLB_PROFILE_RETIRE 1).getF F.GLB_PROFILE_RETIRE = 1 ∧ bits (0xD : Word).toNat 3 2 = 3 ∧
    bit (2 : Word).toNat 0 = false ∧ bit (2 : Word).toNat 1 = true ∧ bit (0 : Word).toNat 1 = false := by decide +kernel

/-- The first failure, a held image, a moment that does not allow the KIND, an image applied, and the two ends of a commit. Checks 7 to 9 are
run once: a held image meets them as a checked one does. -/
theorem witness_ImageChecksHoldAndCommit :
    ((loading 1 false []).getF F.SIL_STATUS_STATE = 1 ∧ ((loading 1 false []).checks1to4 [] goodSig).isSome = true) ∧
    (let s := loading 1 true (patch 2 7);
      s.getF F.SIL_STATUS_STATE = 1 ∧ s.checks1to4 s.img.image goodSig = none ∧ s.check5 s.img.image = none ∧ s.img.wait = true) ∧
    (let s := { withImage (dev 1) with img.image := patch 1 2 }.putF F.SIL_STATUS_STATE 1;
      s.checks1to4 s.img.image goodSig = none ∧ s.check5 s.img.image = none ∧ s.img.wait = false ∧
      s.momentOk (imageKind s.img.image) = false) ∧
    (let s := loading 1 false (patch 2 7);
      s.checks1to4 s.img.image goodSig = none ∧ s.check5 s.img.image = none ∧ s.momentOk (imageKind s.img.image) = true ∧
      { s with img.digest := goodSig.digest }.checks7to9 s.img.image = none) ∧
    (let s := loading 2 true (patch 2 7);
      s.getF F.SIL_STATUS_STATE = 2 ∧ s.momentOk (imageKind s.img.image) = true ∧ s.check5 s.img.image = none) ∧
    (let s := { dev 2 with img.image := patch 2 7 }.putF F.SIL_STATUS_STATE 2;
      s.momentOk (imageKind s.img.image) = true ∧ (s.check5 s.img.image).isSome = true) ∧
    (loading 3 false (patch 2 7)).getF F.SIL_STATUS_STATE = 3 := by decide +kernel

theorem witness_RetirementAndWithdrawal :
    (let s := { dev 2 with rel.retire := [5] }; s.momentOk 1 = true ∧ s.rel.retire = [5] ∧ s.getF F.SIL_STATUS_STATE = 0) ∧
    (let s := { dev 2 with rel.retire := [5] }.putF F.SIL_STATUS_STATE 3;
      s.momentOk 1 = true ∧ s.rel.retire ≠ [] ∧ s.getF F.SIL_STATUS_STATE = 3) ∧
    (let s := { dev 2 with rel.withdraw := true }; s.rel.withdraw = true ∧ s.momentOk 1 = true) := by decide +kernel

/-! ## Witnesses: steps, jobs and contexts -/

/-- A structure of two cores, with a template of the saffron class; contexts 0 and 1 are OPEN, saffron and bulk, with both cores. -/
def mini : State :=
  let s := { dev 2 with
    img.sections := [sec 1 (pad 32 (leBytes 4 0x10 ++ leBytes 2 2)), sec 2 (leBytes 2 0x8000 ++ leBytes 2 0x8001),
      sec 6 (pad 32 (leBytes 4 64)), sec 11 (pad 144 (leBytes 4 0x01000000 ++ leBytes 2 3 ++ leBytes 2 16))]
    tier.objs := [obj0] }
  let s := (s.setCtx 0 { Ctx.fresh with mask := 3 }).setCtx 1 { Ctx.fresh with mask := 3, class_ := 1 }
  let s := (s.putF (F.JOB_CTX_STATE_STATE 0) 1).putF (F.JOB_CTX_STATE_STATE 1) 1
  (s.putF (F.JOB_CTX_STATE_CLASS 1) 1).putF F.SIL_STATUS_IMAGE_VALID 1

/-- The step list, the ranks' programs and a program header of one instruction, at 0x200000. -/
def program : List Byte :=
  pad 32 (leBytes 4 1 ++ leBytes 2 1) ++ pad 32 (leBytes 8 0x200040) ++ pad 64 (leBytes 8 0x200080) ++
    pad 64 (leBytes 2 1 ++ leBytes 2 0 ++ leBytes 4 1)

def waiting : Job := { job0 with phase := .queued, step := none }

/-- A job that waits, with its program in memory. -/
def queued : State := { mini with job.jobs := [waiting], mem.hbm := storeSetRun zeroByte [] (4 * pageBytes) program }

/-- The same where the program's object is still being promoted. -/
def promoting : State :=
  { queued with tier.objs := [{ obj0 with tier := 3, resid := .promoting, pins := [⟨0, 0x200000, true⟩] }] }

/-- A job that wants two cores while a bulk step holds both. -/
def contended : State :=
  { mini with job.jobs := [{ waiting with coresWanted := 2 },
      { job0 with uid := 2, ctx := 1, step := some { step0 with cores := [0, 1], phys := [0, 1] } }] }

def running (j : Job) : State := { mini with job.jobs := [j] }

theorem witness_StepsBeginAndResume :
    (queued.nextJob = some waiting ∧ queued.coresFor waiting = some ([0], []) ∧
      ((queued.placeStep waiting [0] []).startPrograms 1).isSome = true) ∧
    (promoting.nextJob = some waiting ∧ promoting.coresFor waiting = some ([0], []) ∧
      ((promoting.placeStep waiting [0] []).startPrograms 1).isNone = true) ∧
    (contended.nextJob = some { waiting with coresWanted := 2 } ∧
      contended.coresFor { waiting with coresWanted := 2 } = some ([0, 1], [0, 1]) ∧
      contended.jobOf 1 = some { waiting with coresWanted := 2 }) ∧
    (let s := { queued with job.jobs := [{ job0 with phase := .saving }] };
      s.jobOf 1 = some { job0 with phase := .saving } ∧ (s.startPrograms 1).isSome = true) ∧
    ((running { job0 with phase := .preempted }).jobOf 1 = some { job0 with phase := .preempted } ∧
      (running { job0 with phase := .preempted }).victimReady { job0 with phase := .preempted } = true) ∧
    1087 < 1088 ∧ 2047 < 2 ^ 11 ∧ prog0.ctx < 256 := by decide +kernel

def done : Job := { job0 with step := some { step0 with retiredAt := some 0 } }

theorem witness_LullCommitsTheStep :
    ((running job0).jobOf 1 = some job0 ∧ job0.step = some step0 ∧ step0.bankPhase = 0 ∧ (running job0).drained job0 step0 = false) ∧
    (∀ k, k = done ∨ k = { done with stepCount := 2 } → k.step = some { step0 with retiredAt := some 0 } ∧
      (running k).jobOf k.uid = some k ∧ (running k).drained k { step0 with retiredAt := some 0 } = true ∧ step0.summary = 0 ∧
      (running k).banks k.ctx = false) ∧
    done.stepCount ≤ done.done + 1 ∧ { done with stepCount := 2 }.done + 1 < { done with stepCount := 2 }.stepCount ∧
    ({ step0 with retiredAt := some 0 }.retiredAt.isSome = true ∧ step0.watchdog = false ∧
      ((running done).putF F.JOB_LULL_WATCHDOG_TIMEOUT_US 10).getF F.JOB_LULL_WATCHDOG_TIMEOUT_US ≠ 0 ∧
      ((running done).putF F.JOB_LULL_WATCHDOG_TIMEOUT_US 10).jobOf 1 = some done) := by
  refine ⟨by decide +kernel, ?_, by decide +kernel⟩
  rintro k (rfl | rfl) <;> decide +kernel

/-- A record of context 0. -/
def record0 (status : Nat) : Record := ⟨0, 1, 7, status, List.replicate 60 0, true⟩

/-- The host link up, with bus mastering. -/
def linked (s : State) : State := { s with host.up := true }.putF F.GLB_HOST_LINK_BUS_MASTER 1

theorem witness_CompletionRecordsArePosted :
    (∀ st ∈ [Code.OK, Code.ABORTED], let s := linked { mini with job.records := [record0 st] };
      s.job.records.find? (·.ctx == 0) = some (record0 st) ∧ s.postRoom 0 = true ∧ s.ctxState 0 ≠ 2 ∧
      s.vcOpen (s.vcOf (s.ctxClass 0)) = true) ∧
    isSuccess Code.OK = true ∧ (record0 Code.ABORTED).status = Code.ABORTED ∧
    (let s := { mini with job.records := [record0 0] }.putF (F.JOB_CTX_RING_TAIL_VALUE 0) 1024;
      s.job.records.find? (·.ctx == 0) = some (record0 0) ∧ s.postRoom 0 = false) := by decide +kernel

theorem witness_ContextsOpenAndClose :
    rst.imageValid = false ∧ (mini.imageValid = true ∧ mini.template (bits (5 : Word).toNat 5 0) = none) ∧
    (∃ e, mini.template (bits (0 : Word).toNat 5 0) = some e ∧ mini.freeContextId = some 2 ∧ mini.contextsOf 0 < leAt e 6 2 ∧
      mini.policy 6 = false) ∧
    (bit (1 : Word).toNat 1 = false ∧ bit (1 : Word).toNat 0 = true ∧ (running job0).ctxState 0 = 1 ∧ (running job0).queueDepth 0 ≠ 0) ∧
    mini.ctxState 255 = 0 ∧ bit (2 : Word).toNat 1 = true ∧
    (let s := mini.putF (F.JOB_CTX_STATE_STATE 0) 3; s.ctxState 0 = 3 ∧ s.queueDepth 0 = 0) ∧
    (let s := (running job0).putF (F.JOB_CTX_STATE_STATE 0) 3; s.ctxState 0 = 3 ∧ s.queueDepth 0 ≠ 0) :=
  ⟨by decide +kernel, by decide +kernel, ⟨(mini.template 0).getD [], by decide +kernel⟩, by decide +kernel⟩

/-- A descriptor of job 7 of model 0: one core, one step, its program at 0x200000. -/
def descriptor : List Byte := pad 64 (leBytes 4 7 ++ leBytes 4 1 ++ leBytes 8 0 ++ leBytes 8 0x200000 ++ leBytes 8 0 ++ leBytes 4 1)

/-- Context 0 with both its rings, and a fetch under way. -/
def submitting : State :=
  let s := { mini with job.fetching := [⟨0, 0x1000, 1⟩] }
  (s.putP (P.JOB_CTX_RING 0) 0x10000).putP (P.JOB_CTX_LULL_RING 0) 0x20000

theorem witness_SubmissionsAreDecided :
    ((stagedLo submitting.stages .host (R.JOB_CTX_SUBMIT_LO 0)).getD (submitting.reg (R.JOB_CTX_SUBMIT_LO 0)) = 0 ∧
      submitting.submitTest 0 ((0 : Word).toNat + (1 : Word).toNat * 2 ^ 32) = 0) ∧
    (mini.submitTest 0 ((0 : Word).toNat + (1 : Word).toNat * 2 ^ 32) ≠ 0 ∧ (mini.ctx 0).decided ≤ (mini.ctx 0).subs + 1) ∧
    (submitting.job.fetching.find? (·.ctx == 0) = some ⟨0, 0x1000, 1⟩ ∧ descriptor.length = 64 ∧ submitting.ctxState 0 = 1 ∧
      submitting.presentTest 0 = 0 ∧ submitting.descriptorTest 0 descriptor = 0 ∧ (submitting.ctx 0).decided ≤ 1) ∧
    (∀ f ∈ mini.job.fetching, f.ctx ≠ 0) ∧ (∃ f ∈ submitting.job.fetching, f.ctx = 0) := by decide +kernel

theorem witness_AbortsFindTheirJob :
    ((running job0).job.jobs.find? (fun j => j.ctx == 0 && j.id == (7 : Word).toNat) = some job0 ∧ (running job0).jobOf 1 = some job0) ∧
    (let s := { mini with job.records := [record0 0] };
      s.job.jobs.find? (fun j => j.ctx == 0 && j.id == (7 : Word).toNat) = none ∧
      s.job.records.find? (fun r => r.ctx == 0 && r.job == (7 : Word).toNat && r.success) = some (record0 0)) ∧
    (mini.job.jobs.find? (fun j => j.ctx == 0 && j.id == (8 : Word).toNat) = none ∧
      mini.job.records.find? (fun r => r.ctx == 0 && r.job == (8 : Word).toNat && r.success) = none) := by decide +kernel

/-! ## Witnesses: tile programs -/

/-- An instruction, of its fields' byte offsets and values. -/
def word (l : List (Nat × Nat)) : BitVec 256 := BitVec.ofNat 256 (l.foldl (fun a e => a + e.2 * 256 ^ e.1) 0)

def fetchedB (s : State) (p : Nat) (enc : BitVec 256) (g : Program) (j : Job) : Bool :=
  decide (p < 1088) && decide ((s.core p).prog = some g) && decide (s.jobOf g.job = some j) && !g.retired && decide (j.phase = .running) &&
    decide (s.getF (F.JOB_CORE_PROGRAM_NEXT p) < g.count) &&
    match s.vFetch g.ctx (g.va + 0x40 + 32 * s.getF (F.JOB_CORE_PROGRAM_NEXT p)) 32 with
    | .ok bs => leNat bs == enc.toNat
    | _ => false

/-- An instruction that is fetched, with other hypotheses about it. -/
theorem meets {s : State} {p : Nat} {enc : BitVec 256} {g : Program} {j : Job} {P : Prop} [Decidable P]
    (h : (fetchedB s p enc g j && decide P) = true) : s.fetched p enc g j ∧ P := by
  simp only [fetchedB, Bool.and_eq_true, decide_eq_true_eq, Bool.not_eq_true'] at h
  obtain ⟨⟨⟨⟨⟨⟨⟨h1, h2⟩, h3⟩, h4⟩, h5⟩, h6⟩, h7⟩, hp⟩ := h
  refine ⟨⟨h1, h2, h3, h4, h5, h6, ?_⟩, hp⟩
  split at h7
  · exact ⟨_, by assumption, by simpa using h7⟩
  · cases h7

/-- Core 0 at that instruction, with its state changed. -/
def tileWith (enc : BitVec 256) (f : State → State) : State := f (tile enc)

/-- COUNT reached. -/
def ended (e : BitVec 256) : State := (tile e).putF (F.JOB_CORE_PROGRAM_NEXT 0) 16

def loadWord : BitVec 256 := word [(0, 1), (4, 0x201000), (12, 0x100), (16, 64), (20, 1)]
def storeWord : BitVec 256 := word [(0, 2), (4, 0x400), (12, 0x100), (16, 2), (18, 8), (20, 32), (24, 32)]
def storeMem : BitVec 256 := word [(0, 2), (1, 2), (4, 0x201000), (12, 0x100), (16, 1), (18, 8)]

/-- A STORE of one command word into cell 0 of the page port. -/
def storeCell : BitVec 256 := word [(0, 2), (1, 2), (4, 0x300000000000), (12, 0x100), (16, 1), (18, 4)]
def portTile : State := (tile storeCell).putP (P.JOB_CTX_PAGE_PORT 0) 0x300000000000

theorem witness_InstructionsIssueInOrder :
    (let e := word [(0, 0xC)]; let s := { tile e with job.jobs := [{ job0 with phase := .preempted }] };
      Instr.endProgram 0 e ∈ tileCommands 0 e ∧ (s.core 0).prog = some prog0 ∧
        s.jobOf 1 = some { job0 with phase := .preempted } ∧ prog0.retired = false) ∧
    ((ended 0xC).core 0 |>.prog) = some prog0 ∧ (ended 0xC).jobOf 1 = some job0 ∧ prog0.count ≤ (ended 0xC).getF (F.JOB_CORE_PROGRAM_NEXT 0) ∧
    (let s := { tile 0xC with tier.objs := [{ obj0 with tier := 3, resid := .promoting, pins := [⟨0, 0x200000, true⟩] }] };
      (s.core 0).prog = some prog0 ∧ s.jobOf 1 = some job0 ∧ s.vFetch 0 0x200040 32 = .wait) ∧
    (let s := { tile 0xC with tier.objs := [] };
      (s.core 0).prog = some prog0 ∧ s.jobOf 1 = some job0 ∧ s.vFetch 0 0x200040 32 = .mapFault 0x200040) ∧
    (let s := tile (word [(0, 0xD)]); s.fetched 0 (word [(0, 0xD)]) prog0 job0 ∧ 0xC < fieldOf (word [(0, 0xD)]) 0 1) ∧
    (let e := word [(0, 1), (16, 64)]; (tile e).fetched 0 e prog0 job0 ∧ fieldOf e 0 1 = 1 ∧ loadLegal e = false) ∧
    (let e := word [(0, 1), (12, 0x80000), (16, 64), (20, 1)];
      (tile e).fetched 0 e prog0 job0 ∧ loadLegal e = true ∧ prog0.overRows [loadDst e] = 1) :=
  ⟨by decide +kernel, by decide +kernel, by decide +kernel, by decide +kernel, by decide +kernel, by decide +kernel,
    meets (by decide +kernel), meets (by decide +kernel), meets (by decide +kernel)⟩

theorem witness_LoadsAndStoresMoveRows :
    ((tile loadWord).fetched 0 loadWord prog0 job0 ∧ fieldOf loadWord 0 1 = 1 ∧ loadLegal loadWord = true ∧
      prog0.overRows [loadDst loadWord] = 0 ∧ (tile loadWord).checkWait 0 [] [loadDst loadWord] = false ∧
      (tile loadWord).collWait 0 (fieldOf loadWord 4 8) (loadSpan loadWord) = false ∧ ((tile loadWord).core 0).inbound = [] ∧
      (loadDst loadWord).apart ∧
      (readRuns 0 ((List.range (fieldOf loadWord 20 2)).map fun i => (fieldOf loadWord 4 8 + i * fieldOf loadWord 24 4, fieldOf loadWord 16 4))
        (tile loadWord)).isSome = true) ∧
    (let s := tile loadWord; 0x201000 % pageBytes + 64 ≤ pageBytes ∧ s.portMet 0 0x201000 64 = none ∧
      s.place 0 0x201000 = .hbm (4 * pageBytes + 0x1000) true ∧ s.poisoned (4 * pageBytes + 0x1000) 64 = false) ∧
    ((tile storeWord).fetched 0 storeWord prog0 job0 ∧ fieldOf storeWord 0 1 = 2 ∧ storeLegal storeWord = true ∧
      bit (fieldOf storeWord 1 1) 1 = false ∧ prog0.overRows [storeSrc storeWord, storeDst storeWord] = 0 ∧
      (tile storeWord).checkWait 0 [storeSrc storeWord] [storeDst storeWord] = false ∧ (storeDst storeWord).apart) ∧
    ((tile storeMem).fetched 0 storeMem prog0 job0 ∧ fieldOf storeMem 0 1 = 2 ∧ storeLegal storeMem = true ∧
      bit (fieldOf storeMem 1 1) 1 = true ∧ prog0.overRows [storeSrc storeMem] = 0 ∧
      (tile storeMem).checkWait 0 [storeSrc storeMem] [] = false ∧
      (tile storeMem).collWait 0 (storeDst storeMem).addr ((storeDst storeMem).stop - (storeDst storeMem).addr) = false ∧
      (tile storeMem).queueReads 0 (storeDst storeMem).addr ((storeDst storeMem).stop - (storeDst storeMem).addr) = false ∧
      (storeFmts storeMem).1 = (storeFmts storeMem).2 ∧
      (writeRuns 0 1 ((List.range (storeDst storeMem).rows).map fun i =>
        ((storeDst storeMem).addr + i * (storeDst storeMem).stride, (tile storeMem).rowAt 0 (storeSrc storeMem) i)) (tile storeMem)).isSome = true) ∧
    (let s := tile storeMem; s.place 0 0x201000 = .hbm (4 * pageBytes + 0x1000) true ∧ s.inBanked (4 * pageBytes + 0x1000) = false ∧
      s.journal 1 (4 * pageBytes + 0x1000) 1 = some s ∧ s.mem.poison = [] ∧ s.mem.fenced = [] ∧ s.mem.orphanCipher = []) ∧
    (portTile.fetched 0 storeCell prog0 job0 ∧ storeLegal storeCell = true ∧ prog0.overRows [storeSrc storeCell] = 0 ∧
      portTile.checkWait 0 [storeSrc storeCell] [] = false ∧
      portTile.collWait 0 (storeDst storeCell).addr ((storeDst storeCell).stop - (storeDst storeCell).addr) = false ∧
      portTile.queueReads 0 (storeDst storeCell).addr ((storeDst storeCell).stop - (storeDst storeCell).addr) = false ∧
      fieldOf storeCell 16 2 = 1 ∧ storeFmts storeCell = (0, 0) ∧ 4 * fieldOf storeCell 18 2 = cellCmdBytes .page ∧
      portTile.portMet 0 (storeDst storeCell).addr (cellCmdBytes .page) = some (.page, some 0) ∧
      (portTile.cell .page 0 0).any (·.busy) = false) ∧
    (let s := { portTile with cells := [⟨.page, 0, 0, 0, [], true, 1, 0⟩] };
      s.fetched 0 storeCell prog0 job0 ∧ (s.cell .page 0 0).any (·.busy) = true) :=
  ⟨meets (by decide +kernel), by decide +kernel, meets (by decide +kernel), meets (by decide +kernel),
    by decide +kernel, meets (by decide +kernel), meets (by decide +kernel)⟩

def addWord : BitVec 256 := word [(0, 5), (1, 1), (4, 0x1000), (8, 0x2000), (12, 0x3000), (16, 2), (18, 4), (20, 16), (24, 16)]

theorem witness_VectorOpsComputeRows :
    (tile addWord).fetched 0 addWord prog0 job0 ∧ fieldOf addWord 0 1 = 5 ∧ vopOp addWord < 0x10 ∧ vopLegal addWord = true ∧
      prog0.overRows (vopOperands addWord) = 0 ∧ (tile addWord).checkWait 0 (vopReads addWord) (vopWrites addWord) = false ∧
      (vopD addWord).apart ∧ vopDstFmt addWord = 0 ∧ vopCommand 0 addWord = .add 0 addWord := meets (by decide +kernel)

def softWord (op : Nat) : BitVec 256 :=
  word [(0, 5), (1, op), (4, 0x1000), (8, 0x2000), (12, 0x3000), (16, 2), (18, 4), (20, 16), (24, 16), (28, 0x3F800000)]

theorem witness_SoftMaximumRows : ∀ op ∈ [0x10, 0x11], (tile (softWord op)).fetched 0 (softWord op) prog0 job0 ∧
    fieldOf (softWord op) 0 1 = 5 ∧ vopOp (softWord op) = op ∧ vopLegal (softWord op) = true ∧
    prog0.overRows (vopOperands (softWord op)) = 0 ∧ (vopB (softWord op)).isSome = true ∧
    (tile (softWord op)).checkWait 0 (vopReads (softWord op)) (vopWrites (softWord op)) = false ∧ (vopD (softWord op)).apart := by
  intro op h
  obtain rfl | rfl : op = 0x10 ∨ op = 0x11 := by simpa using h
  · exact meets (by decide +kernel)
  · exact meets (by decide +kernel)

def expWord : BitVec 256 := word [(0, 6), (1, 0), (4, 0x1000), (8, 0x2000), (12, 8)]
def sincosWord : BitVec 256 := word [(0, 6), (1, 0xA), (4, 0x1000), (8, 0x2000), (12, 2), (16, 0x3000), (20, 1), (21, 1), (24, 16)]

theorem witness_SpecialFunctionsComputeElements :
    ((tile expWord).fetched 0 expWord prog0 job0 ∧ fieldOf expWord 0 1 = 6 ∧ fieldOf expWord 1 1 ≤ 9 ∧ sfuLegal expWord = true ∧
      prog0.overRows (sfuSrc expWord :: sfuDst expWord :: sfuFreq expWord) = 0 ∧ (tile expWord).sfuWait 0 expWord = false) ∧
    ((tile sincosWord).fetched 0 sincosWord prog0 job0 ∧ fieldOf sincosWord 0 1 = 6 ∧ fieldOf sincosWord 1 1 = 0xA ∧
      sfuLegal sincosWord = true ∧ prog0.overRows (sfuSrc sincosWord :: sfuDst sincosWord :: sfuFreq sincosWord) = 0 ∧
      (tile sincosWord).sfuWait 0 sincosWord = false) :=
  ⟨meets (by decide +kernel), meets (by decide +kernel)⟩

def fenceWord : BitVec 256 := word [(0, 0xA), (1, 3)]
def checkWord : BitVec 256 := word [(0, 0xB)]
def endWord : BitVec 256 := word [(0, 0xC)]
def mmaWord : BitVec 256 := word [(0, 3), (1, 0x11), (4, 0x1000), (8, 0x2000), (12, 128), (16, 1), (18, 64), (20, 0xFFFFFFFF)]

/-- A picture of job 1 with no row advanced. -/
def picture : VUnit := ⟨1, .host 0, 0x201000, 0, 0, some 1, 0, false, 0, 0, false, 0, [], 0, false, false, [], false⟩

/-- A tile of an MMA at the check unit. -/
def check0 : Check := ⟨mmaWord, 0, [], 0, [], false, 0, 0, false⟩

/-- The same core with a check under way. -/
def checking (enc : BitVec 256) : State :=
  { tile enc with cores := [(0, { Core.idle with prog := some prog0, checks := [check0] })] }

theorem witness_FenceCheckEnd :
    ((tile fenceWord).fetched 0 fenceWord prog0 job0 ∧ fieldOf fenceWord 0 1 = 0xA ∧ fieldOf fenceWord 1 1 = 3 ∧
      fieldOf fenceWord 2 30 = 0 ∧ (tile fenceWord).coreDrained 0 prog0 = true) ∧
    ((checking fenceWord).fetched 0 fenceWord prog0 job0 ∧ (checking fenceWord).coreDrained 0 prog0 = false) ∧
    ((checking checkWord).fetched 0 checkWord prog0 job0 ∧ fieldOf checkWord 1 3 = 0 ∧ fieldOf checkWord 6 26 = 0 ∧
      ∃ k ∈ ((checking checkWord).core 0).checks, fieldOf checkWord 4 2 = 0) ∧
    (let e := word [(0, 0xB), (4, 2)]; (checking e).fetched 0 e prog0 job0 ∧ fieldOf e 1 3 = 0 ∧ fieldOf e 6 26 = 0 ∧
      ∀ k ∈ ((checking e).core 0).checks, fieldOf e 4 2 ≠ 0 ∧ bit (fieldOf e 4 2) (fieldOf k.enc 3 1 % 16 + k.tile) = false) ∧
    ((tile endWord).fetched 0 endWord prog0 job0 ∧ fieldOf endWord 1 31 = 0 ∧ (tile endWord).coreDrained 0 prog0 = true ∧
      ((tile endWord).setProg 0 { prog0 with retired := true }).allRetired 1 = true ∧ (tile endWord).rowsMissing 1 = false) ∧
    ((checking endWord).fetched 0 endWord prog0 job0 ∧ (checking endWord).coreDrained 0 prog0 = false) ∧
    (let j := { job0 with step := some { step0 with cores := [0, 1], phys := [0, 1] } };
      let s := { tile endWord with
        job.jobs := [j]
        cores := [(0, { Core.idle with prog := some prog0 }), (1, { Core.idle with prog := some { prog0 with rank := 1 } })] };
      s.fetched 0 endWord prog0 j ∧ s.coreDrained 0 prog0 = true ∧ (s.setProg 0 { prog0 with retired := true }).allRetired 1 = false) ∧
    (let s := { tile endWord with vid.streams := [⟨0, 0, 1, pad 64 (leBytes 6 0 ++ leBytes 2 16), true, [picture], none, 0, 0, none, 0, 0, 0, [], [], [], none, none⟩] };
      s.fetched 0 endWord prog0 job0 ∧ s.coreDrained 0 prog0 = true ∧
      (s.setProg 0 { prog0 with retired := true }).allRetired 1 = true ∧ s.rowsMissing 1 = true) := 
  ⟨meets (by decide +kernel), meets (by decide +kernel), meets (by decide +kernel), meets (by decide +kernel), meets (by decide +kernel),
    meets (by decide +kernel), meets (by decide +kernel), meets (by decide +kernel)⟩

/-- A window descriptor of one dimension: 4 pixels of 16 channels, a window of 2, the first output at `start`. -/
def window (op start : Nat) : List Byte :=
  pad 32 ([BitVec.ofNat 8 op, 1, 0, 0, 16, 0, 0, 0] ++ leBytes 4 start ++ leBytes 4 0 ++ leBytes 4 32) ++
    [1, 0, 1, 1, 1, 0, 0, 0] ++ [1, 0, 1, 1, 1, 0, 0, 0] ++ [4, 0, 2, 1, 1, 0, 0, 0] ++ List.replicate 8 0

def convWord (mode weights : Nat) : BitVec 256 :=
  word [(0, 4), (1, 0x11), (2, mode), (4, 0x1000), (8, weights), (12, 0x4000), (20, 0xFFFFFFFF), (24, 2), (26, 32)]

/-- A CONV at core 0 with its window descriptor in the scratchpad. -/
def convTile (enc : BitVec 256) (w : List Byte) : State :=
  { tile enc with cores := [(0, { Core.idle with prog := some prog0, scratch := storeSetRun zeroByte [] 0x4000 w })] }

theorem witness_MatrixTilesAreComputed :
    ((tile mmaWord).fetched 0 mmaWord prog0 job0 ∧ fieldOf mmaWord 0 1 = 3 ∧ mmaLegal mmaWord = true ∧
      (tile mmaWord).planOver 0 1 (mmaPlan mmaWord) prog0 = 0 ∧ (tile mmaWord).mmaWait 0 1 (mmaPlan mmaWord) = false ∧
      (tile mmaWord).guardBad 0 1 (mmaPlan mmaWord) = false) ∧
    (∀ m ∈ [0, 128], let e := convWord m 0x2000; let s := convTile e (window 0 0);
      s.fetched 0 e prog0 job0 ∧ s.convCode 0 e = (if m = 0 then 0x400 else 0x401) ∧
      (prog0.breaks (rowOne false (fieldOf e 12 4) 64)).1 = false ∧ s.convLegal 0 e = true ∧ s.convOver 0 e 1 prog0 = 0 ∧
      (s.convPlan 0 e).empty = false ∧ s.convWait 0 e 1 = false ∧ s.guardBad 0 1 (s.convPlan 0 e) = false) ∧
    (let e := convWord 0 0x2000; let s := convTile e (window 0 9);
      s.fetched 0 e prog0 job0 ∧ s.convCode 0 e = 0x400 ∧ (prog0.breaks (rowOne false (fieldOf e 12 4) 64)).1 = false ∧
      s.convLegal 0 e = true ∧ s.convOver 0 e 1 prog0 = 0 ∧ (s.convPlan 0 e).empty = true ∧
      s.checkWait 0 [rowOne false (fieldOf e 12 4) 64] [] = false) := by
  refine ⟨meets (by decide +kernel), ?_, meets (by decide +kernel)⟩
  intro m h
  obtain rfl | rfl : m = 0 ∨ m = 128 := by simpa using h
  · exact meets (by decide +kernel)
  · exact meets (by decide +kernel)

theorem witness_PoolsReduceTheirTaps : ∀ op ∈ [1, 2], let e := convWord 4 0; let s := convTile e (window op 0);
    s.fetched 0 e prog0 job0 ∧ s.convCode 0 e = 0x401 + op ∧ (prog0.breaks (rowOne false (fieldOf e 12 4) 64)).1 = false ∧
      s.convLegal 0 e = true ∧ s.convOver 0 e 1 prog0 = 0 ∧ (s.convPlan 0 e).rows = .window (windowOf (window op 0)) 0x1000 ∧
      (s.convPlan 0 e).empty = false ∧ hasEpilogue e = false ∧
      s.checkWait 0 (rowOne false (s.convPlan 0 e).desc 64 ::
          (s.convPlan 0 e).actRows 0x1000 (s.convPlan 0 e).aFmt 0 (s.convPlan 0 e).m)
        [rowOne true ((s.convPlan 0 e).first * 16384) ((s.convPlan 0 e).tiles * 16384)] = false := by
  intro op h
  obtain rfl | rfl : op = 1 ∨ op = 2 := by simpa using h
  · exact meets (by decide +kernel)
  · exact meets (by decide +kernel)

/-- A guarded MMA of a pair of formats. -/
def guardedWord (fmts : Nat) : BitVec 256 :=
  word [(0, 3), (1, fmts), (4, 0x1000), (8, 0x2000), (12, 128), (16, 1), (18, 1), (20, 0x5000)]

/-- A guard descriptor with no source but its own operands. -/
def selfGuard : List Byte := pad 64 (List.replicate 12 0 ++ List.replicate 24 0xFF)

/-- A check of that MMA at a rung, with its guard descriptor and the accumulator. -/
def checked (fmts rung : Nat) (guard : List Byte) (acc : Store Byte) (j : Job) : State :=
  { tile 0 with
    job.jobs := [j]
    cores := [(0, { Core.idle with
      prog := some prog0
      checks := [{ check0 with enc := guardedWord fmts, rung := rung }]
      scratch := storeSetRun zeroByte [] 0x5000 guard
      acc := acc })] }

def miss : Store Byte := [(3, 0x3F)]

/-- What holds of each of these checks. -/
abbrev checkMet (s : State) (fmts rung : Nat) (guard : List Byte) (j : Job) : Prop :=
  (s.core 0).checks = [{ check0 with enc := guardedWord fmts, rung := rung }] ∧ (s.core 0).prog = some prog0 ∧ s.jobOf 1 = some j ∧
    s.guardAt 0 (s.planOf 0 (guardedWord fmts)) = some (guardOf guard)

/-- A tile that misses a tolerance of almost nothing by one unit in its last place. -/
def slight : State :=
  let s := checked 0x11 2 selfGuard [(0, 1), (2, 0x80), (3, 0x3F)] job0
  { s.putF F.JOB_GUARD_DEFAULTS_DEFAULT_TOL 0x80 with
    cores := [(0, { s.core 0 with
      scratch := storeSetRun zeroByte (storeSetRun zeroByte (s.core 0).scratch 0x1000 [0x80, 0x3F]) 0x2000 [0x80, 0x3F] })] }

theorem witness_ChecksKeepTheirTiles :
    (let s := checked 0x11 2 selfGuard [] { job0 with phase := .preempted }; checkMet s 0x11 2 selfGuard { job0 with phase := .preempted }) ∧
    (let s := checked 0x11 2 selfGuard [] job0; let x := s.planOf 0 (guardedWord 0x11);
      let n := s.checkNorms 0 x (guardOf selfGuard) { check0 with enc := guardedWord 0x11, rung := 2 } false;
      checkMet s 0x11 2 selfGuard job0 ∧ (n.2 && failsArithmetic x.k x.p n.1) = false ∧ job0.suspect = none ∧ (s.core 0).epilogue = [] ∧
        tileMisses (s.layerSet 1 0).tol n.1 = false) ∧
    (let s := checked 0x22 1 (pad 64 []) miss job0; let x := s.planOf 0 (guardedWord 0x22);
      let n := s.checkNorms 0 x (guardOf (pad 64 [])) { check0 with enc := guardedWord 0x22, rung := 1 } false;
      checkMet s 0x22 1 (pad 64 []) job0 ∧ n.2 = false ∧ tileMisses (s.layerSet 1 0).tol n.1 = true ∧
        nextRung x (some (guardOf (pad 64 []))) 1 = some 2) ∧
    (let s := checked 0x11 2 (pad 64 []) miss job0; let x := s.planOf 0 (guardedWord 0x11);
      let n := s.checkNorms 0 x (guardOf (pad 64 [])) { check0 with enc := guardedWord 0x11, rung := 2 } false;
      checkMet s 0x11 2 (pad 64 []) job0 ∧ n.2 = false ∧ tileMisses (s.layerSet 1 0).tol n.1 = true ∧
        nextRung x (some (guardOf (pad 64 []))) 2 = none) := by decide +kernel

theorem witness_TopMissesOfSelfReferences : let x := slight.planOf 0 (guardedWord 0x11);
    let n := slight.checkNorms 0 x (guardOf selfGuard) { check0 with enc := guardedWord 0x11, rung := 2 } false;
    checkMet slight 0x11 2 selfGuard job0 ∧ n.2 = true ∧ failsArithmetic x.k x.p n.1 = false ∧
      tileMisses (slight.layerSet 1 0).tol n.1 = true ∧ nextRung x (some (guardOf selfGuard)) 2 = none ∧
      (slight.layerSet 1 0).accept = false := by
  refine ⟨by decide +kernel, ?_⟩
  decide +kernel

def scanWord (flags : Nat) : BitVec 256 :=
  word [(0, 7), (1, flags), (4, 0x1000), (8, 0x10000), (12, 0x2000), (16, 0x201000), (24, 1), (26, 1)]

/-- A list header, of queries in BF16, and a list of one page. -/
def scanList : List Byte := pad 64 (leBytes 2 1 ++ [0, 1]) ++ leBytes 4 0

/-- A sealed page of context 0. -/
def page0 : KvPage := { KvPage.free with fill := 256, refs := 1, state := 2, slot := 0 }

/-- Core 0 at a scan of that list, the page unit enabled and page 0 in a state. -/
def scanTile (flags state : Nat) (x : Option Scan) : State :=
  let s := { tile (scanWord flags) with
    img.sections := image
    mem.hbm := storeSetRun zeroByte (tile (scanWord flags)).mem.hbm (4 * pageBytes + 0x1000) scanList
    kv.pages := [(0, { page0 with state := state })]
    kv.refs := [⟨0, 0, 1⟩]
    cores := [(0, { Core.idle with prog := some prog0, scan := x })] }
  let s := (s.putF F.SIL_STATUS_IMAGE_VALID 1).putF F.MEM_TIER_WEIGHTS_VA_VA 0x100000
  ((s.putF F.MEM_KV_CONFIG_ENABLE 1).putF F.MEM_KV_CONFIG_PARTITION 1).putF F.MEM_KV_CONFIG_LOG2_DESC 16

def scanAt (stage : Nat) : Scan := ⟨1, scanList.take 64, [0], [], [0], stage⟩

/-- What both directions of a scan of pinned pages ask. -/
abbrev scanMet (e : BitVec 256) (s : State) : Prop :=
  let x := scanAt 2
  let d := kvDim (s.listFmt x.ids)
  fieldOf e 0 1 = 7 ∧ attnLegal e = true ∧ prog0.overRows [attnStats e] = 0 ∧ (s.core 0).scan = some x ∧ realIds x.ids ≠ [] ∧
    (∀ id ∈ realIds x.ids, (s.kvPage (id % 2 ^ 24)).state ≠ 4 ∧ (s.kvPage (id % 2 ^ 24)).state ≠ 5 ∧ (s.kvPage (id % 2 ^ 24)).fill ≤ 256) ∧
    prog0.overRows ((attnUses e x.hdr d).1 ++ (attnUses e x.hdr d).2) = 0 ∧
    s.checkWait 0 (attnUses e x.hdr d).1 (attnUses e x.hdr d).2 = false ∧
    (∀ r ∈ attnRanges e x.hdr, s.collWait 0 r.1 r.2 = false) ∧ hdrWrite x.hdr = false ∧ hdrRead x.hdr = false ∧
    (attnOut e d).overlaps (attnStats e) = false ∧ x.ids.length ≤ attnPages e

theorem witness_ListsArePinnedAndScanned :
    (∀ f ∈ [0, 4], let e := scanWord f; let s := scanTile f 2 none;
      s.fetched 0 e prog0 job0 ∧ fieldOf e 0 1 = 7 ∧ attnBack e = decide (f = 4) ∧ attnLegal e = true ∧ prog0.overRows [attnStats e] = 0 ∧
      (s.core 0).scan = none ∧ s.kvPart.isSome = true ∧ attnList e % 64 = 0 ∧
      (match s.vRead 0 (attnList e) 64 with
        | .ok (h, s1) => hdrOk e h && !hdrSelect h && (attnRanges e h).all (fun r => !s.collWait 0 r.1 r.2) &&
          match s1.vRead 0 (attnList e + 64) (4 * attnPages e) with
          | .ok (es, s2) => decide (s2.judgeList 0 (wordsOf es) = .ok) && (s2.pinShort (wordsOf es)).isNone
          | _ => false
        | _ => false) = true) ∧
    ((scanTile 0 2 (some (scanAt 2))).fetched 0 (scanWord 0) prog0 job0 ∧ attnBack (scanWord 0) = false ∧
      scanMet (scanWord 0) (scanTile 0 2 (some (scanAt 2)))) ∧
    ((scanTile 4 2 (some (scanAt 2))).fetched 0 (scanWord 4) prog0 job0 ∧ attnBack (scanWord 4) = true ∧
      scanMet (scanWord 4) (scanTile 4 2 (some (scanAt 2)))) ∧
    ((scanTile 0 2 (some (scanAt 0))).fetched 0 (scanWord 0) prog0 job0 ∧
      ((scanTile 0 2 (some (scanAt 0))).core 0).scan = some (scanAt 0) ∧ (scanAt 0).stage = 0) ∧
    ((scanTile 0 5 (some (scanAt 2))).fetched 0 (scanWord 0) prog0 job0 ∧
      ∃ id ∈ realIds (scanAt 2).ids, ((scanTile 0 5 (some (scanAt 2))).kvPage (id % 2 ^ 24)).state = 5) ∧
    (let s := { scanTile 0 2 (some (scanAt 0)) with kv.asked := [0] };
      s.kv.asked.find? (fun c => c / 272 == 0 / 272) = some 0 ∧ (s.core 0).scan = some (scanAt 0) ∧ (s.core 0).prog = some prog0) := by
  refine ⟨?_, meets (by decide +kernel), meets (by decide +kernel), meets (by decide +kernel), meets (by decide +kernel), by decide +kernel⟩
  intro f h
  obtain rfl | rfl : f = 0 ∨ f = 4 := by simpa using h
  · exact meets (by decide +kernel)
  · exact meets (by decide +kernel)

/-- A program with one halo buffer of 256 bytes, of a job of two ranks. -/
def haloProg : Program := { prog0 with halos := 1, halo := [⟨0x8000, 0x100⟩] }
def job2 : Job := { job0 with coresWanted := 2, step := some { step0 with cores := [0, 1], phys := [0, 1] } }
def putWord : BitVec 256 := word [(0, 8), (4, 1), (8, 0x1000), (12, 64), (16, 1), (20, 64)]
def waitWord : BitVec 256 := word [(0, 8), (2, 1), (12, 64)]
def put0 (size : Nat) : MeshPut := ⟨1, 0, 0, 1, 0, 0, List.replicate size 1⟩

def haloTile (enc : BitVec 256) (count size : Nat) : State :=
  { tile enc with
    job.jobs := [job2]
    job.puts := [put0 size]
    cores := [(0, { Core.idle with prog := some haloProg, halo := [count, 0, 0, 0] }),
      (1, { Core.idle with prog := some { haloProg with rank := 1 } })] }

theorem witness_HaloBytesArrive :
    ((haloTile putWord 0 64).fetched 0 putWord haloProg job2 ∧ fieldOf putWord 0 1 = 8 ∧ fieldOf putWord 2 1 = 0 ∧
      haloLegal putWord job2.coresWanted = true ∧ haloProg.overRows [putSrc putWord] = 0 ∧
      (haloTile putWord 0 64).checkWait 0 [putSrc putWord] [] = false) ∧
    (∀ n ∈ [64, 63], let s := haloTile waitWord n 64;
      s.fetched 0 waitWord haloProg job2 ∧ fieldOf waitWord 0 1 = 8 ∧ fieldOf waitWord 2 1 = 1 ∧ haloLegal waitWord job2.coresWanted = true ∧
      haloProg.haloBreaks (fieldOf waitWord 1 1) = false ∧
      s.checkWait 0 [] [rowOne false (haloProg.haloBuf (fieldOf waitWord 1 1)).addr (haloProg.haloBuf (fieldOf waitWord 1 1)).size] = false ∧
      (s.core 0).inbound = [] ∧ s.haloCount 0 (fieldOf waitWord 1 1) = n ∧ fieldOf waitWord 12 4 = 64) ∧
    (let s := { haloTile putWord 0 64 with job.jobs := [{ job2 with phase := .preempted }] };
      s.job.puts.find? (fun q => s.rankCore q.job q.dest == some 1) = some (put0 64) ∧ s.runsJob 1 1 = none) ∧
    (let s := haloTile putWord 0 256; let g := { haloProg with rank := 1 };
      s.job.puts.find? (fun q => s.rankCore q.job q.dest == some 1) = some (put0 256) ∧ s.runsJob 1 1 = some g ∧
      g.haloBreaks 0 = false ∧ (put0 256).offset + (put0 256).data.length ≤ (g.haloBuf 0).size ∧ (s.core 1).inbound = [] ∧
      (put0 256).buf < (s.core 1).halo.length) ∧
    (let s := haloTile putWord 0 257; let g := { haloProg with rank := 1 };
      s.job.puts.find? (fun q => s.rankCore q.job q.dest == some 1) = some (put0 257) ∧ s.runsJob 1 1 = some g ∧
      (g.haloBuf 0).size < (put0 257).offset + (put0 257).data.length ∧ s.jobOf 1 = some job2) := by
  refine ⟨meets (by decide +kernel), ?_, by decide +kernel, by decide +kernel, by decide +kernel⟩
  intro n h
  obtain rfl | rfl : n = 64 ∨ n = 63 := by simpa using h
  · exact meets (by decide +kernel)
  · exact meets (by decide +kernel)

/-- A barrier instruction of identifier 5 with its descriptor at 0x600000, in the LLM. -/
def syncWord (kind : Nat) : BitVec 256 := word [(0, 0xA), (1, kind), (4, 5), (8, 0x600000)]

/-- A group of this member alone: ranks `mask` of the step, its member list at 0x601000. -/
def groupBytes (mask : Nat) : List Byte :=
  pad 0x20 (leBytes 2 1 ++ leBytes 2 0 ++ leBytes 4 0 ++ leBytes 4 1 ++ leBytes 1 2 ++ List.replicate 3 0 ++ leBytes 4 0 ++ leBytes 4 0 ++
    leBytes 8 0x601000) ++ pad 128 (leBytes 1 mask)

/-- An object of that group. -/
def sync0 (ranks arrived : List Nat) (phase : Nat) (run : Option CollRun) : SyncObj :=
  ⟨0, 0, 1, 5, 0x600000, 1, 2, 0, 0, 0, false, 0x601000, ranks, none, [], phase, arrived, [], false, true, none, 0, false, 0, [], [], false, 0,
    run, false⟩

/-- Core 0 at an instruction, the group's descriptor in memory, with objects and a program. -/
def syncTile (enc : BitVec 256) (objs : List SyncObj) (g : Program) : State :=
  { tile enc with
    fab.objs := objs
    tier.objs := [obj0, { obj0 with slot := 1, tier := 1, first := 0, va := 0x600000 }]
    mem.llm := storeSetRun zeroByte (storeSetRun zeroByte [] 0 (groupBytes 1)) 0x1000 (leBytes 4 0xFFFFF)
    cores := [(0, { Core.idle with prog := some g })] }

/-- What an instruction on a bound object meets. -/
abbrev boundMet (e : BitVec 256) (g : Program) (s : State) (o : SyncObj) : Prop :=
  fieldOf e 0 1 = 0xA ∧ syncLegal e = true ∧ g.slotOver (fieldOf e 4 2) = 0 ∧ s.boundTo 0 1 (fieldOf e 4 2) = some o ∧
    s.syncAt o.index = some o ∧ o.desc = fieldOf e 8 8 ∧ g.rank ∈ o.ranks

theorem ranks_of_one : maskRanks 1 = [0] := by
  have h : List.range 1024 = 0 :: (List.range 1023).map Nat.succ := List.range_succ_eq_map (n := 1023)
  have e : ∀ i, bit 1 (i + 1) = false := fun i => by
    have : 1 / 2 ^ (i + 1) = 0 := Nat.div_eq_of_lt (Nat.one_lt_two_pow (by omega))
    simp [bit, this]
  rw [maskRanks, h, List.filter_cons, if_pos (by decide), List.cons.injEq, List.filter_eq_nil_iff]
  refine ⟨rfl, fun i hi => ?_⟩
  obtain ⟨k, -, rfl⟩ := List.mem_map.mp hi
  simp [e]

theorem group_of_one : groupForm false (groupBytes 1) = true := by
  have h : leAt (groupBytes 1) 0x20 128 = 1 := by decide +kernel
  simp only [groupForm, h, ranks_of_one]
  decide +kernel

theorem group_good (s : State) : s.groupBad 0 1 5 0x600000 0 (groupBytes 1) = false := by
  have h1 : leAt (groupBytes 1) 8 4 = 1 := by decide +kernel
  have h2 : bit (leAt (groupBytes 1) 0x20 128) 0 = true := by decide +kernel
  simp [State.groupBad, group_of_one, h1, h2]

/-- A read that gives certain bytes, and a second one. -/
def readsTwo (s : State) (ctx a n : Nat) (bs : List Byte) (b m : Nat) (cs : List Byte) : Bool :=
  match s.vRead ctx a n with
  | .ok (x, t) => x == bs && match t.vRead ctx b m with
    | .ok (y, _) => y == cs
    | _ => false
  | _ => false

theorem reads_of {s : State} {ctx a n b m : Nat} {bs cs : List Byte} (h : readsTwo s ctx a n bs b m cs = true) :
    ∃ s1 s2, s.vRead ctx a n = .ok (bs, s1) ∧ s1.vRead ctx b m = .ok (cs, s2) := by
  simp only [readsTwo] at h
  split at h
  · rename_i x t e
    simp only [Bool.and_eq_true, beq_iff_eq] at h
    obtain ⟨rfl, h⟩ := h
    split at h
    · rename_i y u e2
      obtain rfl : y = cs := by simpa using h
      exact ⟨_, _, e, e2⟩
    · cases h
  · cases h

theorem witness_BarriersArriveAndRelease :
    (let e := syncWord 1; let s := syncTile e [] prog0;
      s.fetched 0 e prog0 job0 ∧ fieldOf e 0 1 = 0xA ∧ fieldOf e 1 1 = 1 ∧ syncLegal e = true ∧ prog0.slotOver (fieldOf e 4 2) = 0 ∧
      s.boundTo 0 1 (fieldOf e 4 2) = none ∧ prog0.arrived = [] ∧ job0.step = some step0 ∧
      (s.fab.objs.filter (·.job == 1)).length < 2 * step0.cores.length ∧
      readsTwo s 0 (fieldOf e 8 8) 160 (groupBytes 1) 0x601000 4 (leBytes 4 0xFFFFF) = true ∧ leAt (groupBytes 1) 8 4 = 1 ∧
      leAt (groupBytes 1) 0x18 8 = 0x601000 ∧ leNat (leBytes 4 0xFFFFF) = s.deviceId + 0 * 2 ^ 20) ∧
    (let e := syncWord 0; let o := sync0 [0, 1] [0] 0 none; (syncTile e [o] prog0).fetched 0 e prog0 job0 ∧
      boundMet e prog0 (syncTile e [o] prog0) o ∧ prog0.rank ∈ o.arrived) ∧
    (let e := syncWord 0; let o := sync0 [0, 1] [] 0 none; (syncTile e [o] prog0).fetched 0 e prog0 job0 ∧
      boundMet e prog0 (syncTile e [o] prog0) o ∧ prog0.rank ∉ o.arrived ∧ o.arrived.length + 1 < o.ranks.length) ∧
    (let e := syncWord 0; let o := sync0 [0, 1] [1] 0 none; (syncTile e [o] prog0).fetched 0 e prog0 job0 ∧
      boundMet e prog0 (syncTile e [o] prog0) o ∧ prog0.rank ∉ o.arrived ∧ o.arrived.length + 1 = o.ranks.length) ∧
    (∀ ph ∈ [0, 1], let e := syncWord 1; let o := sync0 [0, 1] [] ph none; let g := { prog0 with arrived := [(5, 0)], named := [5] };
      (syncTile e [o] g).fetched 0 e g job0 ∧ boundMet e g (syncTile e [o] g) o ∧
      g.arrived.find? (fun e => e.1 == o.ident) = some (o.ident, 0) ∧ (0 < o.phase ↔ ph = 1)) ∧
    (let e := syncWord 2; let o := sync0 [0] [] 0 none; (syncTile e [o] prog0).fetched 0 e prog0 job0 ∧
      boundMet e prog0 (syncTile e [o] prog0) o ∧ prog0.await = none ∧ o.ranks = [prog0.rank]) ∧
    (let e := syncWord 2; let o := sync0 [0, 1] [] 0 none; (syncTile e [o] prog0).fetched 0 e prog0 job0 ∧
      boundMet e prog0 (syncTile e [o] prog0) o ∧ prog0.await = none ∧ prog0.rank ∉ o.arrived ∧ o.arrived.length + 1 < o.ranks.length) ∧
    (let e := syncWord 2; let o := sync0 [0, 1] [] 1 none; let g := { prog0 with await := some (0, 0), named := [5] };
      let s := syncTile e [o] g; s.fetched 0 e g job0 ∧ boundMet e g s o ∧
      g.await = some (s.getF (F.JOB_CORE_PROGRAM_NEXT 0), 0) ∧ 0 < o.phase) ∧
    (let e := syncWord 0; let o := { sync0 [1] [] 0 none with desc := 0x602000 }; let s := syncTile e [o] prog0;
      s.fetched 0 e prog0 job0 ∧ s.boundTo 0 1 (fieldOf e 4 2) = some o ∧ o.desc ≠ fieldOf e 8 8 ∧ prog0.rank ∉ o.ranks) := by
  refine ⟨meets (by decide +kernel), meets (by decide +kernel), meets (by decide +kernel), meets (by decide +kernel), ?_,
    meets (by decide +kernel), meets (by decide +kernel), meets (by decide +kernel), meets (by decide +kernel)⟩
  intro ph h
  obtain rfl | rfl : ph = 0 ∨ ph = 1 := by simpa using h
  · exact meets (by decide +kernel)
  · exact meets (by decide +kernel)

/-- An ALL_REDUCE of 16 FP32 words on identifier 5. -/
def collWord (count : Nat) : BitVec 256 := word [(0, 9), (4, 0x204000), (12, 0x205000), (20, count), (24, 5)]

def collProg : Program := { prog0 with named := [5] }

/-- The collective that rank 1 has opened. -/
def run0 (enc : BitVec 256) : CollRun := ⟨0, 0, enc, [⟨1, 1, [], [], 0, []⟩], false, [], [], [], false, 0, []⟩

/-- What a COLL on a bound object meets. -/
abbrev collMet (e : BitVec 256) (s : State) (o : SyncObj) : Prop :=
  fieldOf e 0 1 = 9 ∧ collOp e < 5 ∧ collLegal e = true ∧ collProg.slotOver (fieldOf e 24 2) = 0 ∧
    s.boundTo 0 1 (fieldOf e 24 2) = some o ∧ fieldOf e 24 2 ∈ collProg.named ∧
    s.collWait 0 (fieldOf e 4 8) (collSizes e o.size).1 = false ∧ s.collWait 0 (fieldOf e 12 8) (collSizes e o.size).2 = false ∧
    s.queueReads 0 (fieldOf e 12 8) (collSizes e o.size).2 = false

theorem witness_CollectivesJoinTheirGroup :
    (let e := collWord 16; let s := syncTile e [] prog0; s.fetched 0 e prog0 job0 ∧ collLegal e = true ∧
      s.boundTo 0 1 (fieldOf e 24 2) = none) ∧
    (let e := collWord 16; let o := sync0 [0, 1] [] 0 none; let s := syncTile e [o] collProg; s.fetched 0 e collProg job0 ∧
      collMet e s o ∧ o.phase = 0) ∧
    (let e := collWord 16; let o := sync0 [0, 1, 2] [] 1 (some (run0 (collWord 8))); let s := syncTile e [o] collProg;
      s.fetched 0 e collProg job0 ∧ collMet e s o ∧ o.phase ≠ 0 ∧ o.run = some (run0 (collWord 8)) ∧
      (∀ q ∈ (run0 (collWord 8)).parts, q.rank ≠ collProg.rank) ∧ (run0 (collWord 8)).parts.length ≠ o.ranks.length ∧
      sameColl (run0 (collWord 8)).enc e = false) ∧
    (let e := collWord 16; let o := sync0 [0, 1] [] 1 none; let s := syncTile e [o] collProg; s.fetched 0 e collProg job0 ∧
      collMet e s o ∧ s.syncAt o.index = some o ∧ o.phase ≠ 0 ∧ o.run = none ∧ o.members = 1 ∧ o.self = 0 ∧ collProg.rank ∈ o.ranks ∧
      (∃ r ∈ o.ranks, r ≠ collProg.rank) ∧ o.readyRanks = [] ∧
      fieldOf e 4 8 % pageBytes + (collSizes e o.size).1 ≤ pageBytes ∧ s.place 0 (fieldOf e 4 8) = .hbm (4 * pageBytes + 0x4000) true ∧
      s.poisoned (4 * pageBytes + 0x4000) (collSizes e o.size).1 = false ∧ s.mem.orphanCipher = []) :=
  ⟨meets (by decide +kernel), meets (by decide +kernel), meets (by decide +kernel), meets (by decide +kernel)⟩

/-! ## Witnesses: memory -/

/-- The state after the device has readied its write of a range for a command. -/
def ready (s : State) (q : PortCmd) (addr n : Nat) : Option State :=
  match q.uid with
  | some j => if s.inBanked addr then none else s.journal j addr n
  | none => s.journalLoose addr n

theorem ready_of {s u : State} {q : PortCmd} {addr n : Nat} (h : ready s q addr n = some u) : s.deviceReady q addr n u := by
  revert h
  simp only [ready, State.deviceReady]
  cases q.uid with
  | some j => split <;> simp_all
  | none => exact id

theorem foldl_same {s : State} {l : List Nat} {f : State → Nat → State} (h : ∀ i ∈ l, f s i = s) : l.foldl f s = s := by
  induction l with
  | nil => rfl
  | cons a t ih => rw [List.foldl_cons, h a (by simp)]; exact ih fun i hi => h i (by simp [hi])

/-- A page command of its fields. -/
def kvCmd (op slot page word2 : Nat) : Nat := op + slot * 2 ^ 8 + page * 2 ^ 32 + word2 * 2 ^ 64

/-- The page unit with four descriptors, a command at cell 0 of context 0's port and at its registers. -/
def kvState (cmd : Nat) (pages : Store KvPage) (refs : List KvRef) : State :=
  let s := { dev 3 with
    img.sections := image
    job.jobs := [job0]
    cells := [⟨.page, 0, 0, cmd, [], true, 1, 0⟩]
    hostCmds := [⟨.page, 0, cmd⟩]
    kv.pages := pages
    kv.refs := refs }
  let s := (s.putF F.SIL_STATUS_IMAGE_VALID 1).putF F.MEM_KV_CONFIG_ENABLE 1
  let s := (s.putF F.MEM_KV_CONFIG_PARTITION 1).putF F.MEM_KV_CONFIG_LOG2_DESC 2
  ((s.putF F.REL_UNDO_CONFIG_ENABLE 1).putF F.REL_UNDO_CONFIG_PARTITION 1).putF F.REL_UNDO_CONFIG_PAGES 1

def kvCell (cmd : Nat) : Cell := ⟨.page, 0, 0, cmd, [], true, 1, 0⟩
def atHost (cmd : Nat) : PortCmd := ⟨.page, 0, cmd, none⟩
def atCell (cmd : Nat) : PortCmd := ⟨.page, 0, cmd, some (kvCell cmd)⟩

/-- A page that is written, with slot 0; the same sealed. -/
def writable : KvPage := { KvPage.free with address := 1030 * pageBytes, summary := 1040 * pageBytes, refs := 1, state := 1, slot := 0 }
def sealed (refs : Nat) : KvPage := { writable with refs := refs, state := 2, slot := 0xFF, fill := 256 }

/-- A sealed page outside every partition, and a COPY of it where no LLM bank caches. -/
def source : KvPage := { sealed 1 with address := 100 * pageBytes }
def copying : State :=
  (List.range 4).foldl (fun s d => s.setReg (F.MEM_LLM_SCRATCH_MASK d).off 0xFFFFFFFF) (kvState (kvCmd 5 1 0 0) [(0, source)] [⟨0, 0, 1⟩])

theorem copying_touch : copying.touch source.address (kvPageBytes 0) false = copying := by
  rw [State.touch, if_neg (by decide)]
  exact foldl_same (by decide +kernel)

theorem copying_read : (copying.hbmRead source.address (kvPageBytes 0)).2 = copying := by
  simp only [State.hbmRead, State.openRange]
  exact if_pos (by decide +kernel)

theorem witness_PageCommandsServeTheirSlots :
    (let s := (kvState (kvCmd 1 0 0 0) [] []).putF F.MEM_KV_CONFIG_ENABLE 0;
      s.portCmd .page (.host 0) = some (atHost (kvCmd 1 0 0 0)) ∧ (atHost (kvCmd 1 0 0 0)).op = 1 ∧ s.kvPart.isNone = true ∧
      s.portCmd .page (.cell 0 0) = some (atCell (kvCmd 1 0 0 0)) ∧ s.jobOf 1 = some job0) ∧
    (let s := kvState (kvCmd 5 64 0 0) [] []; s.portCmd .page (.host 0) = some (atHost (kvCmd 5 64 0 0)) ∧
      s.kvPart.isSome = true ∧ kvForm (atHost (kvCmd 5 64 0 0)) = false) ∧
    (let c := kvCmd 1 63 0 256; let s := kvState c [] []; s.portCmd .page (.cell 0 0) = some (atCell c) ∧ (atCell c).op = 1 ∧
      s.kvPart.isSome = true ∧ kvForm (atCell c) = true ∧ s.kvSlot 0 63 = none ∧ s.overQuota 0 2 (kvPageBytes 0 + 264 + 8) = false ∧
      (s.kvJournal 0).length < journalMax ∧ ((s.kvSpace 0).bind fun (i, a, _) => (ready s (atCell c) (s.descAddr i) 32).bind fun t =>
        ready t (atCell c) a (kvPageBytes 0)).isSome = true ∧ s.clean) ∧
    (let c := kvCmd 2 0 0 256; let s := kvState c [(0, writable)] []; s.portCmd .page (.cell 0 0) = some (atCell c) ∧ (atCell c).op = 2 ∧
      s.kvPart.isSome = true ∧ kvForm (atCell c) = true ∧ s.slotPage 0 0 = some (0, writable) ∧ writable.state = 1 ∧
      ((ready s (atCell c) (s.descAddr 0) 32).bind fun t => ready t (atCell c) writable.summary 264).isSome = true ∧ s.clean) ∧
    (let c := kvCmd 3 0 0 0; let s := kvState c [(0, sealed 65534)] []; s.portCmd .page (.host 0) = some (atHost c) ∧ (atHost c).op = 3 ∧
      s.kvPart.isSome = true ∧ kvForm (atHost c) = true ∧ s.kvNamed 0 = some (0, sealed 65534) ∧ (sealed 65534).state = 2 ∧
      (sealed 65534).refs < 65535 ∧ s.kvHeld 0 0 < 65535 ∧ (sealed 65534).owner = 0 ∧ (s.kvJournal 0).length < journalMax ∧
      (ready s (atHost c) (s.descAddr 0) 32).isSome = true) ∧
    (let c := kvCmd 4 0 0 0; let s := kvState c [(0, sealed 2)] [⟨0, 0, 1⟩]; s.portCmd .page (.host 0) = some (atHost c) ∧
      (atHost c).op = 4 ∧ s.kvPart.isSome = true ∧ kvForm (atHost c) = true ∧ s.kvHeld 0 0 ≠ 0 ∧ s.kvNamed 0 = some (0, sealed 2) ∧
      (ready s (atHost c) (s.descAddr 0) 32).isSome = true) ∧
    (let c := kvCmd 4 0 0 0; let s := kvState c [] []; s.portCmd .page (.cell 0 0) = some (atCell c) ∧ kvForm (atCell c) = true ∧
      s.kvPart.isSome = true ∧ s.kvHeld 0 0 = 0 ∧ s.jobOf (kvCell c).job = some job0) ∧
    (let c := kvCmd 5 1 0 0;
      let r := (copying.touch source.address (kvPageBytes 0) false).hbmRead source.address (kvPageBytes 0);
      copying.portCmd .page (.cell 0 0) = some (atCell c) ∧ (atCell c).op = 5 ∧ copying.kvPart.isSome = true ∧ kvForm (atCell c) = true ∧
      copying.kvSlot 0 1 = none ∧ copying.kvHeld 0 0 ≠ 0 ∧ copying.kvNamed 0 = some (0, source) ∧ source.state = 2 ∧ source.pins < 65535 ∧
      copying.clean ∧ r.2.overQuota 0 2 (kvPageBytes 0 + 264 + 8) = false ∧ (r.2.kvJournal 0).length < journalMax ∧
      ((r.2.kvSpace 0).bind fun (i, a, _) => (ready r.2 (atCell c) (r.2.descAddr i) 32).bind fun t =>
        ready t (atCell c) a (kvPageBytes 0)).isSome = true) ∧
    (let s := { kvState 0 [(0, sealed 1)] [] with kv.pinWaits := [(0, .kvAlloc (.host 0))] }; (∃ w ∈ s.kv.pinWaits, w.1 = 0) ∧
      (s.kvPage 0).pins < 65535) := by
  refine ⟨by decide +kernel, by decide +kernel, by decide +kernel, by decide +kernel, by decide +kernel, by decide +kernel,
    by decide +kernel, ?_, by decide +kernel⟩
  simp only [copying_touch, copying_read]
  decide +kernel

/-- A cache line of die 0, clean. -/
def line0 : CacheLine := ⟨0, 7, 0, false⟩

/-- The island of stack 7 on, and the debug facility of the generators open. -/
def testing : State := { dev 3 with sec.tokens := [⟨0, 2, 0, 1⟩] }.putF (F.PWR_ISL_STATE_STATE 1195) 1

theorem witness_MemoryIsPatrolledAndTested :
    8 * 2 ^ 36 - 64 < 8 * 2 ^ 36 ∧ rst.pchOf (8 * 2 ^ 36 - 64) < 512 ∧ rst.rowErrors rst.mem.ceRows (rst.pchOf 0) 0 < 3 ∧
    (let s := { rst with mem.cache := [line0] }; s.mem.cache.find? (fun y => y.die == 0 && y.line == 7) = some line0 ∧ line0.dirty = false) ∧
    (withImage (dev 3)).stackUsed 7 = true ∧ ((dev 3).putF (F.MEM_STACK_STATUS_MODE 7) 2).stackUsed 7 = false ∧
    (let s := { rst with mem.buckets := [⟨15, 7, -1⟩] }; ∃ b ∈ s.mem.buckets, b.part = 15 ∧ b.level < 0) ∧
    (testing.denied .host (R.DBG_TG_CONTROL 511) = false ∧ testing.regDown (R.DBG_TG_CONTROL 511) = false ∧ bit (1 : Word).toNat 0 = true) ∧
    ((dev 3).putF (F.DBG_TG_STATUS_STATE 511) 1).getF (F.DBG_TG_STATUS_STATE 511) = 1 ∧ rst.getF (F.DBG_TG_STATUS_STATE 511) ≠ 1 := by
  decide +kernel

/-- The windows up, BAR4 of 1 GiB, one page of HBM in four ways: beyond, the weights', a tagged context's, and one that is free. -/
def windows (base : Nat) : State := { (withImage (dev 3)).putP P.GLB_BAR4_BASE base with host.bar4GiB := 1 }

theorem witness_WindowsReachMemory :
    (rst.barsUp = false ∧ 2 ^ 30 - 1 + 1 ≤ 2 ^ 30) ∧ ((dev 3).barsUp = true ∧ (dev 3).poisoned 0 8 = false ∧ (dev 3).mem.orphanCipher = []) ∧
    (let s := { dev 3 with mem.poison := [(0, true)] }; s.barsUp = true ∧ s.poisoned 0 8 = true) ∧ (dev 3).clean ∧
    ((windows 0).inBar4 (2 ^ 30 - 8) 8 = true ∧ (windows 0).barsUp = true ∧ rst.inBar4 0 0 = true) ∧
    (windows (4096 * pageBytes - 7)).bar4 (4096 * pageBytes - 7) 8 false = .beyond ∧
    (windows (4096 * pageBytes - 7)).bar4 (4096 * pageBytes - 7) 8 true = .beyond ∧
    (windows 0).bar4 0 8 false = .reserved ∧ (windows 0).bar4 0 8 true = .reserved ∧
    (let s := { windows (1024 * pageBytes) with mem.tags := [(1024, 0)] };
      s.bar4 (1024 * pageBytes) 8 false = .tagged ∧ s.bar4 (1024 * pageBytes) 8 true = .tagged) ∧
    (windows (1024 * pageBytes)).bar4 (1024 * pageBytes) 8 false = .serve ∧ (windows (1024 * pageBytes)).bar4 (1024 * pageBytes) 8 true = .serve := by
  decide +kernel

/-! ## Witnesses: tiers and flash -/

/-- The structure with a third partition of 64 pages. -/
def image3 : List Section :=
  image.map fun x => if x.typ = 5 then sec 5 (x.data ++ pad 32 (leBytes 4 2048 ++ leBytes 4 64 ++ leBytes 2 64 ++ leBytes 2 16 ++ leBytes 2 1 ++ leBytes 1 0xFF)) else x

/-- A tier command of its fields. -/
def tierCmd (op flags part pages handle va name : Nat) : Nat :=
  op + flags * 2 ^ 8 + part * 2 ^ 16 + pages * 2 ^ 32 + handle * 2 ^ 64 + va * 2 ^ 128 + name * 2 ^ 192

/-- The tier manager with eight slots and a GiB of flash, and a host command of context 0. -/
def tierState (cmd : Nat) (objs : List TierObj) : State :=
  let s := { dev 3 with
    img.sections := image3
    hostCmds := [⟨.tier, 0, cmd⟩]
    tier.objs := objs }.setCtx 0 { Ctx.fresh with partitions := 4 }
  let s := (s.putF F.SIL_STATUS_IMAGE_VALID 1).putF F.MEM_TIER_CONFIG_ENABLE 1
  ((s.putF F.MEM_TIER_CONFIG_PARTITION 1).putF F.MEM_TIER_CONFIG_LOG2_OBJ 3).putF F.MEM_FLASH_CAPACITY_GIB 1

def tierHost (cmd : Nat) : PortCmd := ⟨.tier, 0, cmd, none⟩

/-- A tier-3 object of one unit in slot 1, with a pin of context 0 where it is pinned. -/
def stored (resid : Residency) (pins : List Pin) : TierObj :=
  { obj0 with slot := 1, tier := 3, va := 0, mapped := false, resid := resid, copyPart := 2, copyPage := 2048, pins := pins }

def pin0 : Pin := ⟨0, 0x200000, true⟩
def handle3 : Nat := 3 * 2 ^ 62 + 1
def kept0 : Kept := ⟨9, 1, false, false, [], false, false, false⟩

/-- A host command that waits, is in form and meets a manager that serves. -/
abbrev tierMet (s : State) (op cmd : Nat) : Prop :=
  s.portCmd .tier (.host 0) = some (tierHost cmd) ∧ (tierHost cmd).op = op ∧ s.tierOn = true ∧ s.tierForm (tierHost cmd) = true

theorem witness_TierCommandsServeTheirObjects :
    (let c := tierCmd 9 0 0 0 0 0 0; rst.tierOn = false ∧
      { rst with hostCmds := [⟨.tier, 0, c⟩] }.portCmd .tier (.host 0) = some (tierHost c) ∧ (tierHost c).op = 9 ∧
      (tierState c []).portCmd .tier (.host 0) = some (tierHost c) ∧ (tierState c []).tierOn = true ∧ (tierState c []).tierForm (tierHost c) = false) ∧
    (let c := tierCmd 2 0 0 0 handle3 0 0; tierMet (tierState c []) 2 c ∧ (tierState c []).pick (tierHost c) true = .code Code.BUF_STALE) ∧
    (let c := tierCmd 3 0 2 0 handle3 0 0; let o := { stored .absent [] with owner := 1 }; tierMet (tierState c [o]) 3 c ∧
      (tierState c [o]).pick (tierHost c) false = .code Code.BUF_NOT_OWNER) ∧
    (let c := tierCmd 1 2 2 1 0 0x40000000 0; let q := tierHost c; let s := tierState c []; tierMet s 1 c ∧ s.allocAllowed q = true ∧
      s.overQuota 0 q.tier (q.pages * pageBytes) = false ∧ s.vaOverlaps 0 q.va q.pages = false ∧ s.freeObjSlot = some 0 ∧
      ((s.tierSpace q).bind fun (_, t) => ready t q (t.slotDesc 0) 32).isSome = true) ∧
    (let c := tierCmd 1 3 0 1 0 0 0; let q := tierHost c; let s := tierState c []; tierMet s 1 c ∧ s.allocAllowed q = true ∧
      s.overQuota 0 q.tier (q.pages * pageBytes) = false ∧ q.tier = 3 ∧ s.freeObjSlot = some 0 ∧
      ((s.tierSpace q).bind fun (_, t) => ready t q (t.slotDesc 0) 32).isSome = true) ∧
    (let c := tierCmd 2 0 0 0 handle3 0 0; let o := stored .resident [pin0]; let s := tierState c [o]; tierMet s 2 c ∧
      s.pick (tierHost c) true = .obj o ∧ s.obj 1 = some o ∧ (∀ p ∈ o.pins, p.ctx = o.owner) ∧
      (ready s (tierHost c) (s.slotDesc 1) 32).isSome = true) ∧
    (let c := tierCmd 4 0 0 0 handle3 0 0; let o := stored .resident [pin0]; let s := tierState c [o]; tierMet s 4 c ∧
      s.pick (tierHost c) false = .obj o ∧ o.pins.find? (fun p => p.ctx == 0 && p.mapped) = some pin0 ∧ o.dying = false ∧
      o.evict = false ∧ (ready s (tierHost c) (s.slotDesc 1) 32).isSome = true) ∧
    (let c := tierCmd 5 0 0 0 handle3 0 0; let o := stored .resident []; let s := tierState c [o]; tierMet s 5 c ∧
      s.pick (tierHost c) true = .obj o ∧ s.flashUsed + o.units ≤ s.flashUnits ∧ s.overAllowance (o.units * pageBytes) = false ∧
      o.fresh = none ∧ s.clean) ∧
    (∀ pins ∈ [[], [pin0]], let c := tierCmd 6 0 0 0 handle3 0 0; let o := stored .resident pins; let s := tierState c [o]; tierMet s 6 c ∧
      s.pick (tierHost c) true = .obj o) ∧
    (let c := tierCmd 7 0 0 0 handle3 0 9; let o := stored .resident []; let s := tierState c [o]; tierMet s 7 c ∧
      s.pick (tierHost c) true = .obj o ∧ o.pins = [] ∧ s.keptNamed 9 = none ∧ s.tier.kept.length < 4096) ∧
    (let c := tierCmd 3 0 2 0 handle3 0x40000000 0; let q := tierHost c; let o := stored .absent []; let s := tierState c [o]; tierMet s 3 c ∧
      s.pick q false = .obj o ∧ s.overQuota 0 2 (o.units * pageBytes) = false ∧ s.vaOverlaps 0 q.va o.units = false ∧
      s.copyPartOk q.part = true ∧ ((s.spaceFor q.part o.units).bind fun (_, t) => ready t q (t.slotDesc 1) 32).isSome = true) ∧
    (let c := tierCmd 3 0 2 0 handle3 0x40000000 0; let q := tierHost c; let o := stored .resident [pin0]; let s := tierState c [o];
      tierMet s 3 c ∧ s.pick q false = .obj o ∧ s.vaOverlaps 0 q.va o.units = false ∧ (ready s q (s.slotDesc 1) 32).isSome = true) ∧
    (let c := tierCmd 3 0 2 0 handle3 0 0; let o := stored .lost []; tierMet (tierState c [o]) 3 c ∧
      (tierState c [o]).pick (tierHost c) false = .obj o) ∧
    (let c := tierCmd 8 0 0 0 0 0 9; let s := { tierState c [] with tier.kept := [kept0] }; tierMet s 8 c ∧
      s.tier.kept.find? (fun k => k.name == 9 && !k.pending && !k.adopting) = some kept0 ∧ kept0.priv = false ∧
      s.overQuota 0 3 (kept0.units * pageBytes) = false ∧ s.freeObjSlot = some 0 ∧ (ready s (tierHost c) (s.slotDesc 0) 32).isSome = true) ∧
    (let c := tierCmd 9 0 0 0 0 0 9; tierMet (tierState c []) 9 c) ∧
    (let o := stored .promoting [pin0]; let s := tierState 0 [o]; s.obj 1 = some o ∧ o.resid = .promoting ∧ o.evict = false ∧
      storeWf zeroByte o.data = true ∧ (s.journalLoose (o.copyPage * pageBytes) (o.units * pageBytes)).isSome = true) ∧
    (let r : Running := ⟨1, true, .host 0, 0, none, handle3⟩; let s := { rst with tier.running := [r] };
      s.tier.running.find? (fun r => r.slot == 1 && r.writeBack) = some r ∧ (∃ x ∈ s.tier.running, x.via = .host 0) ∧
      .host 0 ∉ s.tier.late ∧ .host 0 ∈ { s with tier.late := [.host 0] }.tier.late) := by
  refine ⟨by decide +kernel, by decide +kernel, by decide +kernel, by decide +kernel, by decide +kernel, by decide +kernel,
    by decide +kernel, by decide +kernel, by decide +kernel, by decide +kernel, by decide +kernel, by decide +kernel, by decide +kernel,
    by decide +kernel, by decide +kernel, by decide +kernel, by decide +kernel⟩

/-- A weights' page that is poisoned, with the golden copy of it. -/
def golden (match_ state : Nat) : State :=
  let s := { withImage (dev 3) with mem.poison := [(512 * pageBytes / 64, true)], tier.goldenPages := [0] }
  (s.putF F.MEM_GOLDEN_STATUS_MODEL_MATCH match_).putF F.MEM_GOLDEN_STATUS_STATE state

theorem witness_FlashAndGoldenCopy :
    (let s := (dev 3).putF F.MEM_FLASH_CAPACITY_GIB 1; s.getF F.MEM_FLASH_CAPACITY_GIB ≠ 0 ∧ 5 ∉ s.tier.retiredBlocks) ∧
    (rst.weights = none ∧ (golden 1 2).goldenBusy = true ∧ bit (1 : Word).toNat 0 = true ∧ bit (2 : Word).toNat 0 = false ∧
      bit (2 : Word).toNat 1 = true) ∧
    ((golden 1 1).goldenBusy = false ∧ (golden 1 1).weights.isSome = true ∧ (golden 1 1).weightsBanked = false ∧
      (golden 1 1).getF F.MEM_GOLDEN_STATUS_MODEL_MATCH = 1 ∧ (golden 0 1).getF F.MEM_GOLDEN_STATUS_MODEL_MATCH ≠ 1 ∧
      (golden 0 1).weightsBanked = false) ∧
    (let s := { golden 1 1 with tier.dirty := [(0, true)] }.putF F.MEM_FLASH_ALLOWANCE_GIB 0; s.overAllowance (s.dirtyPages.length * pageBytes) = true ∧
      let t := s.putF F.MEM_FLASH_ALLOWANCE_GIB 1; t.overAllowance (t.dirtyPages.length * pageBytes) = false ∧
        t.flashUnits < t.flashUsed + t.goldenNew ∧
        let u := t.putF F.MEM_FLASH_CAPACITY_GIB 1; u.overAllowance (u.dirtyPages.length * pageBytes) = false ∧
          u.flashUsed + u.goldenNew ≤ u.flashUnits) ∧
    ((golden 1 2).getF F.MEM_GOLDEN_STATUS_STATE = 2 ∧ (golden 1 3).getF F.MEM_GOLDEN_STATUS_STATE = 3 ∧
      storeWf zeroByte (golden 1 3).tier.golden = true) ∧
    (∃ w, (golden 1 1).weights = some w ∧ 0 < w.count ∧ w.first = 512 ∧ (golden 1 1).bankedNow w = false ∧ (golden 1 2).weights = some w ∧
      (golden 1 3).weights = some w) ∧
    (0 ∉ (golden 1 1).dirtyPages ∧ 0 ∈ (golden 1 1).tier.goldenPages ∧ (golden 1 1).job.jobs = [] ∧ (golden 1 1).job.fetching = []) ∧
    ((List.range 512).any fun i => (golden 1 1).poisoned (512 * pageBytes + i * 4096) 4096) = true :=
  ⟨by decide +kernel, by decide +kernel, by decide +kernel, by decide +kernel, by decide +kernel,
    ⟨⟨512, 8, 64, 16, 0x10, 0xFF⟩, by decide +kernel⟩, by decide +kernel, by decide +kernel⟩

/-! ## Witnesses: ports -/

/-- Port 31 with a training state, its island on. -/
def portAt (state : Nat) : State := ((dev 3).putF (F.LNK_PORT_STATUS_STATE 31) state).putF (F.PWR_ISL_STATE_STATE 1187) 1

/-- The same with the port's own state changed. -/
def portWith (state : Nat) (x : Port) : State := (portAt state).setPort 31 x

def cap1 (major : Nat) : BitVec 64 := BitVec.ofNat 64 (16 + 7 * 2 ^ 5 + 3 * 2 ^ 8 + major * 2 ^ 14)

theorem witness_PortsTrainAndGoDown :
    ((portAt 0).portState 31 = 0 ∧ (portAt 0).portFree 31 = true ∧ (portAt 2).portState 31 ≠ 0) ∧
    ((portAt 1).portState 31 = 1 ∧ bits (cap1 1).toNat 17 14 = 1 ∧ bits (cap1 2).toNat 17 14 ≠ 1) ∧
    (let s := (portWith 1 { Port.fresh with gotWord := true }).putP (P.LNK_PORT_CAP_RECEIVED 31) (cap1 1).toNat;
      let w := s.getP (P.LNK_PORT_CAP_RECEIVED 31);
      s.portState 31 = 1 ∧ (s.port 31).gotWord = true ∧ (s.port 31).attempts < 2 ∧
      (laneModes.find? fun m => bit (bits w 7 5) m.1 && bit (bits w 9 8) m.2 && bit 1 (2 * m.1 + m.2)) = some (0, 0) ∧
      (laneModes.find? fun m => bit (bits w 7 5) m.1 && bit (bits w 9 8) m.2 && bit 0 (2 * m.1 + m.2)) = none) ∧
    (let s := portWith 1 { Port.fresh with gotWord := true, attempts := 2 }; let w := s.getP (P.LNK_PORT_CAP_RECEIVED 31);
      s.portState 31 = 1 ∧ (s.port 31).gotWord = true ∧ 2 ≤ (s.port 31).attempts ∧
      (laneModes.find? fun m => bit (bits w 7 5) m.1 && bit (bits w 9 8) m.2 && bit 0 (2 * m.1 + m.2)) = none) ∧
    ((portAt 1).port 31).gotWord = false ∧ (portAt 2).portState 31 = 2 ∧ (portAt 1).portState 31 ≠ 2 ∧
    (rst.regDown (R.LNK_PORT_CONTROL 31) = true ∧ bit (0 : Word).toNat 1 = false ∧ bit (2 : Word).toNat 1 = true) ∧
    ((portAt 3).regDown (R.LNK_PORT_CONTROL 31) = false ∧ (portAt 3).portState 31 = 3 ∧ (portAt 4).portState 31 = 4 ∧
      bit (1 : Word).toNat 0 = true ∧ (portAt 4).getF (F.DBG_SQ_CONTROL_HOLD_DOWN 31) = 0 ∧ (portAt 4).devState = 3) ∧
    ((portAt 2).regDown (R.LNK_PORT_CONTROL 31) = false ∧ bits (2 : Word).toNat 1 0 = 2 ∧ (portAt 2).portState 31 ≠ 3 ∧
      (portAt 2).getF (F.DBG_SQ_CONTROL_HOLD_DOWN 31) = 0 ∧ (portAt 2).devState = 3) := by decide +kernel

theorem witness_LanesAreSpared :
    ((portAt 2).portState 31 = 2 ∧ ((portAt 2).port 31).swap = none ∧ (portAt 2).spareLane 31 = some 16) ∧
    ((portWith 2 { Port.fresh with swap := some (15, 16) }).portState 31 = 2 ∧
      ((portWith 2 { Port.fresh with swap := some (15, 16) }).port 31).swap.isSome = true) ∧
    (let s := (portAt 2).putF (F.LNK_PORT_LANES_FAILED_MASK 31) 0x30000; s.portState 31 = 2 ∧ s.spareLane 31 = none ∧
      (s.port 31).swap = none) ∧ (portAt 1).portState 31 ≠ 2 := by decide +kernel

/-- A frame of a class to a device, with a sequence number. -/
def frame0 (cls seq dst : Nat) : Frame := ⟨cls, seq, dst, 1, 0, 0, 4, 0, 0, 0, 0, 0, []⟩
def carried0 (seq : Nat) : Carried := ⟨frame0 0 seq 2, none, 0, false⟩

/-- Device 0x105, whose routing table sends every frame of port 31 for group 0 to port 1, in a state. -/
def routed (state : Nat) : State :=
  let s := { portAt 2 with img.sections := [⟨7, 31, false, leBytes 2 0x8001⟩] }.putF F.SIL_STATUS_IMAGE_VALID 1
  (s.putF F.LNK_DEVICE_ID_ID 0x105).putF (F.LNK_PORT_STATUS_STATE 1) state

theorem witness_FramesCrossInOrder :
    rst.portUp 31 = false ∧ (portAt 2).portUp 31 = true ∧
    (let s := portAt 2; let c := Carried.undemoted ⟨frame0 3 0 0xFFFFF, some 31, portDie 31, false⟩;
      (frame0 3 0 0xFFFFF).seq % 2 ^ 16 = (s.port 31).rxNext ∧ (s.port 31).window = [] ∧ s.chooseRoute c = .here ∧
      s.ctxState (frameCtx c.frame) ≠ 4) ∧
    (portAt 2).chooseRoute (Carried.undemoted ⟨frame0 0 0 2, some 31, portDie 31, false⟩) = .ignore ∧
    ((portAt 2).putF F.LNK_DEVICE_ID_ID 5).chooseRoute (Carried.undemoted ⟨frame0 0 0 2, some 31, portDie 31, false⟩) = .drop ∧
    ((routed 2).chooseRoute (Carried.undemoted ⟨frame0 0 0 2, some 31, portDie 31, false⟩) = .port 1 ∧
      (routed 0).chooseRoute (Carried.undemoted ⟨frame0 0 0 2, some 31, portDie 31, false⟩) = .wait) ∧
    (∀ d ∈ [1, 63, 64, 32767, 32768, 65535], ((frame0 0 d 2).seq % 2 ^ 16 + 2 ^ 16 - ((portAt 2).port 31).rxNext) % 2 ^ 16 = d) ∧
    (let x := { Port.fresh with replay := [carried0 6, carried0 7] }; let s := portWith 2 x; s.getF (F.DBG_SQ_CONTROL_ENABLE 31) = 0 ∧
      (s.port 31).deferred = [] ∧ (s.port 31).replay = [carried0 6] ++ carried0 7 :: [] ∧ (carried0 7).frame.seq = 7 ∧
      (∀ y ∈ [carried0 6], y.frame.seq ≠ 7) ∧ (∀ y ∈ (s.port 31).replay, y.frame.seq ≠ 8) ∧ s.portState 31 = 2 ∧ (s.port 31).replay ≠ [] ∧
      (s.port 31).timeouts + 1 < 8) ∧
    (let s := portWith 2 { Port.fresh with replay := [carried0 6], timeouts := 7 }; s.portState 31 = 2 ∧ 8 ≤ (s.port 31).timeouts + 1 ∧
      (s.port 31).replay ≠ []) ∧
    ((portAt 2).port 31).replay = [] ∧
    (let s := (portWith 2 { Port.fresh with queue := [carried0 0] }).putF (F.LNK_PORT_STATUS_SAFFRON 31) 1;
      let cr := (s.section 8 0).drop (8 * 31);
      let x := { s.port 31 with saffronTokens := min (512 * 256) ((s.port 31).saffronTokens + leAt cr 0 1 * 0),
                                mgmtTokens := min (64 * 256) ((s.port 31).mgmtTokens + leAt cr 3 1 * 0) };
      s.portState 31 = 2 ∧ s.getF (F.LNK_PORT_STATUS_SAFFRON 31) = 1 ∧ (s.port 31).holdFrames = false ∧
      firstReady x 0 (fun c => c.frame.cls == 0) = some (carried0 0) ∧ frameFlits (carried0 0).frame * 256 ≤ x.saffronTokens ∧
      ((chooseFrame 0 (leAt cr 1 1) (leAt cr 2 1) x).any fun r => r.1 == carried0 0 && replayBytes r.2 + 64 * frameFlits r.1.frame ≤ 2 ^ 20)) ∧
    ((portAt 2).timeNs ≤ (portAt 2).rel.refreshedAt + 20000000 ∧
      let s := { portAt 2 with timeNs := 20000001 }; s.portUp 31 = true ∧ s.rel.refreshedAt + 20000000 < s.timeNs) := by
  decide +kernel

/-- Squall's facility open to the host, port 31 on, the generator enabled for class 0, one frame in the replay buffer. -/
def squalling (drop corrupt reorder : Nat) : State :=
  let s := { portWith 2 { Port.fresh with replay := [carried0 6] } with sec.tokens := [⟨0, 7, 0, 1⟩] }
  let s := (s.putF (F.DBG_SQ_CONTROL_ENABLE 31) 1).putF (F.DBG_SQ_CONTROL_CLASS_MASK 31) 1
  ((s.putF (F.DBG_SQ_DROP_THRESHOLD 31) drop).putF (F.DBG_SQ_CORRUPT_THRESHOLD 31) corrupt).putF (F.DBG_SQ_REORDER_THRESHOLD 31) reorder

theorem witness_DebugFacilitiesAct :
    rst.facilityOpen .host 0 = false ∧ rst.facilityOpen .host 2 = false ∧
    (let s := squalling 0 0 0; s.facilityOpen .host 0 = true ∧ s.regDown (R.DBG_SQ_CONTROL 31) = false ∧
      s.regDown (R.DBG_SQ_SEED 31) = false ∧ bit (1 : Word).toNat 5 = false ∧ bit (32 : Word).toNat 5 = true ∧
      (s.port 31).replay = [carried0 6] ∧ (s.port 31).deferred = [] ∧ s.getF (F.DBG_SQ_CONTROL_ENABLE 31) = 1 ∧
      bit (s.getF (F.DBG_SQ_CONTROL_CLASS_MASK 31)) (carried0 6).frame.cls = true) ∧
    (∀ x ∈ [(0xFFFFFFFF, 0, 0), (0, 0xFFFFFFFF, 0), (0, 0, 0xFFFFFFFF), (0, 0, 0)], let s := squalling x.1 x.2.1 x.2.2;
      let a := squallNext (s.port 31).squall; let b := squallNext a; let d := squallNext b;
      (a < s.getF (F.DBG_SQ_DROP_THRESHOLD 31) ↔ x.1 ≠ 0) ∧ (b < s.getF (F.DBG_SQ_CORRUPT_THRESHOLD 31) ↔ x.2.1 ≠ 0) ∧
      (d < s.getF (F.DBG_SQ_REORDER_THRESHOLD 31) ↔ x.2.2 ≠ 0)) ∧
    ((portWith 2 { Port.fresh with deferred := [frame0 0 6 2] }).port 31).deferred.filter (fun f => f.cls == 0) ≠ [] ∧
    (let s := squalling 0 0 0; s.facilityOpen .host 2 = true ∧ s.dumpOpen = true ∧ s.getF F.DBG_SYNC_DUMP_STATUS_STATE ≠ 1 ∧
      bit (1 : Word).toNat 0 = true ∧ (s.putF F.DBG_SYNC_DUMP_STATUS_STATE 1).getF F.DBG_SYNC_DUMP_STATUS_STATE = 1 ∧
      s.vcOpen (s.vcOf 2) = false ∧ (linked s).vcOpen ((linked s).vcOf 2) = true) := by decide +kernel

/-! ## Witnesses: frames -/

/-- A SYNC frame of a kind for identifier 5 of context 0. -/
def sync1 (kind parity src : Nat) : Frame :=
  { frame0 1 0 0 with typ := 4, src := src, fields := 5 * 2 ^ 8 + kind * 2 ^ 24 + parity * 2 ^ 26 }

/-- An object of a group of three members, its parent device 8 and its child device 7. -/
def group3 (run : Option CollRun) : SyncObj :=
  { sync0 [0] [] 0 run with members := 3, parent := some (0, 8, 0), children := [(2, 7, 0)] }

def inboxed (f : Frame) (objs : List SyncObj) : State :=
  { dev 3 with fab.inbox := [f], fab.objs := objs, job.jobs := [job0], tier.objs := [obj0] }

/-- A run of an ALL_REDUCE of 16 words at this member, its piece not yet complete. -/
def mainRun : CollRun :=
  { run0 (collWord 16) with
    parts := [⟨0, 0, [], [], 0x205000, [⟨0x205000, 64, 64, 0, 16⟩]⟩]
    pieces := [⟨0, List.replicate 16 none, [], List.replicate 16 none, false⟩]
    parentBase := [0, 0, 0, 0] }

/-- An ALL_GATHER of 16 words, run directly. -/
def directRun : CollRun :=
  let e := word [(0, 9), (1, 2), (4, 0x204000), (12, 0x205000), (20, 16), (24, 5)]
  { run0 e with op := 2, members := [(7, 0)], ready := true, parts := [⟨0, 0, [], [], 0x205000, [⟨0x205000, 192, 128, 0, 48⟩]⟩] }

def reduce1 (redop : Nat) : Frame :=
  { frame0 1 0 0 with typ := 3, src := 7, addr := 0x205000, fields := redop * 2 ^ 12, payload := List.replicate 64 0 }
def write1 : Frame := { frame0 1 0 0 with src := 7, addr := 0x205040, fields := 5 * 2 ^ 8, payload := List.replicate 64 1 }
def credit1 : Frame := { sync1 2 0 8 with payload := List.replicate 18 0 }

theorem pieces_one {va n : Nat} (h0 : n ≠ 0) (h : va % pageBytes + n ≤ pageBytes) : piecesOf va n = [(va, n)] := by
  have hm : min n (pageBytes - va % pageBytes) = n := by omega
  simp [piecesOf, pagePieces, h0, hm]

/-- A READ_REQUEST of the address of an object in the LLM, and of an unmapped one: whatever length the free value gives, but 0. -/
def asked (va : Nat) : State :=
  { inboxed { frame0 1 0 0 with typ := 1, addr := va } [] with tier.objs := [{ obj0 with tier := 1, first := 0, va := 0x600000 }] }

theorem witness_ReadRequests :
    (∀ va, (asked va).fab.inbox.filter (fun f => f.typ == 1) = [{ frame0 1 0 0 with typ := 1, addr := va }]) ∧
    (∀ n, n ≠ 0 → n ≤ 2048 → ∃ r, (asked 0x600000).vRead 0 0x600000 n = .ok r) ∧
    (∀ n, n ≠ 0 → n ≤ 2048 → (asked 0x900000).vRead 0 0x900000 n = .mapFault 0x900000) := by
  have h1 : (asked 0x600000).place 0 0x600000 = .llm 0 := by decide +kernel
  have h2 : (asked 0x900000).place 0 0x900000 = .unmapped := by decide +kernel
  refine ⟨fun va => rfl, fun n h0 h => ?_, fun n h0 h => ?_⟩
  · rw [State.vRead, pieces_one h0 (by have : 0x600000 % pageBytes = 0 := by decide
                                       have : pageBytes = 2097152 := by decide
                                       omega)]
    simp [readPieces, h1]
  · rw [State.vRead, pieces_one h0 (by have : 0x900000 % pageBytes = 0x100000 := by decide
                                       have : pageBytes = 2097152 := by decide
                                       omega)]
    simp [readPieces, h2]

theorem witness_CollectiveFramesAreServed :
    rst.fab.inbox = [] ∧
    (∀ kp ∈ [(0, 0, 7), (0, 1, 7), (1, 0, 8), (2, 0, 8), (3, 0, 8), (3, 0, 7)], let f := sync1 kp.1 kp.2.1 kp.2.2;
      let s := inboxed f [group3 none]; s.fab.inbox.filter (syncKind kp.1) = [f] ∧ s.syncFor f = some (group3 none) ∧
      bits f.fields 26 26 = kp.2.1 ∧ childOf (group3 none) f = (if kp.2.2 = 7 then some 2 else none) ∧
      fromParent (group3 none) f = decide (kp.2.2 = 8)) ∧
    (let o := { group3 none with arrived := [0] }; let f := sync1 0 0 7; (inboxed f [o]).syncFor f = some o ∧
      o.arrived.length = o.ranks.length ∧ [2].length = o.children.length ∧ o.parent.isSome = true) ∧
    (let o := { group3 none with arrived := [0], parent := none }; let f := sync1 0 0 7; (inboxed f [o]).syncFor f = some o ∧
      o.arrived.length = o.ranks.length ∧ [2].length = o.children.length ∧ o.parent = none) ∧
    (let o := { group3 none with arriveSent := true, readySent := true }; (inboxed (sync1 1 0 8) [o]).syncFor (sync1 1 0 8) = some o ∧
      (inboxed (sync1 3 0 8) [o]).syncFor (sync1 3 0 8) = some o ∧ o.run = none ∧ o.arriveSent = true ∧ o.readySent = true) ∧
    ((group3 none).readyRanks.length ≠ (group3 none).ranks.length ∧ 2 ∉ (group3 none).readyChildren) ∧
    (∀ k ∈ [1, 2, 3], (inboxed (sync1 k 0 8) []).syncFor (sync1 k 0 8) = none ∧ bankFor (inboxed (sync1 k 0 8) []) (sync1 k 0 8) = none) ∧
    (let s := inboxed credit1 [group3 (some mainRun)]; let u := { s with fab.inbox := s.fab.inbox.erase credit1 };
      s.fab.inbox.filter (syncKind 2) = [credit1] ∧ s.syncFor credit1 = some (group3 (some mainRun)) ∧ mainRun.main = true ∧
      fromParent (group3 (some mainRun)) credit1 = true ∧ leAt credit1.payload 16 2 = mainRun.serial ∧
      (let x := u.runPieces (group3 (some mainRun)) { mainRun with
          parentBase := [leAt credit1.payload 0 4, leAt credit1.payload 4 4, leAt credit1.payload 8 4, leAt credit1.payload 12 4] };
        x.2.2 = [] ∧ (x.2.1.syncAt 0).isSome = true) ∧ directRun.main = false) ∧
    (∀ r ∈ [mainRun, directRun], let s := inboxed credit1 [group3 (some r)]; s.fab.objs = [group3 (some r)] ∧
      (group3 (some r)).run = some r ∧ s.objRuns (group3 (some r)) = true) ∧
    (∀ op ∈ [0, 1], let o := group3 (some mainRun); let f := reduce1 op; let s := inboxed f [o]; let fm := collFmts mainRun.enc;
      (s.fab.inbox.filter fun f => f.typ == 3) = [f] ∧ s.reduceFor f = some (o, mainRun) ∧
      mainRun.pieces[(f.addr - runDst mainRun) / rowBytes fm.1 1024]? = some ⟨0, List.replicate 16 none, [], List.replicate 16 none, false⟩ ∧
      bits f.fields 11 8 = fm.2 ∧ (bits f.fields 13 12 = collRedop mainRun.enc ↔ op = 0) ∧ bit f.fields 14 = false ∧ s.jobOf o.job = some job0) ∧
    (let o := group3 (some mainRun); let u := inboxed (reduce1 0) [o];
      let x := { u with fab.inbox := [] }.runPieces o { mainRun with pieces := [⟨0, List.replicate 16 (some 0), [(5, 16)], List.replicate 16 none, false⟩] };
      x.2.2 = [] ∧ (x.2.1.syncAt 0).isSome = true) ∧
    (inboxed (reduce1 0) []).reduceFor (reduce1 0) = none ∧ (inboxed write1 []).writeFor write1 = none ∧
    (let o := group3 (some directRun); let s := inboxed write1 [o]; (s.fab.inbox.filter fun f => f.typ == 0) = [write1] ∧
      s.writeFor write1 = some (o, directRun) ∧ directRun.ring = false ∧ directRun.op ≠ 4 ∧
      ((writeRuns 0 1 [(write1.addr, write1.payload)] { s with fab.inbox := [] }).any fun v => (v.syncAt 0).isSome)) ∧
    (let f := { frame0 1 0 0 with typ := 2 }; (inboxed f []).fab.inbox.filter (fun f => f.typ == 2) = [f]) := by
  refine ⟨by decide +kernel, by decide +kernel, by decide +kernel, by decide +kernel, by decide +kernel, by decide +kernel,
    by decide +kernel, by decide +kernel, by decide +kernel, by decide +kernel, by decide +kernel, by decide +kernel, by decide +kernel,
    by decide +kernel, by decide +kernel⟩

/-! ## Witnesses: stripe sets and recovery -/

/-- A structure with a banked partition, a parity partition and one for the journal, and the stripe set 77 of devices 100 to 108. -/
def stripeImage (pos : Nat) : List Section :=
  [ sec 5 (pad 32 (leBytes 4 1024 ++ leBytes 4 8 ++ leBytes 4 0 ++ leBytes 2 3 ++ leBytes 1 0xFF) ++
      pad 32 (leBytes 4 2048 ++ leBytes 4 1 ++ leBytes 4 0 ++ leBytes 2 4 ++ leBytes 1 0xFF) ++
      pad 32 (leBytes 4 3000 ++ leBytes 4 2 ++ leBytes 4 0 ++ leBytes 2 1 ++ leBytes 1 0xFF)),
    sec 7 (leBytes 2 0x8001),
    sec 10 (leBytes 4 77 ++ leBytes 1 pos ++ leBytes 1 9 ++ leBytes 2 0 ++ (List.range 9).flatMap fun i => leBytes 4 (100 + i)) ]

/-- The member at a position, with the set in a state and one frame delivered. -/
def striped (pos state : Nat) (fs : List Frame) : State :=
  let s := { dev 3 with img.sections := stripeImage pos, fab.inbox := fs }.putF F.SIL_STATUS_IMAGE_VALID 1
  let s := (s.putF F.LNK_DEVICE_ID_ID (100 + pos)).putF F.REL_STRIPE_STATUS_STATE state
  ((s.putF F.REL_UNDO_CONFIG_ENABLE 1).putF F.REL_UNDO_CONFIG_PARTITION 2).putF F.REL_UNDO_CONFIG_PAGES 1

/-- A BANK frame of an operation from a position. -/
def bank (op from_ step word unit : Nat) (data : List Byte) : Frame :=
  { frame0 2 0 100 with
    typ := 5, payload := leBytes 1 op ++ leBytes 1 from_ ++ leBytes 6 step ++ leBytes 4 word ++ leBytes 4 unit ++ data }

def join1 (id : Nat) : Frame := bank 1 1 0 id 8 []
def delta1 : Frame := bank 2 1 0 0 (3 * 2 ^ 25) (List.replicate 1024 1)
def staged1 (unit : Nat) : Frame := bank 3 1 0 0 unit []
def phase0 (staged : List (Nat × Nat)) : BankPhase := ⟨0, 1, 0, [(1, 4)], staged, none, [], [], false, false, []⟩

theorem witness_StripesForm :
    rst.fab.inbox.filter (bankKind 7) = [] ∧ (∀ k ∈ [1, 2, 3, 4, 5, 6], rst.fab.inbox.filter (bankKind k) = []) ∧
    ((striped 0 0 []).stripeIds ≠ [] ∧ bit (1 : Word).toNat 0 = true ∧ rst.stripeIds = [] ∧
      (striped 0 0 []).partitions.find? (fun p => p.parity) = some ⟨2048, 1, 0, 0, 4, 0xFF⟩ ∧
      (withImage (dev 3)).partitions.find? (fun p => p.parity) = none) ∧
    (let s := striped 0 1 [join1 77]; s.fab.inbox.filter (bankKind 1) = [join1 77] ∧ bankFrom (join1 77) ∈ s.stripePeers ∧
      s.stripeState = 1 ∧ leAt (join1 77).payload 8 4 = s.stripeId ∧ bankUnit (join1 77) = s.bankedPages.length ∧
      leAt (join1 77).payload 2 1 = leAt s.stripeSet 6 1 ∧ bankFrom (join1 77) ∉ s.rel.joined ∧ s.rel.joined.length ≠ 7 ∧
      bankFrom (join1 77) ∉ { s with rel.joined := [2, 3, 4, 5, 6, 7, 8] }.rel.joined) ∧
    (let s := striped 0 2 [join1 77]; bankFrom (join1 77) ∈ s.stripePeers ∧ s.stripeState ≠ 1) ∧
    bankFrom (join1 77) ∉ (striped 1 1 [join1 77]).stripePeers ∧ leAt (join1 78).payload 8 4 ≠ (striped 0 1 [join1 78]).stripeId ∧
    (striped 0 1 [join1 78]).fab.inbox.filter (bankKind 1) = [join1 78] := by decide +kernel

theorem witness_DeltasGather :
    (let s := striped 0 0 [delta1]; s.fab.inbox.filter (bankKind 2) = [delta1] ∧ bankFrom delta1 ∈ s.stripePeers ∧
      bankUnit delta1 % 2 ^ 25 % 9 = s.stripePos ∧ s.stripeState = 0) ∧ bankFrom delta1 ∉ (striped 1 1 [delta1]).stripePeers ∧
    (let s := striped 0 2 [delta1]; s.stripeState ≠ 0 ∧ s.undoUnits < s.undoCapacity ∧
      (addPiece ⟨1, 0, 0, []⟩ (bits (bankUnit delta1) 29 25) (delta1.payload.drop 16)).pieces.length ≠ 4096 / s.bankPiece ∧
      (addPiece ⟨1, 0, 0, [(0, []), (1, []), (2, [])]⟩ (bits (bankUnit delta1) 29 25) (delta1.payload.drop 16)).pieces.length =
        4096 / s.bankPiece) ∧
    (striped 0 1 [delta1]).stripeState = 1 ∧ (striped 0 1 [delta1]).clean ∧ (striped 0 1 [delta1]).parityAddr 0 = some (2048 * pageBytes) := by
  decide +kernel

/-- Four pieces of 1,024 bytes are a unit. -/
theorem witness_WholeUnit (a b c d : List Byte) (ha : a.length = 1024) (hb : b.length = 1024) (hc : c.length = 1024) (hd : d.length = 1024) :
    ((List.range 4).flatMap fun k => ((([(0, a), (1, b), (2, c), (3, d)] : List (Nat × List Byte)).find? fun x => x.1 == k).map
      fun x => x.2).getD []).length = 4096 := by
  simp [List.range_succ, ha, hb, hc, hd]

theorem witness_StagedAnswers :
    (let s := striped 0 0 [staged1 4]; s.fab.inbox.filter (bankKind 3) = [staged1 4] ∧ bankFrom (staged1 4) ∈ s.stripePeers ∧
      s.stripeState = 0) ∧
    (let s := striped 0 1 [staged1 4096]; s.stripeState = 1 ∧ bankUnit (staged1 4096) = s.bankedUnits ∧
      bankFrom (staged1 4096) ∉ s.rel.formed ∧ s.rel.formed.length ≠ 8 ∧
      bankFrom (staged1 4096) ∉ { s with rel.formed := [0, 2, 3, 4, 5, 6, 7, 8] }.rel.formed) ∧
    (∀ u ∈ [3, 4], let s := { striped 0 2 [staged1 u] with rel.phases := [phase0 []] };
      s.stripeState = 2 ∧ s.rel.phases.find? (fun b => b.step == bankStep (staged1 u)) = some (phase0 []) ∧
      ((∀ x ∈ (phase0 []).sent, x ∈ ((phase0 []).staged.filter (fun (x : Nat × Nat) => x.1 != bankFrom (staged1 u)) ++
        [(bankFrom (staged1 u), bankUnit (staged1 u))])) ↔ u = 4) ∧ (phase0 []).children = [] ∧ (phase0 []).parent = none) ∧
    (let f := bank 4 1 0 0 0 []; (striped 0 2 [f]).fab.inbox.filter (bankKind 4) = [f]) := by decide +kernel

def begin1 : Frame := bank 5 1 0 0 0 []
def data1 (row : Nat) : Frame := bank 6 1 0 0 (3 * 2 ^ 25 + row) (List.replicate 1024 1)
def end1 : Frame := bank 7 1 0 0 0 []

/-- The row of 31 pieces that have come, and the member's peers in reach. -/
def rowAlmost (row : Nat) : RowIn := ⟨row, List.replicate 31 (2, 0), List.replicate 4096 0⟩
def rebuilding (row : Nat) (rows : List RowIn) : State :=
  ((({ striped 0 2 [data1 row] with rel.rowsIn := rows } : State).putF F.REL_REBUILD_STATUS_STATE 1).putF (F.LNK_PORT_STATUS_STATE 1) 2).putF
    F.LNK_DEVICE_ID_ID 0x1000

theorem witness_RowsAreRebuilt :
    (let s := striped 0 2 [begin1]; s.fab.inbox.filter (bankKind 5) = [begin1] ∧ bankFrom begin1 ∈ s.stripePeers ∧ s.stripeState ≠ 0 ∧
      s.rel.phases = [] ∧ { s with rel.phases := [phase0 []] }.rel.phases ≠ [] ∧ (striped 0 0 [begin1]).stripeState = 0) ∧
    (let s := rebuilding 1 []; s.fab.inbox.filter (bankKind 6) = [data1 1] ∧ bankFrom (data1 1) ∈ s.stripePeers ∧ s.stripeState ≠ 0 ∧
      (data1 1).payload.drop 16 ≠ [] ∧ s.getF F.REL_REBUILD_STATUS_STATE = 1 ∧ bit (data1 1).flags 1 = false ∧ s.peerAbsent = false ∧ s.clean ∧
      s.rowWhole (addRow ⟨1, [], List.replicate 4096 0⟩ 1 3 s.bankPiece ((data1 1).payload.drop 16)) = false) ∧
    (striped 0 2 [data1 1]).peerAbsent = true ∧
    (∀ row ∈ [0, 1], let s := rebuilding row [];
      bankUnit (data1 row) % 2 ^ 25 = (rowAlmost row).row ∧ (rowAlmost row).got.contains (1, 3) = false ∧
      (rowAlmost row).got.length + 1 = 8 * (4096 / s.bankPiece) ∧
      unitOfRow s.stripePos row = (if row = 0 then none else some 0) ∧ s.parityAddr row = some (2048 * pageBytes) ∧
      s.partitionOfPage (s.bankedAddr 0 / pageBytes) = some (0, ⟨1024, 8, 0, 0, 3, 0xFF⟩)) ∧
    (let s := striped 0 3 [end1]; s.fab.inbox.filter (bankKind 7) = [end1] ∧ bankFrom end1 ∈ s.stripePeers ∧ s.stripeState = 3 ∧
      s.getF F.REL_REBUILD_STATUS_STATE = 0 ∧ (striped 0 2 [end1]).stripeState ≠ 3) ∧
    (let s := { striped 0 3 [end1] with rel.ended := [2, 3, 4, 5, 6, 7, 8], rel.rowsDone := 4608 }.putF F.REL_REBUILD_STATUS_STATE 1;
      s.getF F.REL_REBUILD_STATUS_STATE = 1 ∧ bankFrom end1 ∉ s.rel.ended ∧ 7 ≤ s.rel.ended.length ∧ s.stripeRows ≤ s.rel.rowsDone) := by
  decide +kernel

/-- The row with the last piece added. -/
theorem witness_LastPiece (r : RowIn) (bs : List Byte) (h : r.got.contains (1, 3) = false) (hr : r.acc.length = 4096) (hb : bs.length = 1024) :
    (addRow r 1 3 1024 bs).acc.length = 4096 ∧ (addRow r 1 3 1024 bs).got.length = r.got.length + 1 := by
  rw [addRow, if_neg (by simpa using h)]
  simp [xorBytes, hr, hb]

theorem witness_AlmostWhole (row : Nat) : (rowAlmost row).acc.length = 4096 ∧ (rebuilding row [rowAlmost row]).rel.rowsIn = [rowAlmost row] :=
  ⟨List.length_replicate, rfl⟩

theorem witness_DecisionsEndTheirPhases :
    (let s := { striped 0 2 [] with rel.rowsIn := [⟨1, List.replicate 32 (2, 0), List.replicate 4096 0⟩], rel.repairs := [1024 * 512] };
      s.bankedIndex (1024 * 512) = some 0 ∧ rowOf s.stripePos 0 = 1 ∧ s.rel.rowsIn.map (·.row) = [1] ∧
      1024 * 512 ∈ s.rel.repairs ∧ (∀ r ∈ s.rel.rowsIn, s.rowWhole r = true) ∧ s.job.jobs = [] ∧ s.clean ∧
      s.partitionOfPage (1024 * 512 * 4096 / pageBytes) = some (0, ⟨1024, 8, 0, 0, 3, 0xFF⟩)) ∧
    rst.bankedIndex 0 = none ∧ bits (1 : Word).toNat 1 0 = 1 ∧ bits (2 : Word).toNat 1 0 = 2 ∧ bits (3 : Word).toNat 1 0 = 3 ∧
    (rst.rel.phases.find? fun b => b.ctx == 255) = none ∧
    (let s := { striped 0 2 [] with rel.phases := [phase0 []] }; (s.rel.phases.find? fun b => b.ctx == 0) = some (phase0 []) ∧
      (∃ b ∈ s.rel.phases, b.ctx = 0) ∧ s.rel.phases.all (fun b => b.ctx != 1) = true) := by decide +kernel

theorem witness_PartsAgeAndFail :
    rst.rel.onB = false ∧ { rst with rel.onB := true }.rel.onB = true ∧ rst.getF F.GLB_PROFILE_RETIRE = 0 ∧
    (rst.putF F.GLB_PROFILE_RETIRE 1).getF F.GLB_PROFILE_RETIRE = 1 ∧
    (let s := withImage (dev 3); s.getF (F.PWR_ISL_STATE_GUARDBAND 1087) = 0 ∧ s.getF F.REL_AGING_THRESHOLD_VALUE ≤ 255 ∧
      1087 ∉ s.rel.aging ∧ s.imageValid = true ∧ (s.core 1087).failed = false ∧ 1087 ∉ s.rel.coresGone ∧ 1087 ∉ s.rel.retire ∧
      0 < (s.putF F.REL_AGING_THRESHOLD_VALUE 1).getF F.REL_AGING_THRESHOLD_VALUE ∧
      (s.putF (F.PWR_ISL_STATE_GUARDBAND 1219) 1).getF (F.PWR_ISL_STATE_GUARDBAND 1219) = 1 ∧ s.islandOn 1219 = false ∧
      (s.putF (F.PWR_ISL_STATE_STATE 1219) 1).islandOn 1219 = true) ∧
    (let s := (withImage (dev 3)).putF (F.JOB_CORE_STATUS_STATE 1087) 2; s.getF (F.JOB_CORE_STATUS_STATE 1087) = 2 ∧
      (s.core 1087).silent < 9 ∧ (s.core 1087).failed = false ∧ 1087 ∉ s.rel.coresGone ∧ 1087 ∉ s.rel.retire ∧ s.imageValid = true ∧
      s.job.jobs = [] ∧ 9 ≤ ((s.setCore 1087 { Core.idle with silent := 9 }).core 1087).silent ∧
      ((s.setCore 1087 { Core.idle with failed := true }).core 1087).failed = true) ∧
    rst.getF (F.JOB_CORE_STATUS_STATE 1087) ≠ 2 := by decide +kernel

theorem witness_ReplayDecisionsAct :
    bits (0x1FF : Word).toNat 9 8 = 1 ∧ (0x1FF : Word).toNat % 256 = 255 ∧ bits (0x200 : Word).toNat 9 8 = 2 ∧
    (∃ x ∈ (running { job0 with step := some { step0 with bankPhase := 3 } }).stepsOf 0, x.2.bankPhase = 3) ∧
    ((running job0).stepsOf 0 = [(1, step0)] ∧ step0.bankPhase ≠ 3 ∧ (running job0).ctxState 0 = 1 ∧ (running job0).stepsOf 255 = [] ∧
      (running job0).ctxState 255 ≠ 1 ∧ mini.stepsOf 0 = [] ∧ mini.ctxState 0 = 1) ∧
    rst.rel.resuming = [] ∧
    (let s := { mini with rel.resuming := [0, 1] }.putF (F.JOB_CTX_STATE_STATE 0) 4; s.rel.resuming = 0 :: [1] ∧ s.ctxState 0 = 4 ∧
      { mini with rel.resuming := [0] }.ctxState 0 ≠ 4 ∧ (s.ctxState 0 = 4 ∧ 0 ∉ { s with rel.resuming := [] }.rel.resuming)) := by decide +kernel

/-! ## Witnesses: video and ingest -/

/-- A video command of its fields. -/
def vidCmd (op flags slot a8 a16 n24 n28 : Nat) : Nat :=
  op + flags * 2 ^ 8 + slot * 2 ^ 32 + a8 * 2 ^ 64 + a16 * 2 ^ 128 + n24 * 2 ^ 192 + n28 * 2 ^ 224

/-- A stream descriptor: KIND, 64 by 64 samples of 8 bits, STATE, the pool and the ring. -/
def vidDesc (kind : Nat) (params : List Byte) : List Byte :=
  pad 0x30 (leBytes 2 1 ++ leBytes 1 kind ++ leBytes 1 0 ++ leBytes 2 64 ++ leBytes 2 64 ++ leBytes 4 100 ++ leBytes 1 2 ++ leBytes 1 8 ++
    leBytes 2 0 ++ leBytes 8 0x40000000 ++ leBytes 8 0x40200000 ++ leBytes 8 (if kind = 0 then 0 else 0x40100000) ++
    leBytes 4 (if kind = 0 then 0 else 65536)) ++ pad 80 params

def ingestDesc : List Byte :=
  pad 0x30 (leBytes 2 1 ++ leBytes 1 2 ++ List.replicate 13 0 ++ leBytes 8 0x40000000 ++ leBytes 8 0 ++ leBytes 8 0x40100000 ++ leBytes 4 65536) ++
    pad 80 (leBytes 4 0 ++ [1, 2, 2, 1, 0, 0, 0, 0] ++ List.replicate 12 0 ++ leBytes 4 1 ++ leBytes 4 1 ++ leBytes 4 1 ++ leBytes 4 1024)

/-- A stream in slot 63 of context 0. -/
def stream0 (engine : Nat) (desc : List Byte) (units : List VUnit) : Stream :=
  ⟨63, 0, engine, desc, true, units, none, 0, 0, none, 0, 0, 0, [], [], [], none, none⟩

/-- A host command at context 0, with streams; four pages at 0x40000000, and 2 MiB of LLM at 0x50000000 with some bytes. -/
def vidState (cmd : Nat) (streams : List Stream) (llm : List Byte) : State :=
  { dev 3 with
    img.sections := image3.map fun (x : Section) => if x.typ = 11 then sec 11 (pad 144 [0, 0, 0, 4]) else x
    hostCmds := [⟨.video, 0, cmd⟩]
    vid.streams := streams
    tier.objs := [{ obj0 with units := 4, place := 2, first := 2048, va := 0x40000000 },
      { obj0 with slot := 1, tier := 1, first := 0, va := 0x50000000 }]
    mem.llm := storeSetRun zeroByte [] 0 llm }.putF F.SIL_STATUS_IMAGE_VALID 1

def vidHost (cmd : Nat) : PortCmd := ⟨.video, 0, cmd, none⟩

/-- A host video command that waits and is in form. -/
abbrev vidMet (s : State) (op cmd : Nat) : Prop :=
  s.portCmd .video (.host 0) = some (vidHost cmd) ∧ videoForm (vidHost cmd) = true ∧ (vidHost cmd).op = op

/-- A SUBMIT, an ADVANCE or an INGEST that names the stream. -/
abbrev streamMet (s : State) (op cmd kind : Nat) (v : Stream) : Prop :=
  vidMet s op cmd ∧ s.videoStream (vidHost cmd) = some v ∧ v.closing = none ∧ v.kind = kind

/-- A picture being encoded, with rows and coded bands. -/
def coding (rows : Nat) (bands : List (List Byte)) (headers : Bool) : VUnit :=
  ⟨1, .host 0, 0x40180000, 0, 0, none, 0, false, 1, 0, true, rows, bands, 0, headers, false, [], false⟩

def encodeDesc : List Byte := vidDesc 1 (leBytes 4 100 ++ leBytes 4 100 ++ leBytes 4 1 ++ leBytes 2 1 ++ leBytes 2 1 ++ [1, 1, 0, 0, 0, 1, 1, 0])

/-- The sample descriptor of one 2 by 2 frame at 0x40180000. -/
def sample0 : List Byte := pad 32 (leBytes 8 0 ++ leBytes 8 0x40180000 ++ leBytes 4 0 ++ leBytes 4 64 ++ leBytes 4 1)

theorem witness_VideoCommandsQueueTheirUnits :
    (let c := vidCmd 1 0 0 0x50000000 0 0 0;
      let s := { vidState c [] [] with img.sections := image3 };
      vidMet s 1 c ∧ s.mayVideo 0 = false) ∧
    (let c := vidCmd 1 0 0 0x50000000 0 0 0; let s := vidState c [] (vidDesc 0 []);
      vidMet s 1 c ∧ s.mayVideo 0 = true ∧ (vidHost c).at 8 8 % 64 = 0 ∧
      (match s.vRead 0 0x50000000 128 with
        | .ok (d, u) => d == vidDesc 0 [] && descriptorOk d &&
          u.regionsOk 0 true ⟨0, 0, 0, d, true, [], none, 0, 0, none, 0, 0, 0, [], [], [], none, none⟩ &&
          (List.range 64).find? (fun i => (u.streamAt i).isNone) == some 0 && (u.engineFor d 0).isSome
        | _ => false) = true) ∧
    (let c := vidCmd 2 0 63 0 0 0 0; vidMet (vidState c [] []) 2 c ∧ (vidState c [] []).videoStream (vidHost c) = none) ∧
    (∀ v ∈ [stream0 0 (vidDesc 0 []) [], stream0 0 (vidDesc 0 []) [blankUnit 0 0], { stream0 0 (vidDesc 0 []) [] with stop := 0x0805 }],
      let c := vidCmd 2 0 63 0 0 0 0; vidMet (vidState c [v] []) 2 c ∧ (vidState c [v] []).videoStream (vidHost c) = some v ∧
        v.closing = none ∧ v.closeFor = [] ∧ v.openRow = none) ∧
    (∀ x ∈ [(3, 0), (3, 1), (4, 1), (5, 2)], let v := { stream0 0 (vidDesc x.2 []) [] with stop := 0x0805 }; let c := vidCmd x.1 0 63 0 0 0 0;
      streamMet (vidState c [v] []) x.1 c x.2 v ∧ v.stop ≠ 0) ∧
    (let c := vidCmd 3 0 63 0x40180000 0x40190000 64 0; let v := stream0 0 (vidDesc 0 []) []; streamMet (vidState c [v] []) 3 c 0 v ∧ v.stop = 0) ∧
    (let c := vidCmd 3 2 63 0x40180000 0 0 0; let v := stream0 9 encodeDesc []; streamMet (vidState c [v] []) 3 c 1 v ∧ v.stop = 0 ∧
      (vidHost c).at 16 8 = 0 ∧ (vidHost c).at 24 4 = 0) ∧
    (let c := vidCmd 4 0 63 0 0 0 64; let u := coding 63 [] true; let v := stream0 9 encodeDesc [u]; streamMet (vidState c [v] []) 4 c 1 v ∧
      v.advancing = some u ∧ u.rows < (vidHost c).at 28 4 ∧ (vidHost c).at 28 4 ≤ v.height ∧ ∀ h ∈ v.units, h.headers = true) ∧
    (let c := vidCmd 5 0 63 0x50000000 0 0 0; let v := stream0 14 ingestDesc []; let s := vidState c [v] sample0; streamMet s 5 c 2 v ∧
      bit ((vidHost c).at 1 1) 0 = false ∧ tokenCount v sample0 ≤ v.param 0x24 4 ∧
      (match s.vRead 0 0x50000000 32 with
        | .ok (d, u) => d == sample0 && leAt d 0x18 4 != 0 && leAt d 0x1C 1 ≤ 1 && leAt d 0x1D 3 == 0 &&
          match (u.addUnit (vidHost c) v { blankUnit 2 0x50000000 with sample := d }).vRead 0 (leAt d 8 8) (sampleLength d) with
          | .ok _ => true
          | _ => false
        | _ => false) = true) ∧
    (let c := vidCmd 5 0 63 0x50000000 0 0 0; let v := stream0 14 ingestDesc []; let s := vidState c [v] []; streamMet s 5 c 2 v ∧
      (match s.vRead 0 0x50000000 32 with | .ok (d, _) => leAt d 0x18 4 == 0 | _ => false) = true) := by
  refine ⟨by decide +kernel, by decide +kernel, by decide +kernel, by decide +kernel, by decide +kernel, by decide +kernel,
    by decide +kernel, by decide +kernel, by decide +kernel, by decide +kernel⟩

/-- A stream of pictures of 2 by 2 samples. -/
def tinyDesc (kind : Nat) : List Byte :=
  let d := vidDesc kind []
  d.take 4 ++ leBytes 2 2 ++ leBytes 2 2 ++ d.drop 8

/-- No room is left in a ring whose every byte waits to be read, for a record of any payload: SLICE_EMIT waits. -/
theorem witness_FullRing (s : State) (v : Stream) (hv : 0 < v.ringBytes)
    (h : (s.getF (F.VID_STR_OUT_WR_BYTES v.slot) + 2 ^ 32 - s.getF (F.VID_STR_OUT_RD_BYTES v.slot)) % 2 ^ 32 = v.ringBytes)
    (uid : Option Nat) (step : Nat) (head payload : List Byte) : s.writeRecord v uid step head payload = (s, false) := by
  have room (n : Nat) (hn : 0 < n) : s.ringRoom v n = false := by
    simp only [State.ringRoom, h, Bool.and_eq_false_iff, decide_eq_false_iff_not]
    omega
  have hm := Nat.mod_lt (s.getF (F.VID_STR_OUT_WR_BYTES v.slot)) hv
  unfold State.writeRecord
  simp [room ((32 + payload.length + 63) / 64 * 64) (by omega),
    room (v.ringBytes - s.getF (F.VID_STR_OUT_WR_BYTES v.slot) % v.ringBytes) (by omega)]

/-- What the engines' own functions (`Config.decodeUnit`, `encodeSlice`, `encodeEnd`, `ingestSample`) answer is free, so what a clause of the
statement asks of it is not shown; the rest of each clause's premises is, and a slice with no room in its ring (`witness_FullRing`). -/
theorem witness_EnginesWorkTheirUnits :
    (vidState 0 [] []).bandUnits 9 = [] ∧
    (let u := blankUnit 0 0x50000000; let v := stream0 0 (vidDesc 0 []) [u]; (vidState 0 [v] []).bandUnits 0 = [(v, u)] ∧ v.kind ≠ 1) ∧
    (let u := { coding 2 [] false with addr := 0x50000000 }; let v := stream0 9 (tinyDesc 1) [u]; let s := vidState 0 [v] [];
      s.bandUnits 9 = [(v, u)] ∧ v.kind = 1 ∧ (v.height, planeRow v v.width) = (2, 64) ∧
      (readRuns 0 [(0x50000000, 128), (0x50000080, 64), (0x500000C0, 64)] s).isSome = true) ∧
    (vidState 0 [] []).streamAt 63 = none ∧
    (let u := { blankUnit 0 0x50000000 with length := 4 }; let v := stream0 0 (vidDesc 0 []) [u];
      let s := { vidState 0 [v] [] with vid.bands := [(0, 63, 0)] };
      s.streamAt 63 = some v ∧ v.stop = 0 ∧ v.closing = none ∧ v.closeFor = [] ∧ v.fresh = true ∧ s.unitTaken 63 u = true ∧
      (match s.vRead 0 u.addr u.length with | .ok _ => true | _ => false) = true) ∧
    (let u := coding 64 [[1]] true; let v := stream0 9 encodeDesc [u];
      let s := (vidState 0 [v] []).putF (F.VID_STR_OUT_WR_BYTES 63) 65536;
      s.streamAt 63 = some v ∧ v.fresh = true ∧ v.sliceEnd u.slices ≤ u.bands.length ∧ (v.sliceEnd u.slices == v.bandCount) = true ∧
      0 < v.ringBytes ∧ (s.getF (F.VID_STR_OUT_WR_BYTES v.slot) + 2 ^ 32 - s.getF (F.VID_STR_OUT_RD_BYTES v.slot)) % 2 ^ 32 = v.ringBytes) ∧
    (let u := { blankUnit 2 0x50000000 with sample := leBytes 8 0 ++ leBytes 8 0x50000000 ++ leBytes 4 0 ++ leBytes 4 64 ++ leBytes 8 1 };
      let v := { stream0 14 ingestDesc [u] with openRow := some 0 };
      let s := { vidState 0 [v] [] with vid.bands := [(0, 63, 0)] };
      s.streamAt 63 = some v ∧ s.unitTaken 63 u = true ∧ u.fromTier = false ∧ v.rowTokens + tokenCount v u.sample ≤ v.param 0x24 4 ∧
      (match s.vRead 0 (leAt u.sample 8 8) (sampleLength u.sample) with | .ok _ => true | _ => false) = true) ∧
    (let v := { stream0 9 encodeDesc [] with busyRows := [0] }; (vidState 0 [v] []).streamAt 63 = some v) ∧
    (let v := stream0 15 ingestDesc []; let s := vidState 0 [v] [];
      15 ∉ s.vid.failed ∧ s.vid.streams = [v] ∧ v.engine = 15 ∧ v.closing = none ∧ ∀ x ∈ s.vid.streams, x.engine ≠ 14) ∧
    15 ∈ { vidState 0 [] [] with vid.failed := [15] }.vid.failed := by
  refine ⟨by decide +kernel, by decide +kernel, by decide +kernel, by decide +kernel, by decide +kernel, by decide +kernel,
    by decide +kernel, by decide +kernel, by decide +kernel, by decide +kernel⟩

/-! ## Witnesses: power, islands and temperature -/

/-- The device with its supply, its converters and one sensor that reads a temperature. -/
def powered (state : Nat) (temps : List (Nat × Nat × Nat)) : State :=
  ({ dev state with pwr.temps := temps } : State).putF F.PWR_BUS_CONVERTERS 3

def tests0 : BootTests := ⟨[], [], [], [], [], [], 0, goodSig, goodSig⟩

theorem witness_PowerComesAndGoes :
    rst.pwr.supply = false ∧ (dev 3).pwr.supply = true ∧
    (∀ mv ∈ [44000, 58000], (dev 3).pwr.supply = true ∧ 44000 ≤ mv ∧ mv ≤ 58000) ∧
    (∀ mv ∈ [39999, 60001], mv < 40000 ∨ 60000 < mv) ∧
    (∀ mv ∈ [40000, 43999, 58001, 60000], 40000 ≤ mv ∧ mv ≤ 60000 ∧ (mv < 44000 ∨ 58000 < mv)) ∧
    (dev 3).pwr.outSince = none ∧
    (let s := { dev 3 with pwr.outSince := some 0, timeNs := 1000000 };
      s.pwr.supply = true ∧ s.pwr.outSince = some 0 ∧ s.pwr.outTold = false ∧ 0 + 1000000 ≤ s.timeNs) ∧
    bit ((dev 3).getF F.PWR_BUS_CONVERTERS) 7 = false ∧
    (bit ((powered 3 []).getF F.PWR_BUS_CONVERTERS) 1 = true ∧ (powered 3 []).getF F.GLB_PROFILE_RETIRE = 0 ∧
      ((powered 3 []).putF F.GLB_PROFILE_RETIRE 1).getF F.GLB_PROFILE_RETIRE = 1) ∧
    (tests0.wf = true ∧ (powered 2 []).devState ≠ 1) ∧
    (∀ x ∈ [(true, 94), (true, 80), (false, 94)],
      let s := { powered 1 [(4, 0, x.2)] with pwr.starting := true, pwr.tripped := x.1 };
      s.devState = 1 ∧ s.pwr.starting = true ∧ s.sec.recovery = false ∧ s.getF F.GLB_PROFILE_RETIRE = 0 ∧ s.tooHot = (x.2 == 94)) ∧
    (bit (0 : Word).toNat 0 = false ∧ bits (1 : Word).toNat 1 0 = 1) ∧
    (∀ n ∈ [1, 2, 3, 4, 5, 6], (dev n).devState = n) ∧
    (dev 5).job.records = [] ∧ { dev 5 with job.records := [record0 0] }.job.records ≠ [] ∧
    (∀ x ∈ [(1, 1219, 104), (2, 7, 107), (3, 7, 84), (4, 4095, 84)], x.2.1 < sensorCount x.1 ∧ x.2.2 < tripAt x.1 ∧
      (warnAt x.1).all (fun w => x.2.2 < w) = true ∧ (x.1, x.2.1) ∉ (dev 3).pwr.warned) ∧
    (∀ x ∈ [(1, 0, 115), (2, 0, 108), (3, 0, 90), (4, 0, 95)], x.2.1 < sensorCount x.1 ∧ tripAt x.1 ≤ x.2.2 ∧ (dev 3).pwr.tripped = false) := by
  refine ⟨by decide +kernel, by decide +kernel, by decide +kernel, by decide +kernel, by decide +kernel, by decide +kernel,
    by decide +kernel, by decide +kernel, by decide +kernel, by decide +kernel, by decide +kernel, by decide +kernel, by decide +kernel, by decide +kernel, by decide +kernel, by decide +kernel, by decide +kernel⟩

/-- An island in a state, calibrated at 60 °C and a load index of 40. -/
def islandAt (i state : Nat) : State :=
  ((((dev 2).putF (F.PWR_ISL_STATE_STATE i) state).putF (F.PWR_ISL_CAL_F_MHZ i) 1000).putF (F.PWR_ISL_CAL_COND_TEMP_C i) 60).putF
    (F.PWR_ISL_CAL_COND_LOAD_INDEX i) 40

theorem witness_IslandsAreManaged :
    (∀ i ∈ [0, 1219], (islandAt i 2).islandOn i = false ∧ (islandAt i 1).islandOn i = true ∧ (1, i) ∉ (islandAt i 1).pwr.warned ∧
      (islandAt i 1).calStale i 81 75 = true ∧ (islandAt i 1).calStale i 80 76 = true ∧ (islandAt i 1).calStale i 80 75 = false) ∧
    (dev 3).momentOk 1 = false ∧
    (let s := (islandAt 1219 1).putF (F.PWR_ISL_STATE_RECAL_PENDING 1219) 1; s.momentOk 1 = true ∧ s.recalPending ≠ []) ∧
    (bit (1 : Word).toNat 0 = true ∧ bits (0 : Word).toNat 1 0 = 0 ∧ bits (2 : Word).toNat 1 0 = 2 ∧ bits (1 : Word).toNat 1 0 = 1) ∧
    (∀ i ∈ [0, 1219], (islandAt i 1).islandWork i = false ∧ (islandAt i 1).islandState i = 1 ∧ (islandAt i 3).islandState i = 3 ∧
      (islandAt i 0).islandState i = 0 ∧ (islandAt i 4).islandState i = 4) ∧
    ({ islandAt 0 1 with job.jobs := [job0] }.islandWork 0 = true ∧ { islandAt 1219 1 with job.jobs := [job0] }.islandWork 1219 = true) ∧
    (∀ p ∈ [0, 1087], (islandAt p 4).islandState p = 4 ∧ (islandAt p 4).job.jobs = []) ∧
    (∀ i ∈ [1196, 1199], (islandAt i 4).islandState i = 4 ∧ (islandAt i 1).islandState i ≠ 4 ∧ (islandAt i 1).devState ≠ 5) ∧
    (let r : Nat × Instr := (0, .doorbell .host 0 1 []);
      (dev 2).pwr.retries = [] ∧
      (let s := { islandAt 0 4 with pwr.retries := [r] }; s.pwr.retries ≠ [] ∧ ∀ x ∈ s.pwr.retries, s.islandState x.1 = 4 ∨ s.islandState x.1 = 5) ∧
      (let s := { islandAt 0 1 with pwr.retries := [r] }; s.pwr.retries = [r] ∧ s.islandState r.1 ≠ 4 ∧ s.islandState r.1 ≠ 5)) ∧
    (∀ p ∈ [0, 1087],
      (let s := ((islandAt p 2).putF (F.JOB_CORE_STATUS_STATE p) 1).putF F.PWR_IDLE_RET_US_US 10;
        s.getF (F.JOB_CORE_STATUS_STATE p) = 1 ∧ s.islandState p = 2 ∧ s.getF F.PWR_IDLE_RET_US_US ≠ 0) ∧
      (islandAt p 1).islandState p ≠ 2) ∧
    (∀ i ∈ [1156, 1187, 1196, 1216], ((islandAt i 1).islandState i = 1) ∧
      (wakesOnLatch i = true ∧ (islandAt i 2).islandState i = 2 ∧ i ∉ (islandAt i 2).pwr.latches ∧
        (1156 ≤ i → i < 1188 → (islandAt i 2).portState (i - 1156) ≠ 5)) ∧ ((islandAt i 4).islandState i ≠ 2 ∧ (islandAt i 4).islandState i ≠ 3)) ∧
    (∀ i ∈ [0, 1155, 1188, 1195, 1217, 1219], wakesOnLatch i = false ∧ (islandAt i 2).islandState i ≠ 1) ∧
    (∀ i ∈ [0, 1196, 1199, 1219], (islandAt i 0).islandState i = 0 ∧ (islandAt i 1).islandState i ≠ 0 ∧ i ∉ (islandAt i 1).pwr.phasesUsed ∧
      i ∉ (islandAt i 1).pwr.clocksUsed ∧ i ∈ { islandAt i 1 with pwr.phasesUsed := [i] }.pwr.phasesUsed ∧
      i ∈ { islandAt i 1 with pwr.clocksUsed := [i] }.pwr.clocksUsed) ∧
    (let s := (portAt 2).putF F.PWR_PORT_LP_MASK_MASK (2 ^ 31); bit (s.getF F.PWR_PORT_LP_MASK_MASK) 31 = true ∧ s.portState 31 = 2 ∧
      (s.port 31).queue = [] ∧ (s.port 31).replay = [] ∧ 1156 + 31 ∉ s.pwr.latches) ∧
    (bit ((portAt 2).getF F.PWR_PORT_LP_MASK_MASK) 31 = false ∧ (portAt 5).portState 31 = 5 ∧ (portAt 2).portState 31 ≠ 5) := by
  refine ⟨by decide +kernel, by decide +kernel, ⟨by decide +kernel, fun h => ?_⟩, by decide +kernel, by decide +kernel, by decide +kernel,
    by decide +kernel, by decide +kernel, by decide +kernel, by decide +kernel, by decide +kernel, by decide +kernel, by decide +kernel,
    by decide +kernel, by decide +kernel⟩
  have m : 1219 ∈ ((islandAt 1219 1).putF (F.PWR_ISL_STATE_RECAL_PENDING 1219) 1).recalPending :=
    List.mem_filter.2 ⟨List.mem_range.2 (by decide), by decide +kernel⟩
  rw [h] at m
  exact List.not_mem_nil m

/-! ## Witnesses: the host interface -/

/-- The host link up, its island on. -/
def trained : State := { (dev 3).putF (F.PWR_ISL_STATE_STATE 1217) 1 with host.up := true }

/-- A transfer of context 5 that waits on a channel, four of its eight bytes taken. -/
def transfer0 (vc : Nat) : Transfer := ⟨vc, some 5, none, 0x1000, [1, 2, 3, 4, 5, 6, 7, 8], 4⟩

theorem witness_HostLinkTrainsResetsAndStalls :
    (dev 3).islandOn 1217 = false ∧
    (∀ gen ∈ [1, 6], ∀ width ∈ [1, 16], trained.islandOn 1217 = true ∧ 1 ≤ gen ∧ gen ≤ 6 ∧ width ∈ [1, 2, 4, 8, 16]) ∧
    (rst.host.up = false ∧ trained.host.up = true ∧ trained.host.d3 = false ∧ { trained with host.d3 := true }.host.d3 = true) ∧
    (∀ gib ∈ [1, 64], trained.host.up = true ∧ 2 ≤ 2 ∧ (∀ v ∈ [0, 63], v < 64) ∧ gib ∈ [1, 2, 4, 8, 16, 32, 64]) ∧
    (∀ vc ∈ [0, 2], (linked trained).vcFlows vc = true ∧
      let s := { linked trained with host.stalled := [vc], host.dma := [transfer0 vc] };
        s.vcFlows vc = false ∧ s.getF (F.GLB_DMA_SUSP_SUSPENDED vc) = 0 ∧
        s.host.dma.find? (fun (x : Transfer) => x.vc == vc) = some (transfer0 vc)) := by
  refine ⟨by decide +kernel, by decide +kernel, by decide +kernel, by decide +kernel, by decide +kernel⟩

/-- A channel with a request of LENGTH bytes at a pointer, in a state, its target's island on or quiescing. -/
def channel (c st ptr len op island : Nat) : State :=
  let s := ((((dev 3).putF (ackState c) st).putP (reqPtr c) ptr).putF (reqLen c) len).putF (reqOp c) op
  match s.chanIsland c with
  | some i => s.putF (F.PWR_ISL_STATE_STATE i) island
  | none => s

def notice0 (c op : Nat) : Notice := ⟨c, 0x1000, 64, op, 5, 0, 0⟩
def noticed (c op : Nat) : State := { channel c 1 0x1000 64 op 1 with mail.notices := [notice0 c op] }

/-- Source 3 pending for a target, sent to vector 7. -/
def pendingFor (g : Nat) : State :=
  ((trained.putF (F.IRQ_SRC_PENDING 3) (2 ^ g)).putF (F.IRQ_SRC_VECTOR 3) 7).putF (F.IRQ_SRC_MASK 3) 0

theorem witness_NoticesAndInterruptsAreServed :
    (∀ c ∈ [32, 63], isSecure .host = false ∧ isSecure .ctrlA = true ∧ 32 ≤ c) ∧
    (∀ c ∈ [24, 31, 32, 63], (channel c 0 0x1000 64 1 4).chanQuiet c ≠ none) ∧
    (∀ c ∈ [0, 31, 32, 63],
      ((channel c 1 0x1000 64 1 1).chanQuiet c = none ∧ (channel c 1 0x1000 64 1 1).chanBusy c = true ∧ (channel c 2 0x1000 64 1 1).chanBusy c = true) ∧
      (let s := channel c 3 0x1004 64 1 1; s.chanQuiet c = none ∧ s.chanBusy c = false ∧ s.chanOn c = true ∧
        badNotice c (s.getP (reqPtr c)) (s.getF (reqLen c)) = true) ∧
      (let s := channel c 0 0x1000 64 0x8001 1; s.chanQuiet c = none ∧ s.chanBusy c = false ∧ s.chanOn c = true ∧
        badNotice c (s.getP (reqPtr c)) (s.getF (reqLen c)) = false ∧ bit (s.getF (reqOp c)) 15 = true)) ∧
    (∀ c ∈ [24, 31, 32, 63], let s := channel c 0 0x1000 64 1 0; s.chanQuiet c = none ∧ s.chanBusy c = false ∧ s.chanOn c = false) ∧
    (∀ c ∈ [0, 31], let s := channel c 0 0x1000 64 1 1; s.chanQuiet c = none ∧ s.chanBusy c = false ∧ s.chanOn c = true ∧
      badNotice c (s.getP (reqPtr c)) (s.getF (reqLen c)) = false ∧ bit (s.getF (reqOp c)) 15 = false) ∧
    ((dev 3).notice 0 = none ∧ ∀ c ∈ [0, 63], (noticed c 0).notice c = some (notice0 c 0) ∧ opImplemented c 0 = true ∧
      (noticed c 9).notice c = some (notice0 c 9) ∧ opImplemented c 9 = false ∧ (notice0 c 9).op ≠ 0) ∧
    (∀ c ∈ [0, 31, 32, 63], let s := channel c 0 0 0 0 1; s.chanOn c = true ∧ s.getF (ackTgt c) = 0 ∧ badNotice c 0x1000 8 = false ∧
      badNotice c 0x1001 8 = true) ∧
    (channel 0 0 0 0 0 1).clean ∧
    (∀ c ∈ [0, 31, 32, 63], let s := (channel c 0 0 0 0 1).putF (ackTgt c) 1; s.chanQuiet c = none ∧ s.chanOn c = true ∧ s.getF (ackTgt c) ≠ 0) ∧
    (∀ g ∈ [0, 1, 5], let s := ((pendingFor g).putF (F.PWR_ISL_STATE_STATE 1218) 1).putF (F.PWR_ISL_STATE_STATE 1155) 1;
      s.getF (F.IRQ_TGT_ACTIVE_VALID g) = 0 ∧ s.targetOn g = true ∧ s.irqNext g false (fun _ => true) = some 3) ∧
    ((dev 3).targetOn 1 = false) ∧
    (rst.msixOpen = false) ∧
    (∀ m ∈ [[], [7]], let s := { (linked (pendingFor 6)).putF F.GLB_HOST_LINK_MSIX_ENABLED 1 with host.masked := m };
      s.msixOpen = true ∧ s.getF (F.IRQ_HOST_VEC_OUTSTANDING 7) = 0 ∧
      s.irqNext 6 false (fun n => s.getF (F.IRQ_SRC_VECTOR n) == 7) = some 3 ∧ s.recordsWait 3 (s.irqClass 3) = false ∧
      s.vcOpen (s.vcOf (s.irqClass 3)) = true) ∧
    (∀ x ∈ [(0, Requester.ctrlA), (1, .secure), (5, .supervisor 3)],
      let s := (trained.putF (F.IRQ_TGT_ACTIVE_VALID x.1) 1).putF (F.IRQ_TGT_ACTIVE_SOURCE x.1) 215;
      s.isTarget x.1 x.2 = true ∧ s.getF (F.IRQ_TGT_ACTIVE_VALID x.1) = 1 ∧ s.getF (F.IRQ_TGT_ACTIVE_SOURCE x.1) = (215 : Word).toNat % 256) ∧
    (trained.isTarget 0 .host = false) ∧
    (trained.getF (F.IRQ_HOST_VEC_OUTSTANDING 0) = 0 ∧
      (trained.putF (F.IRQ_HOST_VEC_OUTSTANDING 63) 1).getF (F.IRQ_HOST_VEC_OUTSTANDING ((63 : Word).toNat % 64)) = 1) := by
  refine ⟨by decide +kernel, by decide +kernel, by decide +kernel, by decide +kernel, by decide +kernel, by decide +kernel,
    by decide +kernel, by decide +kernel, by decide +kernel, by decide +kernel, by decide +kernel, by decide +kernel, by decide +kernel,
    by decide +kernel, by decide +kernel, by decide +kernel⟩

/-! ## Witnesses: security, firmware and management -/

/-- A notice in flight on a channel with an opcode, from a requester, its payload at 0x1000. -/
def mailed (c op who : Nat) (p : List Byte) : State :=
  let s := dev 3
  { s with
    mail.notices := [⟨c, 0x1000, p.length, op, 5, 0, who⟩]
    mail.store := if c < 32 then [] else storeSetRun zeroByte [] 0x1000 p
    mem.hbm := if c < 32 then storeSetRun zeroByte [] 0x1000 p else [] }

def mailing (c op who : Nat) (p : List Byte) : Notice := ⟨c, 0x1000, p.length, op, 5, 0, who⟩

/-- A caller asks for an opcode, with its payload. -/
abbrev askMet (c op who : Nat) (p : List Byte) : Prop :=
  (mailed c op who p).asks c op (mailing c op who p) ∧ (mailed c op who p).payload (mailing c op who p) = p

/-- A number of 16 bytes among others reads back. -/
theorem witness_Bytes16 (a c : List Byte) (n : Nat) (h : n < 2 ^ 128) : leAt (a ++ leBytes 16 n ++ c) a.length 16 = n := by
  have e (k : Nat) : ∀ m, leNat (leBytes k m) = m % 256 ^ k := by
    induction k with
    | zero => intro m; simp [leBytes, leNat, Nat.mod_one]
    | succ k ih =>
      intro m
      simp only [leBytes, leNat, ih, BitVec.toNat_ofNat]
      rw [show 256 ^ (k + 1) = 256 * 256 ^ k from Nat.pow_succ', Nat.mod_mul]
  have l (k : Nat) : ∀ m, (leBytes k m).length = k := by
    induction k with
    | zero => intro m; rfl
    | succ k ih => intro m; simp [leBytes, ih]
  rw [leAt, List.append_assoc, List.drop_left, List.take_left' (l 16 n), e]
  exact Nat.mod_eq_of_lt h

/-- A run of a store that lists nothing. -/
theorem witness_EmptyRun (k n : Nat) : storeGetRun zeroByte [] k n = List.replicate n 0 := by
  rw [List.eq_replicate_iff]
  refine ⟨by simp [storeGetRun], fun b hb => ?_⟩
  obtain ⟨i, -, rfl⟩ := List.mem_map.1 hb
  rfl

/-- A payload in a message store that lists nothing. -/
theorem witness_EmptyPayload (s : State) (n : Notice) (hc : ¬ n.chan < 32) (hs : s.mail.store = []) : s.payload n = List.replicate n.len 0 := by
  rw [State.payload, if_neg hc, hs, witness_EmptyRun]

/-- A debug token of requester 0 for every facility, signed by slot 0. -/
def token0 : List Byte :=
  (leBytes 4 0x51534454 ++ leBytes 2 1 ++ [7, 0]) ++ leBytes 16 Config.fuseUid.toNat ++ (leBytes 16 9 ++ leBytes 4 60 ++ List.replicate 132 0)

/-- An enrolment record of an OP for slot 2, its counter 1. -/
def record2 (op : Nat) : List Byte :=
  (leBytes 1 op ++ [2, 0, 0, 0, 0, 0, 0]) ++ leBytes 16 Config.fuseUid.toNat ++ (leBytes 8 1 ++ List.replicate 288 0)

theorem witness_TokensAndRecords :
    (let s := { mailed 32 0x11 0 [] with sec.nonces := [⟨0, 9, 60⟩] }; s.tokenOk 0 token0 = true) ∧
    rst.enrolOk 1 (record2 1) = true ∧
    (let s := { rst with sec.owners := [(2, [])] }; s.enrolOk 2 (record2 2) = true ∧ s.enrolled 2 = true) ∧ rst.enrolled 2 = false := by
  have u : Config.fuseUid.toNat < 2 ^ 128 := Config.fuseUid.isLt
  have ht : leAt token0 8 16 = Config.fuseUid.toNat := witness_Bytes16 (leBytes 4 0x51534454 ++ leBytes 2 1 ++ [7, 0]) _ _ u
  have hr (op : Nat) : leAt (record2 op) 8 16 = Config.fuseUid.toNat := witness_Bytes16 (leBytes 1 op ++ [2, 0, 0, 0, 0, 0, 0]) _ _ u
  refine ⟨?_, ?_, ⟨?_, by decide +kernel⟩, by decide +kernel⟩
  · simp only [State.tokenOk, ht, Bool.and_eq_true]
    exact ⟨⟨⟨⟨⟨⟨⟨⟨⟨⟨⟨by decide +kernel, by decide +kernel⟩, by decide +kernel⟩, by decide +kernel⟩, by decide +kernel⟩, by decide +kernel⟩,
      by decide +kernel⟩, beq_self_eq_true _⟩, by decide +kernel⟩, by decide +kernel⟩, by decide +kernel⟩, by decide +kernel⟩
  all_goals
    simp only [State.enrolOk, hr, Bool.and_eq_true]
    exact ⟨⟨⟨⟨⟨⟨⟨⟨by decide +kernel, by decide +kernel⟩, by decide +kernel⟩, by decide +kernel⟩, by decide +kernel⟩, by decide +kernel⟩,
      beq_self_eq_true _⟩, by decide +kernel⟩, by decide +kernel⟩

/-- Shared weights of an encrypted partition of 64 pages from page 1024, or of one that is banked. -/
def weightState (c flags : Nat) : State :=
  let s := { mailed c 0x14 0 [] with
    img.sections := [sec 5 (pad 32 (leBytes 4 1024 ++ leBytes 4 64 ++ leBytes 4 0 ++ leBytes 2 flags ++ leBytes 1 0xFF))]
    sec.keyLoaded := true }.putF F.SIL_STATUS_IMAGE_VALID 1
  s.putF F.REL_STRIPE_STATUS_STATE 2

/-- A page of the weights, encrypted: its number is the payload's first word, which is zero. -/
theorem witness_WeightsImport (flags : Nat) (hf : flags = 0x18 ∨ flags = 0x1A) :
    let n : Notice := ⟨32, 0x1000, 32 + pageBytes, 0x14, 5, 0, 0⟩
    let s := { weightState 32 flags with mail.notices := [n] }
    s.asks 32 0x14 n ∧ (List.replicate pageBytes (0 : Byte)).length = pageBytes ∧ (s.payload n).length = 32 + pageBytes ∧ leAt (s.payload n) 0 4 = 0 ∧
      s.clean ∧ s.sec.keyLoaded = true ∧
      (match s.weights with | some w => w.priv && 0 < w.count && s.bankedNow w == (flags == 0x1A) | none => false) = true := by
  refine ⟨by rcases hf with rfl | rfl <;> decide +kernel, List.length_replicate, ?_, ?_, ?_, by rcases hf with rfl | rfl <;> decide +kernel,
    by rcases hf with rfl | rfl <;> decide +kernel⟩
  · rw [witness_EmptyPayload _ _ (by decide) (by rcases hf with rfl | rfl <;> rfl), List.length_replicate]
  · rw [witness_EmptyPayload _ _ (by decide) (by rcases hf with rfl | rfl <;> rfl), leAt, List.drop_zero, List.take_replicate]
    decide +kernel
  · rcases hf with rfl | rfl <;> decide +kernel

/-- A structure image of KIND 2 that a requester stores in slot A or B. -/
def storing (slot : Nat) : List Byte := leBytes 8 slot ++ patch 2 7

theorem witness_MailboxServicesAnswer :
    (dev 3).notice 5 = none ∧
    (∀ c ∈ [0, 23], ∀ op ∈ [1, 2, 3, 4, 5], askMet c op 0 [1, 2, 3, 4] ∧ (mailing c op 0 []).op ≠ op + 1) ∧
    (∀ c ∈ [24, 27], askMet c 1 0 []) ∧
    (∀ c ∈ [28, 31, 32, 63], ∀ op ∈ [0x10, 0x11, 0x12, 0x13, 0x14, 0x8001, 0x8002, 0x8003], askMet c op 1 [1]) ∧
    (let s := { mailed 0 1 0 [1] with mem.poison := [(64, true)] }; s.notice 0 = some (mailing 0 1 0 [1]) ∧ s.poisoned 0x1000 1 = true) ∧
    (0x1000 + (mailed 0 1 0 []).infoBytes.length ≤ 2 ^ 30 ∧ 2 ^ 30 < 2 ^ 30 - 8 + (mailed 0 1 0 []).infoBytes.length) ∧
    (∀ d ∈ [1, 2, 5], let s := (mailed 0 2 0 []).putF F.JOB_DEVICE_STATE_STATE d; s.devState = d ∧ s.pwr.tripped = false ∧ s.sec.recovery = false) ∧
    (dev 0).devState = 0 ∧
    (∀ slot ∈ [0, 1], let p := storing slot; let s := mailed 0 4 0 []; 8 ≤ p.length ∧ leAt p 0 1 = slot ∧
      s.checks1to4 (p.drop 8) goodSig = none ∧ (s.checks1to4 (p.drop 8) ⟨false, 0⟩).isSome = true) ∧
    1 < leAt (storing 2) 0 1 ∧
    (∀ r ∈ [0, 1], ((mailed 0 5 0 []).putF F.GLB_PROFILE_RETIRE r).getF F.GLB_PROFILE_RETIRE = r) ∧
    (0x1000 + 16 ≤ chanBytes 32 ∧ chanBytes 32 < 2 ^ 20 - 8 + 16 ∧ 0x1000 + 16 ≤ chanBytes 31) ∧
    (mailed 32 0x11 0 [1]).tokenOk 0 [1] = false ∧
    (let s := { dev 3 with sec.nonces := [⟨0, 9, 60⟩], sec.tokens := [⟨1, 7, 0, 60⟩] };
      (∃ x ∈ s.sec.nonces, x.who = 0) ∧ (∀ x ∈ s.sec.nonces, x.who ≠ 1) ∧ (∃ x ∈ s.sec.tokens, x.who = 1) ∧ ∀ x ∈ s.sec.tokens, x.who ≠ 0) ∧
    (dev 3).weights = none ∧
    (mailed 32 0x8001 1 [1]).enrolOk 1 [1] = false ∧ (mailed 32 0x8001 1 [1]).enrolOk 2 [1] = false ∧
    (let p := List.replicate 96 (0 : Byte) ++ leBytes 8 5; askMet 32 0x8002 2 p ∧ (mailing 32 0x8002 2 p).who = 2 ∧ 104 ≤ p.length ∧
      (mailing 32 0x8002 1 p).who ≠ 2) ∧
    (askMet 32 0x8003 1 (patch 1 2) ∧ 256 ≤ (patch 1 2).length ∧ imageKind (patch 1 2) = 1 ∧ imageKind (patch 2 7) ≠ 1) := by
  refine ⟨by decide +kernel, by decide +kernel, by decide +kernel, by decide +kernel, by decide +kernel, by decide +kernel,
    by decide +kernel, by decide +kernel, by decide +kernel, by decide +kernel, by decide +kernel, by decide +kernel, by decide +kernel,
    by decide +kernel, by decide +kernel, by decide +kernel, by decide +kernel, by decide +kernel, by decide +kernel⟩

/-- A bundle of six components, signed by slot 0. -/
def bundle0 : List Byte :=
  pad 128 (leBytes 4 0x51534657 ++ leBytes 2 1 ++ leBytes 2 2 ++ leBytes 4 640 ++ leBytes 4 7 ++ leBytes 4 3 ++ leBytes 2 6 ++ leBytes 2 0x1024) ++
    ((List.range 6).flatMap fun i => pad 64 (leBytes 8 (i + 1) ++ leBytes 4 512)) ++ List.replicate 128 0

def goodFw : FwVerdict := ⟨true, true, true⟩

theorem witness_ManagementAndFirmwareAct :
    (dev 0).mgmtUp = false ∧
    (∀ d ∈ [1, 3], (dev d).mgmtUp = true ∧ (dev d).sec.recovery = false ∧ (dev d).notReady = (d == 1)) ∧
    { dev 1 with sec.recovery := true }.sec.recovery = true ∧
    (dev 3).sec.sessions = 0 ∧ { dev 3 with sec.sessions := 1 }.sec.sessions ≠ 0 ∧ 4 ≤ { dev 3 with sec.sessions := 4 }.sec.sessions ∧
    (dev 3).sensor 0 = none ∧ ((dev 3).sensor 1).map (·.1) = some false ∧ ((dev 3).sensor 61).map (·.1) = some true ∧
    (dev 3).checkBundle bundle0 goodFw = 0 ∧ (dev 3).checkBundle [] goodFw ≠ 0 ∧ { dev 1 with sec.recovery := true }.checkBundle bundle0 goodFw = 0 ∧
    (∀ d ∈ [1, 3], let s := { dev d with sec.verified := true }; s.mgmtUp = true ∧ s.sec.verified = true ∧ s.sec.recovery = false ∧
      s.notReady = (d == 1)) ∧
    (dev 3).sec.verified = false ∧ (dev 3).momentOk 1 = false ∧
    (let s := { dev 2 with sec.activate := true, sec.staged := 1, sec.bundleB := bundle0 }; s.sec.activate = true ∧ s.momentOk 1 = true ∧
      bundleAdvance (s.bundle s.sec.staged) = true) := by
  refine ⟨by decide +kernel, by decide +kernel, by decide +kernel, by decide +kernel, by decide +kernel, by decide +kernel,
    by decide +kernel, by decide +kernel, by decide +kernel, by decide +kernel, by decide +kernel, by decide +kernel, by decide +kernel,
    by decide +kernel, by decide +kernel, by decide +kernel⟩

/-! ## Ill-formed commands: for each check of `Instr.wf`, a term at the end of its range and the next, which is refused -/

def okTests : BootTests := ⟨[1219], [7], [511], [⟨255, some 31⟩], [1087], [(3, 32)], 0, goodSig, goodSig⟩

def okFrame : Frame := ⟨3, 0xFFFF, 0xFFFFF, 0xFFFFF, 255, 1, 255, 255, 0xFFFFFFFFFFFF, 0xFFFFFFFF, 255, 0xFFFFFFFF, []⟩

theorem test_wf_edges_core : ∀ x ∈ ( [ (.bar0BadWidthAccess (.supervisor 3) false 0 8, .bar0BadWidthAccess (.supervisor 4) false 0 8),
    (.undefinedOffsetAccess .host false 0x3FFFFFC 0, .undefinedOffsetAccess .host false 0x4000000 0),
    (.registerWrite .host 0x3FFFFFC 0, .registerWrite .host 0x4000000 0),
    (.registerWrite (.supervisor 3) 0 0, .registerWrite (.supervisor 4) 0 0),
    (.pairLoRead .host 0, .pairLoRead .host 0x4000000),
    (.pairHiRead .host 0, .pairHiRead .host 0x4000000),
    (.pairLoWrite .host 0 0, .pairLoWrite .host 0x4000000 0),
    (.pairHiWrite .host 0 0, .pairHiWrite .host 0x4000000 0),
    (.silStart .host 0, .silStart (.supervisor 4) 0),
    (.ringHeadWrite .host 255 0, .ringHeadWrite .host 256 0),
    (.submitResultRead .host 255, .submitResultRead .host 256),
    (.completionRecordPost 255, .completionRecordPost 256),
    (.lullDeclare 0 0xFFFF, .lullDeclare 0 0x10000),
    (.load 1087 0, .load 1088 0),
    (.kvAlloc (.host 255), .kvAlloc (.host 256)),
    (.kvAlloc (.cell 255 1023), .kvAlloc (.cell 255 1024)),
    (.kvAlloc (.cell 255 1023), .kvAlloc (.cell 256 1023)),
    (.kvPinResume 0xFFFFFF, .kvPinResume 0x1000000),
    (.hbmTempRead 7 0, .hbmTempRead 8 0),
    (.regulatorTokensGrant 15 0, .regulatorTokensGrant 16 0),
    (.tgStart .host 511 0, .tgStart .host 512 0),
    (.tgRunComplete 511 [], .tgRunComplete 512 []),
    (.bar2Read 0x3FFFFFFF 1, .bar2Read 0x3FFFFFFF 2),
    (.bar2Write 0x3FFFFFFF [0], .bar2Write 0x3FFFFFFF [0, 0]),
    (.bar4Read 0xFFFFFFFFF 1, .bar4Read 0xFFFFFFFFF 2),
    (.bar4Write 0xFFFFFFFFF [0], .bar4Write 0xFFFFFFFFF [0, 0]),
    (.writeBackComplete 0xFFFFF, .writeBackComplete 0x100000) ] : List (Instr × Instr)), x.1.wf = true ∧ x.2.wf = false := by decide +kernel

theorem test_wf_edges_parts : ∀ x ∈ ( [ (.patrolScrub (.hbm 0 0 2 false false), .patrolScrub (.hbm 0 0 3 false false)),
    (.patrolScrub (.llm 3 0 2), .patrolScrub (.llm 4 0 2)),
    (.patrolScrub (.llm 3 0 2), .patrolScrub (.llm 3 0 3)),
    (.patrolScrub (.tier1 3 0 2), .patrolScrub (.tier1 4 0 2)),
    (.patrolScrub (.sram 1087 0 2), .patrolScrub (.sram 1088 0 2)),
    (.patrolScrub (.reduction 3 0 2), .patrolScrub (.reduction 4 0 2)),
    (.capabilityWordReceived 31 0, .capabilityWordReceived 32 0),
    (.linkTrainingAttemptEnd 31 63, .linkTrainingAttemptEnd 31 64),
    (.ackReceived 31 0xFFFF, .ackReceived 31 0x10000),
    (.laneLossOfLock 31 15, .laneLossOfLock 31 16),
    (.laneSwapCommand 31 15 17, .laneSwapCommand 31 15 18),
    (.heartbeatReceived 31 0xFFFFF, .heartbeatReceived 31 0x100000),
    (.squallReorderTimeout 31 3, .squallReorderTimeout 31 4),
    (.squallEnable .host 31 0, .squallEnable .host 32 0),
    (.bankedUnitRebuildDone 0x7FFFFFF, .bankedUnitRebuildDone 0x8000000),
    (.bandSelect 15, .bandSelect 16),
    (.sliceEmit 63, .sliceEmit 64),
    (.sampleComplete 63 0, .sampleComplete 64 0),
    (.rowFree .host 63 0, .rowFree .host 64 0),
    (.recalibrationSweep [1219], .recalibrationSweep [1220]),
    (.islandReset .host 1219 0, .islandReset .host 1220 0),
    (.islandDrained 1219, .islandDrained 1220),
    (.laserPowerUpdate 24 0 0, .laserPowerUpdate 23 0 0),
    (.laserPowerUpdate 31 0 0, .laserPowerUpdate 32 0 0),
    (.thermalSensorRead 1 1219 0, .thermalSensorRead 1 1220 0),
    (.thermalSensorRead 2 7 0, .thermalSensorRead 2 8 0),
    (.thermalSensorRead 4 4095 0, .thermalSensorRead 5 0 0),
    (.hostLinkTrained 6 16, .hostLinkTrained 7 16),
    (.hostLinkTrained 1 1, .hostLinkTrained 1 3),
    (.doorbell .host 63 0 [], .doorbell .host 64 0 []),
    (.nop 63, .nop 64),
    (.start (.notice 63), .start (.notice 64)),
    (.nonceExpire 2, .nonceExpire 3),
    (.pldmSensorRead 0xFFFF, .pldmSensorRead 0x10000),
    (.hostCreditReturn 2 true, .hostCreditReturn 3 true),
    (.interruptDeliver 6 63 false, .interruptDeliver 7 63 false),
    (.interruptDeliver 6 63 false, .interruptDeliver 6 64 false),
    (.irqTgtEoi .host 5 0, .irqTgtEoi .host 6 0),
    (.configSpaceWrite true true 2 [63] 64, .configSpaceWrite true true 3 [63] 64),
    (.configSpaceWrite true true 2 [63] 64, .configSpaceWrite true true 2 [64] 64),
    (.configSpaceWrite true true 2 [63] 64, .configSpaceWrite true true 2 [63] 3),
    (.moduleConverterFail 7, .moduleConverterFail 8) ] : List (Instr × Instr)), x.1.wf = true ∧ x.2.wf = false := by decide +kernel

theorem test_wf_edges_reports : ∀ x ∈ ( ([ { okTests with islands := [1220] }, { okTests with hbmStacks := [8] }, { okTests with pchs := [512] }, { okTests with cores := [1088] },
     { okTests with channels := [⟨256, none⟩] }, { okTests with channels := [⟨1, some 32⟩] },
     { okTests with channels := List.replicate 17 ⟨1, none⟩ }, { okTests with banks := [(4, 0)] }, { okTests with banks := [(0, 33)] } ].map
    fun (x : BootTests) => (Instr.secondHalfStart okTests, Instr.secondHalfStart x)) ++
  ([ { okFrame with cls := 4 }, { okFrame with seq := 2 ^ 16 }, { okFrame with dst := 2 ^ 20 }, { okFrame with src := 2 ^ 20 },
     { okFrame with typ := 256 }, { okFrame with vc := 2 }, { okFrame with hops := 256 }, { okFrame with ctx := 256 },
     { okFrame with addr := 2 ^ 48 }, { okFrame with tag := 2 ^ 32 }, { okFrame with flags := 256 }, { okFrame with fields := 2 ^ 32 } ].map
    fun (x : Frame) => (Instr.frameReceive 31 okFrame, Instr.frameReceive 31 x)) : List (Instr × Instr)), x.1.wf = true ∧ x.2.wf = false := by decide +kernel



/-! ## The manual's worked examples (Tables NUM-8 and ME-3, the examples of R105, R110, R209) -/

/-- 0.3, 100,000, 2⁻¹⁷, 500.0 and 1.01171875 narrowed (Table NUM-8, R113). -/
theorem test_narrow_examples :
    narrow fmtE4M3 .rne false 0 (decodeFloat fmtFP32 0x3E99999A) = ⟨0x2A, flagNX, false, false⟩ ∧
    narrow fmtE4M3 .rtz false 0 (decodeFloat fmtFP32 0x3E99999A) = ⟨0x29, flagNX, false, false⟩ ∧
    narrow fmtE5M2 .rne false 0 (decodeFloat fmtFP32 0x47C35000) = ⟨0x7B, flagOF ||| flagNX, true, false⟩ ∧
    narrow fmtE5M2 .rne true 0 (decodeFloat fmtFP32 0x47C35000) = ⟨0x7C, flagOF ||| flagNX, false, false⟩ ∧
    narrow fmtE5M2 .rne false 0 (decodeFloat fmtFP32 0x37000000) = ⟨0x00, flagUF ||| flagNX, false, true⟩ ∧
    narrow fmtE4M3 .rne false 0 (decodeFloat fmtFP32 0x43FA0000) = ⟨0x7E, flagOF ||| flagNX, true, false⟩ ∧
    narrow fmtE4M3 .rne true 0 (decodeFloat fmtFP32 0x43FA0000) = ⟨0x7F, flagOF ||| flagNV, false, false⟩ ∧
    narrow fmtBF16 .rne false 0 (decodeFloat fmtFP32 0x3F818000) = ⟨0x3F82, flagNX, false, false⟩ := by decide +kernel

/-- Seed 0: the first draw of a tile program, and 0.3 rounded by it (R105). -/
theorem test_stochastic_example :
    lfsrDraws 1 (lfsrSeed 0) = ([0xB6DB], 0x1B6DB) ∧
    narrow fmtE4M3 .sr false 0xB6DB (decodeFloat fmtFP32 0x3E99999A) = ⟨0x29, flagNX, false, false⟩ := by decide +kernel

/-- The QF4 block of the manual's example, as block 0 of a pair whose block 1 is zero (R110). -/
theorem test_qf4_example :
    let v (i : Nat) : FV := if i = 0 then .fin false 24 0 else if i = 1 then .fin true 6 0 else if i = 8 then .fin false 11 (-2)
      else if i = 9 then .fin true 1 0 else fvZero
    let r := quantRow fmtE2M1 4 true .rne (List.replicate 64 0) ((List.range 64).map v)
    r.bytes.getD 0 0 = 0x81 ∧ (r.bytes.getD 2 0).toNat % 16 = 0xE ∧ r.bytes.getD 3 0 = 0xB7 ∧ r.bytes.getD 7 0 = 0x93 ∧
      (r.bytes.take 19).countP (· != 0) = 5 ∧ r.flags = flagNX := by decide +kernel

/-- The E4M3 × E4M3 element of the manual's example: 448 × 448, fourteen products of 2⁻⁹, −448 × 448 (R84). -/
theorem test_mma_example :
    let a := [0x7E] ++ List.replicate 14 0x01 ++ [0xFE] ++ List.replicate 48 0
    let w := [0x7E] ++ List.replicate 14 0x38 ++ [0x7E] ++ List.replicate 48 0
    mmaElement 64 false none 0 (a.map (decodeFloat fmtE4M3)) (w.map (decodeFloat fmtE4M3)) = (0x3CE00000, 0) := by decide +kernel

/-- A partition from page 1,000 on stacks 2 and 3: page 1,003 at offset 0x12340 lies in pseudo-channel 145 (R209). -/
theorem test_pseudo_channel_example :
    ({ dev 3 with
      img.sections := [sec 5 (pad 32 (leBytes 4 1000 ++ leBytes 4 64 ++ leBytes 4 0 ++ leBytes 2 0 ++ leBytes 1 0x0C))] }.putF
        F.SIL_STATUS_IMAGE_VALID 1).pchOf 0x7D612340 = 145 := by decide +kernel

/-! ## Single steps -/

/-- An empty queue leaves the block as it is; a held command is tried again. -/
theorem test_step_idle : (match step rst with | .next s => s.pending == [] && s.regs == rst.regs | _ => false) = true := by decide +kernel

/-- The first command waiting is taken, the rest of the queue stays. -/
theorem test_step_front :
    (match step { dev 3 with pending := [.configSpaceWrite true true 1 [] 64, .supplyLost], host.up := true } with
      | .next s => s.pending == [.supplyLost] && s.getF F.GLB_HOST_LINK_BUS_MASTER == 1 && s.getF F.GLB_HOST_LINK_VCS == 1
      | _ => false) = true := by decide +kernel

/-- The two halves of a pair, written low half first (R6). -/
theorem test_pair_write :
    (match step { dev 3 with pending := [.pairLoWrite .host P.SIL_SRC_ADDR 0x1000, .pairHiWrite .host (P.SIL_SRC_ADDR + 4) 0] } with
      | .next s => (match step s with | .next t => t.getP P.SIL_SRC_ADDR == 0x1000 | _ => false)
      | _ => false) = true := by decide +kernel

end Sys2Proof.Tests
end

section
/-! Registers as the host reaches them: what a fold over a register's fields leaves of each field (R8), what a write of a register, of
a pair's half and a read that clears do, and the obligations of chapter 0 that follow. -/

namespace Sys2Proof.Machine

open Sys2Proof

/-! ## Fields of a register -/

/-- Two fields share no bit. -/
abbrev Field.apart (f g : Field) : Prop := f.hi < g.lo ∨ g.hi < f.lo

/-- A register's fields lie in its 32 bits, none across another. -/
abbrev fieldsOk (fs : List Field) : Prop := (∀ f ∈ fs, f.lo ≤ f.hi ∧ f.hi < 32) ∧ fs.Pairwise Field.apart

theorem regTable_fieldsOk : ∀ r ∈ regTable, fieldsOk r.fields := by decide +kernel

theorem regAt_fieldsOk {off : Nat} {r : RegDef} (h : regAt off = some r) : fieldsOk r.fields :=
  regTable_fieldsOk r (List.mem_of_find?_eq_some h)

theorem bits_lt (v hi lo : Nat) : bits v hi lo < 2 ^ (hi + 1 - lo) := Nat.mod_lt _ (Nat.two_pow_pos _)

theorem bits_mod (v hi lo : Nat) : bits v hi lo % 2 ^ (hi + 1 - lo) = bits v hi lo := Nat.mod_eq_of_lt (bits_lt v hi lo)

theorem bit_eq_testBit (v i : Nat) : bit v i = v.testBit i := by
  rw [Nat.testBit_eq_decide_div_mod_eq, bit, Bool.beq_eq_decide_eq]

theorem bit_eq_bits (v i : Nat) : bit v i = (bits v i i == 1) := by
  rw [bit, bits, Nat.add_sub_cancel_left, Nat.pow_one]

theorem bits_putBits_apart (v x : Nat) {hi lo a b : Nat} (h : lo ≤ hi) (hb : b ≤ a) (hd : a < lo ∨ hi < b) :
    bits (putBits v hi lo x) a b = bits v a b := by
  obtain ha | ha := hd
  · exact bits_putBits_below v hi lo x a b (by omega) ha hb
  · exact bits_putBits_above v hi lo x a b (by omega) ha

/-! ## A word with some fields replaced -/

/-- The word `w` with each field replaced for which `g` gives a value. -/
def putFields (g : Field → Option Nat) (fs : List Field) (w : Nat) : Nat :=
  fs.foldl (fun w f => (g f).elim w (putBits w f.hi f.lo)) w

theorem putFields_cons_none {g : Field → Option Nat} {f : Field} (h : g f = none) (fs : List Field) (w : Nat) :
    putFields g (f :: fs) w = putFields g fs w := by
  simp [putFields, h]

theorem putFields_cons_some {g : Field → Option Nat} {f : Field} {x : Nat} (h : g f = some x) (fs : List Field) (w : Nat) :
    putFields g (f :: fs) w = putFields g fs (putBits w f.hi f.lo x) := by
  simp [putFields, h]

theorem putFields_lt (g : Field → Option Nat) {fs : List Field} (hfs : ∀ f ∈ fs, f.lo ≤ f.hi ∧ f.hi < 32) {w : Nat}
    (hw : w < 2 ^ 32) : putFields g fs w < 2 ^ 32 := by
  induction fs generalizing w with
  | nil => exact hw
  | cons f fs ih =>
    obtain ⟨⟨hlo, hhi⟩, hfs⟩ := List.forall_mem_cons.mp hfs
    cases h : g f with
    | none => rw [putFields_cons_none h]; exact ih hfs hw
    | some x => rw [putFields_cons_some h]; exact ih hfs (putBits_lt w f.hi f.lo x (by omega) hw hhi)

/-- Bits that lie in none of the fields stay. -/
theorem bits_putFields_apart (g : Field → Option Nat) {fs : List Field} {a b : Nat} (hb : b ≤ a)
    (hfs : ∀ f ∈ fs, f.lo ≤ f.hi ∧ (a < f.lo ∨ f.hi < b)) (w : Nat) : bits (putFields g fs w) a b = bits w a b := by
  induction fs generalizing w with
  | nil => rfl
  | cons f fs ih =>
    obtain ⟨⟨hlo, hd⟩, hfs⟩ := List.forall_mem_cons.mp hfs
    cases h : g f with
    | none => rw [putFields_cons_none h, ih hfs]
    | some x => rw [putFields_cons_some h, ih hfs, bits_putBits_apart w x hlo hb hd]

/-- Each field takes the value given for it, and keeps its own where none is given. -/
theorem bits_putFields (g : Field → Option Nat) {fs : List Field} (hfs : fieldsOk fs) {f : Field} (hf : f ∈ fs) (w : Nat) :
    bits (putFields g fs w) f.hi f.lo = (g f).elim (bits w f.hi f.lo) (· % 2 ^ (f.hi + 1 - f.lo)) := by
  induction fs generalizing w with
  | nil => cases hf
  | cons e fs ih =>
    obtain ⟨hins, haps⟩ := hfs
    obtain ⟨⟨hlo, hhi⟩, hin⟩ := List.forall_mem_cons.mp hins
    obtain ⟨hed, hap⟩ := List.pairwise_cons.mp haps
    obtain rfl | hf := List.mem_cons.mp hf
    · have keep := bits_putFields_apart g hlo (fun e he => ⟨(hin e he).1, hed e he⟩)
      cases h : g f with
      | none => rw [putFields_cons_none h, keep]; rfl
      | some x => rw [putFields_cons_some h, keep, bits_putBits _ _ _ _ (by omega)]; rfl
    · cases h : g e with
      | none => rw [putFields_cons_none h, ih ⟨hin, hap⟩ hf]
      | some x =>
        rw [putFields_cons_some h, ih ⟨hin, hap⟩ hf, bits_putBits_apart w x hlo (hin f hf).1 (hed f hf).symm]

/-! ## A field's new value (Table SC-4) -/

section
variable {locked : Bool} {f : Field} {o n : Nat}

theorem fieldWrite_ro_or_rc (h : f.acc = .ro ∨ f.acc = .rc) : fieldWrite locked f o n = o := by
  obtain h | h := h <;> simp [fieldWrite, h]

theorem fieldWrite_rw (h : f.acc = .rw) : fieldWrite locked f o n = rangeWrite f.range o n := by simp [fieldWrite, h]

theorem fieldWrite_wo (h : f.acc = .wo) : fieldWrite locked f o n = n := by simp [fieldWrite, h]

theorem fieldWrite_rwl (h : f.acc = .rwl) : fieldWrite locked f o n = if locked then o else rangeWrite f.range o n := by
  simp [fieldWrite, h]

theorem bit_fieldWrite_w1c (h : f.acc = .w1c) (hn : n < 2 ^ (f.hi + 1 - f.lo)) {i : Nat} (hi : i < f.hi + 1 - f.lo) :
    bit (fieldWrite locked f o n) i = (bit o i && !bit n i) := by
  have hw : fieldWrite locked f o n = o &&& (2 ^ (f.hi + 1 - f.lo) - (n + 1)) := by
    simp only [fieldWrite, h, Nat.sub_sub, Nat.add_comm 1 n]; rfl
  simp only [hw, bit_eq_testBit, Nat.testBit_and, Nat.testBit_two_pow_sub_succ hn, hi, decide_true, Bool.true_and]

theorem bit_fieldWrite_w1s (h : f.acc = .w1s) (i : Nat) : bit (fieldWrite locked f o n) i = (bit o i || bit n i) := by
  have hw : fieldWrite locked f o n = o ||| n := by simp only [fieldWrite, h]; rfl
  rw [hw, bit_eq_testBit, Nat.testBit_or, bit_eq_testBit, bit_eq_testBit]

end

theorem bit_mod_two_pow (v : Nat) {i k : Nat} (h : i < k) : bit (v % 2 ^ k) i = bit v i := by
  simp [bit_eq_testBit, Nat.testBit_mod_two_pow, h]

/-! ## A register's new word -/

theorem wordWrite_eq_putFields (locked : Bool) (r : RegDef) (o n : Nat) : wordWrite locked r o n =
    putFields (fun f => some (fieldWrite locked f (bits o f.hi f.lo) (bits n f.hi f.lo))) r.fields o := rfl

/-- What a read leaves of a field that it clears; none for another field. -/
def rcLeft (arriving : Nat) (f : Field) : Option Nat :=
  if f.acc = .rc then some (min arriving (2 ^ (f.hi + 1 - f.lo) - 1)) else none

theorem clearRc_eq_putFields (r : RegDef) (w arriving : Nat) : clearRc r w arriving = putFields (rcLeft arriving) r.fields w := by
  unfold clearRc putFields
  congr 1
  funext w f
  cases h : f.acc <;> simp [rcLeft, h]

section
variable {off : Nat} {r : RegDef} (h : regAt off = some r) (locked : Bool) (w : Word) (n : Nat)
include h

theorem toNat_wordWrite : (BitVec.ofNat 32 (wordWrite locked r w.toNat n)).toNat = wordWrite locked r w.toNat n := by
  rw [wordWrite_eq_putFields]
  exact Nat.mod_eq_of_lt (putFields_lt _ (regAt_fieldsOk h).1 w.isLt)

theorem toNat_clearRc : (BitVec.ofNat 32 (clearRc r w.toNat n)).toNat = clearRc r w.toNat n := by
  rw [clearRc_eq_putFields]
  exact Nat.mod_eq_of_lt (putFields_lt _ (regAt_fieldsOk h).1 w.isLt)

theorem bits_wordWrite {f : Field} (hf : f ∈ r.fields) : bits (wordWrite locked r w.toNat n) f.hi f.lo =
    fieldWrite locked f (bits w.toNat f.hi f.lo) (bits n f.hi f.lo) % 2 ^ (f.hi + 1 - f.lo) := by
  rw [wordWrite_eq_putFields, bits_putFields _ (regAt_fieldsOk h) hf, Option.elim_some]

/-- Reserved bits stay as they were. -/
theorem bit_wordWrite_reserved {i : Nat} (hi : ∀ f ∈ r.fields, ¬(f.lo ≤ i ∧ i ≤ f.hi)) :
    bit (wordWrite locked r w.toNat n) i = bit w.toNat i := by
  have hd : ∀ f ∈ r.fields, f.lo ≤ f.hi ∧ (i < f.lo ∨ f.hi < i) := fun f hf =>
    ⟨((regAt_fieldsOk h).1 f hf).1, by have := hi f hf; omega⟩
  rw [bit_eq_bits, bit_eq_bits, wordWrite_eq_putFields, bits_putFields_apart _ (Nat.le_refl i) hd]

end

/-- A register that is one RW field of 32 bits takes the word written. -/
theorem wordWrite_whole {r : RegDef} (h : r.fields = [⟨31, 0, .rw, 0, .any⟩]) (locked : Bool) {o n : Nat} (ho : o < 2 ^ 32)
    (hn : n < 2 ^ 32) : wordWrite locked r o n = n := by
  have ho' : bits o 31 0 = o := by simp only [bits]; omega
  have hn' : bits n 31 0 = n := by simp only [bits]; omega
  simp only [wordWrite, h, List.foldl_cons, List.foldl_nil, fieldWrite, rangeWrite, hn', putBits, ho']
  omega

/-! ## Registers written and read -/

section
variable (s : State)

theorem State.answer_eq_emit (req : Requester) (w : Word) : s.answer req w = s.emit (.readData req (leBytes 4 w.toNat)) := rfl

/-- Off the sources of Table HST-7 the written word is stored as it comes. -/
theorem fixedMask_outside {off : Nat} (h : off < 0x400000 ∨ 0x400400 ≤ off) (o n : Nat) : fixedMask off o n = n := by
  unfold fixedMask
  rw [if_neg (by simp only [Bool.and_eq_true, decide_eq_true_eq]; omega)]

theorem State.noteMask_outside {off : Nat} (h : off < 0x400000 ∨ 0x400400 ≤ off) (o n : Nat) : s.noteMask off o n = s := by
  unfold State.noteMask
  rw [if_pos (by simpa using h)]

theorem State.afterWrite_plain {off : Nat} (hk : off ≠ R.JOB_CTX_KV_CMD_3 (ctxOfOff off))
    (ht : off ≠ R.JOB_CTX_TIER_CMD_7 (ctxOfOff off)) (hv : off ≠ R.VID_CTX_CMD_7 (ctxOfOff off)) (hr : off ≠ R.LNK_ROUTE_SELECT) :
    s.afterWrite off = s := by
  simp only [State.afterWrite, hk, ht, hv, hr, if_false]

/-- A write taken by a register that is neither an interrupt source nor a command stores its new word. -/
theorem State.writeReg_plain {r : RegDef} {off : Nat} (v : Word) (hd : s.regDown off = false) (hg : s.gateOpen r off = true)
    (hi : off < 0x400000 ∨ 0x400400 ≤ off) (ha : ∀ t : State, t.afterWrite off = t) :
    s.writeReg r off v =
      (s.setReg off (BitVec.ofNat 32 (wordWrite s.img.locked r (s.reg off).toNat v.toNat))).noteStaged off := by
  simp only [State.writeReg, hd, hg, fixedMask_outside hi, ha, State.noteMask_outside _ hi, Bool.not_true, Bool.false_eq_true,
    if_false]

end

/-! ## The arms of exec -/

section
variable (req : Requester) (off : Nat) (v : Word) (s : State)

theorem exec_bar0BadWidthAccess (write : Bool) (bytes : Nat) :
    exec (.bar0BadWidthAccess req write off bytes) s = execBar0BadWidthAccess req write off bytes s := rfl

theorem exec_undefinedOffsetAccess (write : Bool) :
    exec (.undefinedOffsetAccess req write off v) s = execUndefinedOffsetAccess req write off v s := rfl

theorem exec_registerWrite : exec (.registerWrite req off v) s = execRegisterWrite req off v s := rfl

theorem exec_rcRegisterRead (arriving : Nat) :
    exec (.rcRegisterRead req off arriving) s = execRcRegisterRead req off arriving s := rfl

theorem exec_pairLoRead : exec (.pairLoRead req off) s = execPairLoRead req off s := rfl

theorem exec_pairHiRead : exec (.pairHiRead req off) s = execPairHiRead req off s := rfl

theorem exec_pairLoWrite : exec (.pairLoWrite req off v) s = execPairLoWrite req off v s := rfl

theorem exec_pairHiWrite : exec (.pairHiWrite req off v) s = execPairHiWrite req off v s := rfl

end

/-! ## The obligations -/

/-- Settles O13: the word stored is a fold over the register's fields, which lie apart, so that each field takes its own value. -/
theorem registerWriteTakesEachField : Obligations.RegisterWriteTakesEachField := by
  unfold Obligations.RegisterWriteTakesEachField
  intro req off v r s hr how hhalf hden hquiet hdown hgate hirq hkv htier hvid hroute
  have hrun : exec (.registerWrite req off v) s = .next (s.writeReg r off v) := by
    simp [exec_registerWrite, execRegisterWrite, hr, how, hhalf, hden, hquiet]
  rw [s.writeReg_plain v hdown hgate hirq fun t => t.afterWrite_plain hkv htier hvid hroute] at hrun
  refine ⟨_, hrun, fun f hf => ?_, fun i _ hi => ?_, fun o ho => ?_, ?_⟩
  · rw [State.reg_noteStaged, State.reg_setReg_same, toNat_wordWrite hr]
    have hold := bits_mod (s.reg off).toNat f.hi f.lo
    have hnew := bits_mod v.toNat f.hi f.lo
    rw [bits_wordWrite hr _ _ _ hf]
    refine ⟨fun ha => ?_, fun ha hg => ?_, fun lo hi ha hg => ?_, fun lo hi d ha hg => ?_, fun ha i hi => ?_, fun ha i hi => ?_,
      fun ha => ?_, fun ha hl => ?_, fun ha hl hg => ?_⟩
    · rw [fieldWrite_ro_or_rc ha, hold]
    · rw [fieldWrite_rw ha, hg, rangeWrite, hnew]
    · rw [fieldWrite_rw ha, hg]
      simp only [rangeWrite, Bool.and_eq_true, decide_eq_true_eq]
      split <;> assumption
    · rw [fieldWrite_rw ha, hg]
      simp only [rangeWrite, Bool.and_eq_true, decide_eq_true_eq]
      split
      · exact hnew
      · rfl
    · rw [bit_mod_two_pow _ hi, bit_fieldWrite_w1c ha (bits_lt _ _ _) hi]
    · rw [bit_mod_two_pow _ hi, bit_fieldWrite_w1s ha]
    · rw [fieldWrite_wo ha, hnew]
    · rw [fieldWrite_rwl ha, hl, if_pos rfl, hold]
    · rw [fieldWrite_rwl ha, hl, hg, if_neg Bool.false_ne_true, rangeWrite, hnew]
  · rw [State.reg_noteStaged, State.reg_setReg_same, toNat_wordWrite hr, bit_wordWrite_reserved hr _ _ _ hi]
  · rw [State.reg_noteStaged, State.reg_setReg_other s _ (by simpa using ho)]
  · rw [State.noteStaged_eq]
    rfl

/-- Settles O14: a read that clears replaces the fields with access code RC, which lie apart from the register's others. -/
theorem readClearsCounters : Obligations.ReadClearsCounters := by
  unfold Obligations.ReadClearsCounters
  intro req off arriving r s hr hrc
  have hrun : exec (.rcRegisterRead req off arriving) s =
      .next ((s.answer req (s.reg off)).setReg off (BitVec.ofNat 32 (clearRc r (s.reg off).toNat arriving))) := by
    simp [exec_rcRegisterRead, execRcRegisterRead, hr, hrc]
  refine ⟨_, hrun, by simp [State.answer_eq_emit], fun f hf => ?_,
    State.onlyRegsOut_setReg (State.onlyRegsOut_emit State.onlyRegsOut_refl _) _ (by simp)⟩
  rw [State.reg_setReg_same, toNat_clearRc hr, clearRc_eq_putFields, bits_putFields _ (regAt_fieldsOk hr) hf]
  refine ⟨fun ha => ?_, fun ha => ?_⟩
  · have hlt : min arriving (2 ^ (f.hi + 1 - f.lo) - 1) < 2 ^ (f.hi + 1 - f.lo) := by
      have := Nat.two_pow_pos (f.hi + 1 - f.lo)
      omega
    rw [rcLeft, if_pos ha, Option.elim_some, Nat.mod_eq_of_lt hlt]
  · rw [rcLeft, if_neg ha, Option.elim_none]

/-- Settles O15: captures are kept by requester and offset, each replaced by the next read of _LO and dropped by that of _HI. -/
theorem pairReadsAreConsistent : Obligations.PairReadsAreConsistent := by
  unfold Obligations.PairReadsAreConsistent
  refine ⟨fun req off r s hr hhalf hden hquiet hpage => ?_, fun req off r s hr hhalf hden hquiet hpage => ?_⟩
  · have hrun : exec (.pairLoRead req off) s =
        .next ({ s with captures := (req, off, s.view (off + 4)) :: dropLo s.captures req off }.answer req (s.view off)) := by
      simp [exec_pairLoRead, execPairLoRead, hr, hhalf, hden, hquiet, hpage]
    exact ⟨_, hrun, rfl, (stagedLo_cons ..).trans (if_pos rfl), fun q o hqo => (stagedLo_cons ..).trans (if_neg hqo), rfl⟩
  · have hrun : exec (.pairHiRead req off) s = .next ({ s with captures := dropLo s.captures req (off - 4) }.answer req
        ((stagedLo s.captures req (off - 4)).getD (s.view off))) := by
      simp [exec_pairHiRead, execPairHiRead, hr, hhalf, hden, hquiet, hpage]
    refine ⟨_, hrun, fun w hw => ?_, fun hn => ?_, (stagedLo_dropLo ..).trans (if_pos rfl),
      fun q o hqo => (stagedLo_dropLo ..).trans (if_neg hqo), rfl⟩
    · simp [State.answer_eq_emit, hw]
    · simp [State.answer_eq_emit, hn]

/-- Both halves of a pair whose words are RW and take every value: the commit stores the word written and the staged one, or the
lower half that stands. -/
theorem State.commitPair_whole (s : State) (req : Requester) {rl rh : RegDef} {lo : Nat} (v : Word)
    (hl : rl.fields = [⟨31, 0, .rw, 0, .any⟩]) (hh : rh.fields = [⟨31, 0, .rw, 0, .any⟩]) (hb : rh.gate ≠ .bar4)
    (hd : s.regDown (lo + 4) = false) (hg : s.gateOpen rh (lo + 4) = true) :
    s.commitPair req rl rh lo v =
      ((({ s with stages := dropLo s.stages req lo } : State).setReg lo ((stagedLo s.stages req lo).getD (s.reg lo))).setReg
        (lo + 4) v).noteStaged lo := by
  generalize hw : (stagedLo s.stages req lo).getD (s.reg lo) = low
  have hvalue : ∀ (t : State) (x : Nat), t.pairValue rh x = x := fun t x => by
    unfold State.pairValue; split
    · contradiction
    · rfl
  have hok : ∀ x : Nat, pairOk rh x = true := fun x => by simp [pairOk, hh]
  have hdown : ({ s with stages := dropLo s.stages req lo } : State).regDown (lo + 4) = false := hd
  have hgate : ({ s with stages := dropLo s.stages req lo } : State).gateOpen rh (lo + 4) = true := hg
  have hlow : (low.toNat + v.toNat * 2 ^ 32) % 2 ^ 32 = low.toNat := by have := low.isLt; omega
  have hhigh : (low.toNat + v.toNat * 2 ^ 32) / 2 ^ 32 = v.toNat := by have := low.isLt; omega
  simp only [State.commitPair, hw, hvalue, hok, hdown, hgate, hlow, hhigh, wordWrite_whole hl _ (BitVec.isLt _) (BitVec.isLt _),
    wordWrite_whole hh _ (BitVec.isLt _) (BitVec.isLt _), BitVec.ofNat_toNat, BitVec.setWidth_eq, Bool.not_true, Bool.or_false,
    Bool.false_eq_true, if_false]

/-- Settles O16: a write of _LO only stages, and a write of _HI commits both words and drops what was staged. -/
theorem pairWritesCommitBothHalves : Obligations.PairWritesCommitBothHalves := by
  unfold Obligations.PairWritesCommitBothHalves
  refine ⟨fun req off v r s hr hhalf hwr hden hquiet hgate => ?_,
    fun req off v rl rh s hrh hrl hoff hhalf how hbar hl hh hden hquiet hdown hgate => ?_⟩
  · have hrun : exec (.pairLoWrite req off v) s =
        .next (({ s with stages := (req, off, v) :: dropLo s.stages req off } : State).noteStaged off) := by
      simp [exec_pairLoWrite, execPairLoWrite, hr, hhalf, hwr, hden, hquiet, hgate]
    rw [State.noteStaged_eq] at hrun
    exact ⟨_, hrun, (stagedLo_cons ..).trans (if_pos rfl), fun q o hqo => (stagedLo_cons ..).trans (if_neg hqo), rfl⟩
  · obtain ⟨lo, rfl⟩ := Nat.exists_eq_add_of_le' hoff
    rw [Nat.add_sub_cancel] at hrl ⊢
    have hwr : writable rh = true := by simp [writable, hh]
    have hrun : exec (.pairHiWrite req (lo + 4) v) s = .next (s.commitPair req rl rh lo v) := by
      simp [exec_pairHiWrite, execPairHiWrite, hrh, hrl, hhalf, how, hden, hwr, hquiet]
    rw [s.commitPair_whole req v hl hh hbar hdown hgate] at hrun
    refine ⟨_, hrun, by simp, ?_, ?_, fun q o hqo => ?_, fun o ho => ?_, ?_⟩
    · rw [State.reg_noteStaged, State.reg_setReg_other _ _ (by omega), State.reg_setReg_same]
    · rw [State.stages_noteStaged]
      exact (stagedLo_dropLo ..).trans (if_pos rfl)
    · rw [State.stages_noteStaged]
      exact (stagedLo_dropLo ..).trans (if_neg hqo)
    · simp only [List.mem_cons, List.not_mem_nil, or_false, not_or] at ho
      rw [State.reg_noteStaged, State.reg_setReg_other _ _ ho.1, State.reg_setReg_other _ _ ho.2]
      rfl
    · rw [State.noteStaged_eq]
      rfl

/-- Every register reads at reset what its table gives (R8): nothing is listed. -/
theorem State.reset_reg (o : Nat) : State.reset.reg o = regDefault o := rfl

/-- Settles O4: every store is empty at reset, so that each register, core and context reads as its default. -/
theorem resetLeavesTableValues : Obligations.ResetLeavesTableValues := by
  unfold Obligations.ResetLeavesTableValues
  have hstate : State.reset.devState = 1 := by decide +kernel
  have hpart : State.reset.reg R.GLB_PART_ID = 0x00031024 := by decide +kernel
  have hstall : State.reset.getF F.GLB_DMA_STALL_TIMEOUT_MS = 50 := by decide +kernel
  exact ⟨rfl, rfl, rfl, hstate, State.reset_reg, hpart, hstall, rfl, rfl, rfl, rfl, rfl, rfl, rfl, rfl, fun _ => rfl, fun _ => rfl⟩

/-- Settles O9: with a bad width or alignment the row's meaning is not refused, and only a read leaves an answer. -/
theorem badWidthAccessIsUnsupported : Obligations.BadWidthAccessIsUnsupported := by
  unfold Obligations.BadWidthAccessIsUnsupported
  intro req off bytes s hbad
  have hrow : (decide (bytes = 4) && off % 4 == 0) = false := by
    simp only [Bool.and_eq_false_iff, decide_eq_false_iff_not, beq_eq_false_iff_ne]
    exact hbad
  have hrun : ∀ write, exec (.bar0BadWidthAccess req write off bytes) s = .next (if write then s else s.emit (.unsupported req)) := by
    intro write
    simp only [exec_bar0BadWidthAccess, execBar0BadWidthAccess, hrow, Bool.false_eq_true, if_false]
  exact ⟨hrun false, hrun true⟩

/-- Settles O10: an offset in BAR0 that no row covers and no rule denies is the row's own, and only a read leaves an answer. -/
theorem undefinedOffsetReadsZero : Obligations.UndefinedOffsetReadsZero := by
  unfold Obligations.UndefinedOffsetReadsZero
  intro req off v s halign hrange hnone hden
  have hrun : ∀ write, exec (.undefinedOffsetAccess req write off v) s = .next (if write then s else s.answer req 0) := by
    intro write
    simp [exec_undefinedOffsetAccess, execUndefinedOffsetAccess, halign, hrange, hnone, hden]
  exact ⟨hrun false, hrun true⟩

end Sys2Proof.Machine
end

section
/-! The image loader's START and CANCEL (R41, R42, R49): what a write of SIL_CONTROL stores, what a report and the end of a load leave,
what START does in each state of the loader, and the obligation of chapter 2 on them. -/

namespace Sys2Proof.Machine

open Sys2Proof

/-! ## Within a frame of registers -/

section
variable {s t : State} {l : List Nat} (h : s.onlyRegs t l)
include h

theorem State.img_of_onlyRegs : t.img = s.img := by rw [h.1]

theorem State.mem_of_onlyRegs : t.mem = s.mem := by rw [h.1]

theorem State.onlyRegs_trans {u : State} (k : t.onlyRegs u l) : s.onlyRegs u l := by
  obtain ⟨ht, hs⟩ := h
  obtain ⟨hu, hk⟩ := k
  refine ⟨?_, fun o ho => (hk o ho).trans (hs o ho)⟩
  rw [hu, ht]

theorem State.getF_of_onlyRegs {f : Fld} (hf : f.off ∉ l) : t.getF f = s.getF f := by
  simp only [State.getF, h.2 _ hf]

theorem State.getP_of_onlyRegs {lo : Nat} (hlo : lo ∉ l) (hhi : lo + 4 ∉ l) : t.getP lo = s.getP lo := by
  simp only [State.getP, h.2 _ hlo, h.2 _ hhi]

theorem State.hbm_of_onlyRegs (addr n : Nat) : t.hbm addr n = s.hbm addr n := by
  simp only [State.hbm, State.mem_of_onlyRegs h]

theorem State.section_of_onlyRegs : t.section = s.section := by
  funext typ inst
  simp only [State.section, State.img_of_onlyRegs h]

theorem State.partitionOfPage_of_onlyRegs (hv : R.SIL_STATUS ∉ l) : t.partitionOfPage = s.partitionOfPage := by
  have hvalid : t.imageValid = s.imageValid := by
    simp only [State.imageValid, State.getF_of_onlyRegs h (f := F.SIL_STATUS_IMAGE_VALID) hv]
  funext page
  simp only [State.partitionOfPage, State.partitions, hvalid, State.section_of_onlyRegs h]

theorem State.stackUsed_of_onlyRegs (hm : ∀ i, (F.MEM_STACK_STATUS_MODE i).off ∉ l) : t.stackUsed = s.stackUsed := by
  funext i
  simp only [State.stackUsed, State.getF_of_onlyRegs h (hm i)]

/-- Where an address lies depends on the image in force and on which stacks are in use (R209, R357). -/
theorem State.stackOf_of_onlyRegs (hv : R.SIL_STATUS ∉ l) (hm : ∀ i, (F.MEM_STACK_STATUS_MODE i).off ∉ l) (addr : Nat) :
    t.stackOf addr = s.stackOf addr := by
  simp only [State.stackOf, State.usedStack, State.saveStack, State.section_of_onlyRegs h,
    State.partitionOfPage_of_onlyRegs h hv, State.stackUsed_of_onlyRegs h hm]

theorem State.pchOf_of_onlyRegs (hv : R.SIL_STATUS ∉ l) (hm : ∀ i, (F.MEM_STACK_STATUS_MODE i).off ∉ l) (addr : Nat) :
    t.pchOf addr = s.pchOf addr := by
  have hmode : ∀ i, t.getF (F.MEM_STACK_STATUS_MODE i) = s.getF (F.MEM_STACK_STATUS_MODE i) :=
    fun i => State.getF_of_onlyRegs h (hm i)
  have hgroups : ∀ i, t.getF (F.MEM_STACK_STATUS_RETIRED_GROUPS i) = s.getF (F.MEM_STACK_STATUS_RETIRED_GROUPS i) :=
    fun i => State.getF_of_onlyRegs h (hm i)
  simp only [State.pchOf, State.frameOf, State.pchInService, State.stackOf_of_onlyRegs h hv hm, State.mem_of_onlyRegs h, hmode,
    hgroups]

/-- A range reads as poisoned as before where neither the image in force nor a stack's mode is touched. -/
theorem State.poisoned_of_onlyRegs (hv : R.SIL_STATUS ∉ l) (hm : ∀ i, (F.MEM_STACK_STATUS_MODE i).off ∉ l) (addr n : Nat) :
    t.poisoned addr n = s.poisoned addr n := by
  have hbad : t.badUnit = s.badUnit := by
    funext u
    simp only [State.badUnit, State.pchOf_of_onlyRegs h hv hm, State.mem_of_onlyRegs h]
  simp only [State.poisoned, hbad, State.mem_of_onlyRegs h]

end

/-! ## The hold -/

section
variable (s : State)

/-- HOLD_PENDING and the marks of the jobs that wait, and nothing else. -/
theorem State.settleHold_eq : s.settleHold = { s with regs := s.settleHold.regs, job.jobs := s.settleHold.job.jobs } := by
  unfold State.settleHold
  split
  · rfl
  · split <;> rfl

@[simp] theorem State.settleHold_img : s.settleHold.img = s.img := by rw [State.settleHold_eq]

@[simp] theorem State.settleHold_mem : s.settleHold.mem = s.mem := by rw [State.settleHold_eq]

theorem State.getF_settleHold {f : Fld} (hf : f.off ≠ F.JOB_DEVICE_STATE_HOLD_PENDING.off) : s.settleHold.getF f = s.getF f := by
  unfold State.settleHold
  split
  · exact s.getF_putF_off 1 hf
  · split
    · rfl
    · exact State.getF_putF_off _ 0 hf

/-! ## What a report of a load leaves (R40, R416) -/

theorem State.getF_raise {f : Fld} (n : Nat) (hf : f.off ≠ 0x400000 + 4 * n) : (s.raise n).getF f = s.getF f := by
  simp only [State.getF, s.raise_reg_other n f.off hf]

variable (code : Nat) (fail : Option (Nat × At))

theorem State.onlyRegs_loadReport :
    s.onlyRegs (s.loadReport code fail) [R.SIL_STATUS, R.SIL_FAIL_DETAIL, (F.IRQ_SRC_PENDING 2).off] := by
  have hstatus : s.onlyRegs ((s.putF F.SIL_STATUS_DONE 1).putF F.SIL_STATUS_LAST_CODE code)
      [R.SIL_STATUS, R.SIL_FAIL_DETAIL, (F.IRQ_SRC_PENDING 2).off] :=
    State.onlyRegs_putF (State.onlyRegs_putF State.onlyRegs_refl _ (by decide)) _ (by decide)
  cases fail with
  | none => exact State.onlyRegs_raise (State.onlyRegs_setReg hstatus _ (by decide)) 2 (by decide)
  | some place =>
    exact State.onlyRegs_raise (State.onlyRegs_putF (State.onlyRegs_putF (State.onlyRegs_putF hstatus _ (by decide)) _ (by decide)) _
      (by decide)) 2 (by decide)

@[simp] theorem State.loadReport_img : (s.loadReport code fail).img = s.img := State.img_of_onlyRegs (s.onlyRegs_loadReport code fail)

@[simp] theorem State.loadReport_mem : (s.loadReport code fail).mem = s.mem := State.mem_of_onlyRegs (s.onlyRegs_loadReport code fail)

/-- SIL_STATUS after a report: the place of the failure and the interrupt lie in other registers. -/
theorem State.getF_loadReport_status {f : Fld} (hf : f.off = R.SIL_STATUS) :
    (s.loadReport code fail).getF f = ((s.putF F.SIL_STATUS_DONE 1).putF F.SIL_STATUS_LAST_CODE code).getF f := by
  have hdetail : f.off ≠ R.SIL_FAIL_DETAIL := by rw [hf]; decide
  have hirq : f.off ≠ 0x400000 + 4 * 2 := by rw [hf]; decide
  cases fail with
  | none => exact (State.getF_raise _ 2 hirq).trans (State.getF_setReg_other _ _ hdetail)
  | some place =>
    exact (State.getF_raise _ 2 hirq).trans ((State.getF_putF_off _ _ hdetail).trans ((State.getF_putF_off _ _ hdetail).trans
      (State.getF_putF_off _ _ hdetail)))

@[simp] theorem State.loadReport_lastCode : (s.loadReport code fail).getF F.SIL_STATUS_LAST_CODE = code % 2 ^ 16 :=
  (s.getF_loadReport_status code fail rfl).trans (State.getF_putF_same _ _ (by decide))

@[simp] theorem State.loadReport_done : (s.loadReport code fail).getF F.SIL_STATUS_DONE = 1 :=
  (s.getF_loadReport_status code fail rfl).trans
    ((State.getF_putF_apart _ _ (by decide) (by decide) (by decide)).trans (State.getF_putF_same _ _ (by decide)))

@[simp] theorem State.loadReport_state : (s.loadReport code fail).getF F.SIL_STATUS_STATE = s.getF F.SIL_STATUS_STATE :=
  (s.getF_loadReport_status code fail rfl).trans ((State.getF_putF_apart _ _ (by decide) (by decide) (by decide)).trans
    (State.getF_putF_apart _ _ (by decide) (by decide) (by decide)))

theorem State.loadReport_check (check : Nat) (place : At) :
    (s.loadReport code (some (check, place))).getF F.SIL_FAIL_DETAIL_CHECK = check % 2 ^ 4 :=
  (State.getF_raise _ 2 (by decide)).trans ((State.getF_putF_apart _ _ (by decide) (by decide) (by decide)).trans
    ((State.getF_putF_apart _ _ (by decide) (by decide) (by decide)).trans (State.getF_putF_same _ _ (by decide))))

/-! ## A load that ends -/

@[simp] theorem State.endLoad_img : (s.endLoad code fail).img = { s.img with image := [] } := by simp [State.endLoad]

@[simp] theorem State.endLoad_mem : (s.endLoad code fail).mem = s.mem := by simp [State.endLoad]

@[simp] theorem State.endLoad_lastCode : (s.endLoad code fail).getF F.SIL_STATUS_LAST_CODE = code % 2 ^ 16 :=
  (State.getF_settleHold _ (by decide)).trans (State.loadReport_lastCode _ code fail)

@[simp] theorem State.endLoad_state : (s.endLoad code fail).getF F.SIL_STATUS_STATE = 0 :=
  (State.getF_settleHold _ (by decide)).trans
    ((State.loadReport_state _ code fail).trans (State.getF_putF_same _ _ (by decide)))

/-! ## The fields a write of SIL_CONTROL stores -/

variable (v : Nat)

theorem State.onlyRegs_silFields : s.onlyRegs (s.silFields v) [R.SIL_CONTROL] :=
  State.onlyRegs_putF (State.onlyRegs_putF State.onlyRegs_refl _ (by decide)) _ (by decide)

theorem State.getF_silFields {f : Fld} (hf : f.off ≠ R.SIL_CONTROL) : (s.silFields v).getF f = s.getF f :=
  State.getF_of_onlyRegs (s.onlyRegs_silFields v) (by simpa using hf)

@[simp] theorem State.silFields_retire : (s.silFields v).getF F.GLB_PROFILE_RETIRE = s.getF F.GLB_PROFILE_RETIRE :=
  s.getF_silFields v (by decide)

@[simp] theorem State.silFields_state : (s.silFields v).getF F.SIL_STATUS_STATE = s.getF F.SIL_STATUS_STATE :=
  s.getF_silFields v (by decide)

@[simp] theorem State.silFields_source : (s.silFields v).getF F.SIL_CONTROL_SOURCE = bits v 3 2 :=
  (State.getF_putF_apart _ _ (by decide) (by decide) (by decide)).trans
    ((State.getF_putF_same _ _ (by decide)).trans (bits_mod v 3 2))

@[simp] theorem State.silFields_wait : (s.silFields v).getF F.SIL_CONTROL_WAIT = bits v 4 4 :=
  (State.getF_putF_same _ _ (by decide)).trans (bits_mod v 4 4)

@[simp] theorem State.silFields_img : (s.silFields v).img = s.img := rfl

@[simp] theorem State.silFields_mem : (s.silFields v).mem = s.mem := rfl

/-! ## The bytes START finds (R41) -/

theorem State.silSource_slotA (hsrc : s.getF F.SIL_CONTROL_SOURCE = 1) : s.silSource = s.sec.imageA := by
  simp only [State.silSource, hsrc]

theorem State.silSource_slotB (hsrc : s.getF F.SIL_CONTROL_SOURCE = 2) : s.silSource = s.sec.imageB := by
  simp only [State.silSource, hsrc]

theorem State.silSource_window (hsrc : s.getF F.SIL_CONTROL_SOURCE = 0) (halign : s.getP P.SIL_SRC_ADDR % 64 = 0)
    (hend : s.getP P.SIL_SRC_ADDR + s.getF F.SIL_LENGTH_LENGTH ≤ 2 ^ 30)
    (hclean : s.poisoned (s.getP P.SIL_SRC_ADDR) (s.getF F.SIL_LENGTH_LENGTH) = false) :
    s.silSource = s.hbm (s.getP P.SIL_SRC_ADDR) (s.getF F.SIL_LENGTH_LENGTH) := by
  have hin : ¬ 2 ^ 30 < s.getP P.SIL_SRC_ADDR + s.getF F.SIL_LENGTH_LENGTH := Nat.not_lt.mpr hend
  simp only [State.silSource, hsrc, halign, hclean, hin, ne_eq, not_true, decide_false, Bool.or_false, Bool.false_eq_true, if_false]

/-- What the window holds for a START is what it held before the write of SIL_CONTROL. -/
theorem State.silSource_silFields_window (hsrc : bits v 3 2 = 0) (halign : s.getP P.SIL_SRC_ADDR % 64 = 0)
    (hend : s.getP P.SIL_SRC_ADDR + s.getF F.SIL_LENGTH_LENGTH ≤ 2 ^ 30)
    (hclean : s.poisoned (s.getP P.SIL_SRC_ADDR) (s.getF F.SIL_LENGTH_LENGTH) = false) :
    (s.silFields v).silSource = s.hbm (s.getP P.SIL_SRC_ADDR) (s.getF F.SIL_LENGTH_LENGTH) := by
  have hframe := s.onlyRegs_silFields v
  have haddr : (s.silFields v).getP P.SIL_SRC_ADDR = s.getP P.SIL_SRC_ADDR :=
    State.getP_of_onlyRegs hframe (by decide) (by decide)
  have hlen : (s.silFields v).getF F.SIL_LENGTH_LENGTH = s.getF F.SIL_LENGTH_LENGTH := s.getF_silFields v (by decide)
  have hstacks : ∀ i, (F.MEM_STACK_STATUS_MODE i).off ∉ [R.SIL_CONTROL] := fun i => by
    simp only [F.MEM_STACK_STATUS_MODE, R.SIL_CONTROL, List.mem_singleton]
    omega
  have hpoison : ∀ a n, (s.silFields v).poisoned a n = s.poisoned a n := State.poisoned_of_onlyRegs hframe (by decide) hstacks
  rw [State.silSource_window _ (by simpa using hsrc) (by rwa [haddr]) (by rwa [haddr, hlen]) (by rwa [haddr, hlen, hpoison]), haddr,
    hlen, State.hbm_of_onlyRegs hframe]

/-! ## START in each state of the loader (R41, R42, R49) -/

theorem State.silBegin_retired (hret : s.getF F.GLB_PROFILE_RETIRE = 1) : s.silBegin = s.loadReport Code.DEVICE_RETIRE noCheck :=
  if_pos hret

theorem State.silBegin_busy (hret : s.getF F.GLB_PROFILE_RETIRE = 0) (hbusy : s.getF F.SIL_STATUS_STATE ≠ 0) :
    s.silBegin = s.loadReport Code.IMAGE_BUSY noCheck := by
  simp [State.silBegin, hret, hbusy]

theorem State.silBegin_noSource (hret : s.getF F.GLB_PROFILE_RETIRE = 0) (hidle : s.getF F.SIL_STATUS_STATE = 0)
    (hsrc : s.getF F.SIL_CONTROL_SOURCE = 3) : s.silBegin = s.loadReport Code.IMAGE_FORMAT (some (1, noSection)) := by
  simp [State.silBegin, hret, hidle, hsrc]

theorem State.silBegin_starts (hret : s.getF F.GLB_PROFILE_RETIRE = 0) (hidle : s.getF F.SIL_STATUS_STATE = 0)
    (hsrc : s.getF F.SIL_CONTROL_SOURCE ≠ 3) : s.silBegin =
      { s with img.image := s.silSource, img.wait := s.getF F.SIL_CONTROL_WAIT == 1 }.putF F.SIL_STATUS_STATE 1 := by
  simp [State.silBegin, hret, hidle, hsrc]

end

/-! ## The arms of exec -/

section
variable (req : Requester) (v : Word) (s : State)

theorem exec_silStart : exec (.silStart req v) s = execSilStart req v s := rfl

theorem exec_silCancel : exec (.silCancel req v) s = execSilCancel req v s := rfl

theorem exec_silStart_alone (hstart : bit v.toNat 0 = true) (hcancel : bit v.toNat 1 = false) :
    exec (.silStart req v) s = .next (s.silFields v.toNat).silBegin := by
  simp [exec_silStart, execSilStart, hstart, hcancel]

theorem exec_silCancel_held (hstart : bit v.toNat 0 = false) (hcancel : bit v.toNat 1 = true)
    (hheld : s.getF F.SIL_STATUS_STATE = 2) :
    exec (.silCancel req v) s = .next ((s.silFields v.toNat).endLoad Code.IMAGE_CANCELLED noCheck) := by
  simp [exec_silCancel, execSilCancel, hstart, hcancel, State.silDiscard, hheld]

theorem exec_silCancel_idle (hstart : bit v.toNat 0 = false) (hnone : bit v.toNat 1 = false ∨ s.getF F.SIL_STATUS_STATE ≠ 2) :
    exec (.silCancel req v) s = .next (s.silFields v.toNat) := by
  obtain hcancel | hheld := hnone
  · simp [exec_silCancel, execSilCancel, hstart, hcancel]
  · simp [exec_silCancel, execSilCancel, hstart, State.silDiscard, hheld]

end

/-! ## The obligation -/

/-- A START that begins a load. -/
theorem silStart_takesImage (req : Requester) (v : Word) (s : State) (hstart : bit v.toNat 0 = true) (hcancel : bit v.toNat 1 = false)
    (hret : s.getF F.GLB_PROFILE_RETIRE = 0) (hidle : s.getF F.SIL_STATUS_STATE = 0) (hsrc : bits v.toNat 3 2 ≠ 3) :
    exec (.silStart req v) s = .next ({ s.silFields v.toNat with
      img.image := (s.silFields v.toNat).silSource, img.wait := bit v.toNat 4 }.putF F.SIL_STATUS_STATE 1) := by
  rw [exec_silStart_alone req v s hstart hcancel, State.silBegin_starts _ (by simpa using hret) (by simpa using hidle)
    (by simpa using hsrc), State.silFields_wait, bit_eq_bits]

/-- Settles O17: START and CANCEL run on the state that a write of SIL_CONTROL's fields leaves, where the loader's status, the source
and the poison read as before; each state of the loader then answers in its own way. -/
theorem imageLoadStartsAndCancels : Obligations.ImageLoadStartsAndCancels := by
  unfold Obligations.ImageLoadStartsAndCancels
  refine ⟨fun req v s hstart hcancel hret hidle hsrc => ?starts, fun req v s hstart hcancel hret hbusy => ?busy,
    fun req v s hstart hcancel hret => ?retired, fun req v s hstart hcancel hsrc hret hidle => ?noSource,
    fun req v s hstart hcancel hheld => ?cancelled, fun req v s hstart hnone => ?nothingHeld⟩
  case starts =>
    refine ⟨_, silStart_takesImage req v s hstart hcancel hret hidle hsrc, State.getF_putF_same _ _ (by decide), rfl,
      fun hA => State.silSource_slotA _ (by simpa using hA), fun hB => State.silSource_slotB _ (by simpa using hB),
      fun hwindow halign hend hclean => s.silSource_silFields_window v.toNat hwindow halign hend hclean, fun o ho => ?_, rfl⟩
    simp only [List.mem_cons, List.not_mem_nil, or_false, not_or] at ho
    exact (State.reg_putF_other _ _ ho.2).trans ((s.onlyRegs_silFields v.toNat).2 o (by simpa using ho.1))
  case busy =>
    have hrun := exec_silStart_alone req v s hstart hcancel
    rw [State.silBegin_busy _ (by simpa using hret) (by simpa using hbusy)] at hrun
    refine ⟨_, hrun, State.loadReport_lastCode .., State.loadReport_done .., by simp, ?_⟩
    exact State.onlyRegs_trans (State.onlyRegs_mono (s.onlyRegs_silFields v.toNat) (by simp))
      (State.onlyRegs_mono (State.onlyRegs_loadReport ..) fun _ => List.mem_cons_of_mem _)
  case retired =>
    have hrun := exec_silStart_alone req v s hstart hcancel
    rw [State.silBegin_retired _ (by simpa using hret)] at hrun
    exact ⟨_, hrun, State.loadReport_lastCode .., by simp⟩
  case noSource =>
    have hrun := exec_silStart_alone req v s hstart hcancel
    rw [State.silBegin_noSource _ (by simpa using hret) (by simpa using hidle) (by simpa using hsrc)] at hrun
    exact ⟨_, hrun, State.loadReport_lastCode .., State.loadReport_check .., by simpa using hidle⟩
  case cancelled =>
    exact ⟨_, exec_silCancel_held req v s hstart hcancel hheld, State.endLoad_state .., State.endLoad_lastCode .., by simp, by simp⟩
  case nothingHeld =>
    exact ⟨_, exec_silCancel_idle req v s hstart hnone, s.onlyRegs_silFields v.toNat⟩

end Sys2Proof.Machine
end

section
/-! Job faults (R61): which updates leave jobs and contexts, that a job which is gone stays gone through a discard, and what a fault
leaves of its job and its context. -/

namespace Sys2Proof.Machine

open Sys2Proof

/-! ## Updates that leave jobs and contexts -/

section
variable (s : State)

theorem foldl_job {α : Type} {f : State → α → State} (h : ∀ s a, (f s a).job = s.job) (l : List α) (s : State) :
    (l.foldl f s).job = s.job :=
  List.foldlRecOn (motive := fun t => t.job = s.job) l f rfl fun t ht a _ => (h t a).trans ht

@[simp] theorem State.raise_job (n : Nat) : (s.raise n).job = s.job := by rw [State.raise_regs]

@[simp] theorem State.showAlert_job : s.showAlert.job = s.job := by
  unfold State.showAlert
  dsimp only
  split <;> rfl

@[simp] theorem State.enter_job (st : Nat) : (s.enter st).job = s.job := by
  unfold State.enter
  dsimp only
  split
  · rfl
  · split <;> simp

@[simp] theorem State.settleDevice_job : s.settleDevice.job = s.job := by
  unfold State.settleDevice
  split
  · split
    · simp
    · split <;> simp
  · rfl

@[simp] theorem State.showJobs_job : s.showJobs.job = s.job := by simp [State.showJobs, State.showFree]

@[simp] theorem State.withdrawNotice_job (c code : Nat) : (s.withdrawNotice c code).job = s.job := by
  unfold State.withdrawNotice
  split <;> rfl

@[simp] theorem State.completeNotice_job (n : Notice) (code : Nat) : (s.completeNotice n code).job = s.job := by
  simp [State.completeNotice, State.ackNotice, State.answerNotice]

@[simp] theorem State.settleChan_job (c : Nat) : (s.settleChan c).job = s.job := by
  unfold State.settleChan
  dsimp only
  split
  · split <;> simp
  · split
    · rfl
    · split <;> simp

@[simp] theorem State.setIsland_job (i st : Nat) : (s.setIsland i st).job = s.job := by
  have hmail (t : State) : (t.settleMail i).job = t.job := by
    unfold State.settleMail
    split
    · rfl
    · exact foldl_job State.settleChan_job _ _
  simp only [State.setIsland, hmail, State.putF_job, apply_ite State.job, ite_self]

@[simp] theorem State.kvSettle_job (i : Nat) : (s.kvSettle i).job = s.job := by
  unfold State.kvSettle
  dsimp only
  split
  · rfl
  · split <;> rfl

@[simp] theorem State.kvDrop_job (id n : Nat) : (s.kvDrop id n).job = s.job := by
  unfold State.kvDrop
  split <;> simp

@[simp] theorem State.setKvHeld_job (ctx id n : Nat) : (s.setKvHeld ctx id n).job = s.job := by rfl

@[simp] theorem State.unpinScan_job (o : Option Scan) : (s.unpinScan o).job = s.job := by
  unfold State.unpinScan
  split
  · split
    · exact foldl_job (fun t i => by simp [State.kvUnpin]) _ _
    · rfl
  · rfl

@[simp] theorem State.freeSlot_job (slot : Nat) : (s.freeSlot slot).job = s.job := by rfl

@[simp] theorem State.unleave_job (slot : Nat) : (s.unleave slot).job = s.job := by
  unfold State.unleave
  split <;> rfl

@[simp] theorem State.mapPin_job (slot ctx va : Nat) (m : Bool) : (s.mapPin slot ctx va m).job = s.job := by
  unfold State.mapPin
  split <;> rfl

@[simp] theorem State.dropPin_job (slot : Nat) (pin : Pin) : (s.dropPin slot pin).job = s.job := by
  have hevict (t : State) : (t.tryEvict slot).job = t.job := by
    unfold State.tryEvict
    split
    · split <;> rfl
    · rfl
  unfold State.dropPin
  split
  · rfl
  · dsimp only
    split <;> simp [hevict]

/-- Undoing an effect of a step touches pages, objects and memory, no job. -/
@[simp] theorem State.undo_job (ctx : Nat) (e : Effect) : (State.undo ctx s e).job = s.job := by
  cases e with
  | tierWriteBack slot =>
    unfold State.undo
    dsimp only
    split <;> rfl
  | _ => simp [State.undo, State.restoreUnit]

@[simp] theorem State.freeStream_job (slot : Nat) : (s.freeStream slot).job = s.job := by
  unfold State.freeStream
  split <;> rfl

@[simp] theorem State.undoStream_job (uid : Nat) (v : Stream) : (State.undoStream uid s v).job = s.job := by
  unfold State.undoStream
  split
  · simp
  · dsimp only
    split
    · split <;> simp
    · simp

@[simp] theorem State.undoStreams_job (uid : Nat) : (s.undoStreams uid).job = s.job := foldl_job (fun t v => t.undoStream_job uid v) _ _

@[simp] theorem State.clearObjs_job (ctx : Nat) (gone : SyncObj → Bool) : (s.clearObjs ctx gone).job = s.job := by
  have hwindows (t : State) (o : SyncObj) : (t.dropWindows o).job = t.job := by
    unfold State.dropWindows
    split
    · exact foldl_job (fun t n => t.addF_job _ _) _ _
    · rfl
  simp only [State.clearObjs, State.syncShow, State.putF_job]
  exact foldl_job hwindows _ _

@[simp] theorem State.dropScan_job (p : Nat) (o : Option Scan) : (s.dropScan p o).job = s.job := by simp [State.dropScan]

@[simp] theorem State.releaseCore_job (p : Nat) : (s.releaseCore p).job = s.job := by
  unfold State.releaseCore
  dsimp only
  split <;> simp

@[simp] theorem State.restoreCore_job (p : Nat) : (s.restoreCore p).job = s.job := by
  unfold State.restoreCore
  split
  · rfl
  · simp

@[simp] theorem State.undoShow_job : s.undoShow.job = s.job := by rfl

/-! ## Jobs as they are found by their UID -/

variable {s}

theorem State.jobOf_of_job {t : State} (h : t.job = s.job) (uid : Nat) : t.jobOf uid = s.jobOf uid := by simp only [State.jobOf, h]

@[simp] theorem State.jobOf_setCtx (n : Nat) (c : Ctx) (uid : Nat) : (s.setCtx n c).jobOf uid = s.jobOf uid := by rfl

theorem State.uid_of_jobOf {uid : Nat} {j : Job} (h : s.jobOf uid = some j) : j.uid = uid := by simpa using List.find?_some h

variable (s)

theorem State.jobOf_setJob (j : Job) (uid : Nat) :
    (s.setJob j).jobOf uid = if uid = j.uid then (s.jobOf uid).map fun _ => j else s.jobOf uid := by
  simp only [State.jobOf, State.setJob]
  induction s.job.jobs with
  | nil => simp
  | cons x l ih => grind

theorem State.jobOf_setJob_isNone (j : Job) (uid : Nat) : (s.setJob j).jobOf uid = none ↔ s.jobOf uid = none := by
  rw [State.jobOf_setJob]
  split <;> simp

variable {s} {uid : Nat} (h : s.jobOf uid = none)
include h

/-! ## A job that is gone stays gone -/

theorem State.resumeVictim_keepsGone (other : Nat) : (s.resumeVictim other).jobOf uid = none := by
  unfold State.resumeVictim
  split
  · split
    · rw [State.jobOf_of_job (State.showJobs_job _), State.jobOf_setJob_isNone, ← h]
      exact State.jobOf_of_job (foldl_job (fun t p => by simp) _ _) uid
    · exact h
  · exact h

theorem State.resumeVictims_keepsGone : s.resumeVictims.jobOf uid = none :=
  List.foldlRecOn (motive := fun t : State => t.jobOf uid = none) _ _ h fun _ ht j _ => State.resumeVictim_keepsGone ht j.uid

theorem State.discardStep_keepsGone (other : Nat) (phase : JobPhase) : (s.discardStep other phase).jobOf uid = none := by
  unfold State.discardStep
  split
  · exact h
  · split
    · rwa [State.jobOf_setJob_isNone]
    · rw [State.jobOf_of_job (State.showJobs_job _)]
      refine State.resumeVictims_keepsGone ?_
      rw [State.jobOf_of_job (State.undoShow_job _), State.jobOf_setJob_isNone]
      simp only [State.jobOf, apply_ite State.job, State.putF_job, ite_self, State.clearObjs_job]
      rw [foldl_job, State.undoStreams_job, foldl_job fun t e => t.undo_job _ e]
      · exact h
      · intro t q
        cases (t.core q).saved <;> simp [apply_ite State.job]

/-! ## Jobs that fault (R61) -/

theorem State.endJob_keepsGone (j : Job) (status : Nat) : (s.endJob j status).jobOf uid = none := by
  simp only [State.jobOf, State.endJob, State.dropJob, List.find?_eq_none, List.mem_filter] at h ⊢
  exact fun x hx => h x hx.1

/-- One job of a context that ends: its step is discarded and its record waits. -/
def State.endOne (code : Nat → Nat) (s : State) (j : Job) : State :=
  let s := s.discardStep j.uid .queued
  match s.jobOf j.uid with
  | some j => s.endJob j (code j.uid)
  | none => s

theorem State.endOne_keepsGone (code : Nat → Nat) (j : Job) : (State.endOne code s j).jobOf uid = none := by
  have hdiscard := State.discardStep_keepsGone h j.uid .queued
  unfold State.endOne
  dsimp only
  split
  · exact State.endJob_keepsGone hdiscard _ _
  · exact hdiscard

end

section
variable (s : State) (code : Nat → Nat)

theorem State.endOne_gone (j : Job) : (State.endOne code s j).jobOf j.uid = none := by
  unfold State.endOne
  dsimp only
  split
  case h_1 x hx =>
    rw [← State.uid_of_jobOf hx]
    simp [State.jobOf, State.endJob, State.dropJob]
  case h_2 hx => exact hx

theorem State.endJobs_eq (ctx : Nat) :
    s.endJobs ctx code = (s.job.jobs.filter (·.ctx == ctx)).foldl (State.endOne code) s := rfl

theorem State.endOne_foldl_gone {j : Job} {l : List Job} (hj : j ∈ l) : (l.foldl (State.endOne code) s).jobOf j.uid = none := by
  induction l generalizing s with
  | nil => simp at hj
  | cons x l ih =>
    obtain rfl | hl := List.mem_cons.mp hj
    · rw [List.foldl_cons]
      exact List.foldlRecOn (motive := fun t : State => t.jobOf j.uid = none) _ _ (s.endOne_gone code j)
        fun _ ht y _ => State.endOne_keepsGone ht code y
    · exact ih _ hl

/-! ## The registers that follow the jobs -/

variable {s} {f : Fld} (hdev : f.off ≠ F.JOB_DEVICE_STATE_STATE.off) (hirq : f.off ≠ (F.IRQ_SRC_PENDING 0).off)
include hdev hirq

theorem State.getF_enter (st : Nat) : (s.enter st).getF f = s.getF f := by
  have halert (t : State) : t.showAlert.getF f = t.getF f := by
    unfold State.showAlert
    dsimp only
    split <;> rfl
  have hput : (s.putF F.JOB_DEVICE_STATE_STATE st).showAlert.getF f = s.getF f := (halert _).trans (State.getF_putF_off s st hdev)
  unfold State.enter
  split
  · rfl
  · dsimp only
    split
    · exact (State.getF_raise _ 0 hirq).trans hput
    · exact hput

theorem State.getF_settleDevice : s.settleDevice.getF f = s.getF f := by
  unfold State.settleDevice
  split
  · split
    · exact State.getF_enter hdev hirq 3
    · split
      · exact State.getF_enter hdev hirq 4
      · exact State.getF_enter hdev hirq 2
  · rfl

theorem State.getF_showJobs : s.showJobs.getF f = s.getF f := by
  have hfree : f.off ≠ F.JOB_DEVICE_STATE_FREE_CORES.off := hdev
  have hlull : f.off ≠ F.JOB_DEVICE_STATE_FULL_LULL.off := hdev
  rw [State.showJobs, State.getF_settleDevice hdev hirq, State.getF_putF_off _ _ hlull, State.showFree, State.getF_putF_off _ _ hfree]

end

/-! ## A job fault -/

section
variable {s : State} {uid : Nat} {j : Job} (hj : s.jobOf uid = some j) (code index kind logical : Nat)
include hj

theorem State.jobFault_of_job : s.jobFault uid code index kind logical =
    (((s.endJobs j.ctx fun u => if u = uid then code else Code.CONTEXT_TORN_DOWN).setCtx j.ctx
      { (s.endJobs j.ctx fun u => if u = uid then code else Code.CONTEXT_TORN_DOWN).ctx j.ctx with
        fault := code, detail := detailWord code index kind logical }).putF (F.JOB_CTX_STATE_STATE j.ctx) 3).showJobs := by
  simp only [State.jobFault, hj]

theorem State.jobFault_gone : (s.jobFault uid code index kind logical).jobOf uid = none := by
  have hmem : j ∈ s.job.jobs.filter (·.ctx == j.ctx) := List.mem_filter.mpr ⟨List.mem_of_find?_eq_some hj, by simp⟩
  rw [State.jobFault_of_job hj, State.jobOf_of_job (State.showJobs_job _), State.jobOf_putF, State.jobOf_setCtx, State.endJobs_eq]
  exact State.uid_of_jobOf hj ▸ State.endOne_foldl_gone s _ hmem

theorem State.jobFault_ctxState : (s.jobFault uid code index kind logical).ctxState j.ctx = 3 := by
  have hdev : (F.JOB_CTX_STATE_STATE j.ctx).off ≠ F.JOB_DEVICE_STATE_STATE.off := by
    simp only [F.JOB_CTX_STATE_STATE, F.JOB_DEVICE_STATE_STATE]
    omega
  have hirq : (F.JOB_CTX_STATE_STATE j.ctx).off ≠ (F.IRQ_SRC_PENDING 0).off := by
    simp only [F.JOB_CTX_STATE_STATE, F.IRQ_SRC_PENDING]
    omega
  rw [State.jobFault_of_job hj, State.ctxState, State.getF_showJobs hdev hirq,
    State.getF_putF_same _ _ (by simp [Fld.ok, F.JOB_CTX_STATE_STATE])]
  rfl

theorem State.jobFault_fault : ((s.jobFault uid code index kind logical).ctx j.ctx).fault = code := by
  have hctx (t : State) : t.showJobs.ctx j.ctx = t.ctx j.ctx := by simp only [State.ctx, State.showJobs_job]
  rw [State.jobFault_of_job hj, hctx, State.ctx_putF, State.ctx_setCtx, if_pos rfl]

end

end Sys2Proof.Machine
end

section
/-! Sampled checks (R122 to R129): what the end of a check may change, the counts of a check, a miss and a kept tile, a tile repeated
at a rung, the four ways a check ends, and the obligation of chapter 6 on them. -/

namespace Sys2Proof.Machine

open Sys2Proof

/-! ## The layers of a job's step (Table PG-4) -/

section
variable (s : State) (uid layer : Nat)

/-- Only jobs change with a job's step. -/
theorem State.mapStep_eq (f : StepRun → StepRun) : s.mapStep uid f = { s with job.jobs := (s.mapStep uid f).job.jobs } := by
  unfold State.mapStep
  split <;> rfl

theorem State.jobOf_mapStep_same (f : StepRun → StepRun) :
    (s.mapStep uid f).jobOf uid = (s.jobOf uid).map fun j => { j with step := j.step.map f } := by
  unfold State.mapStep
  split
  case h_1 j hj => rw [State.jobOf_setJob, if_pos (State.uid_of_jobOf hj).symm, hj]; rfl
  case h_2 hj => rw [hj]; rfl

theorem State.stepOf_mapStep (f : StepRun → StepRun) : (s.mapStep uid f).stepOf uid = (s.stepOf uid).map f := by
  simp only [State.stepOf, State.jobOf_mapStep_same]
  cases s.jobOf uid <;> rfl

theorem State.layerState_setLayer (f : Layer → Layer) (hstep : (s.stepOf uid).isSome = true) :
    (s.setLayer uid layer f).layerState uid layer = f (s.layerState uid layer) := by
  obtain ⟨st, hst⟩ := Option.isSome_iff_exists.mp hstep
  simp [State.layerState, State.setLayer, State.stepOf_mapStep, hst, storeGet_storeSet]

theorem State.stepOf_setLayer_isSome (f : Layer → Layer) :
    ((s.setLayer uid layer f).stepOf uid).isSome = (s.stepOf uid).isSome := by
  simp [State.setLayer, State.stepOf_mapStep]

theorem State.checks_countEscalated (rung : Nat) (up : Bool) :
    ((s.countEscalated uid layer rung up).layerState uid layer).checks = (s.layerState uid layer).checks := by
  simp only [State.layerState, State.countEscalated, State.stepOf_mapStep]
  cases s.stepOf uid <;> simp [storeGet_storeSet]

theorem State.checks_escalateLayer (rung esc : Nat) :
    ((s.escalateLayer uid layer rung esc).layerState uid layer).checks = (s.layerState uid layer).checks := by
  simp only [State.layerState, State.escalateLayer, State.setLayer, State.stepOf_mapStep]
  cases s.stepOf uid with
  | none => rfl
  | some st =>
    simp only [Option.map_some, storeGet_storeSet, if_true]
    split
    · split <;> rfl
    · rfl

end

/-! ## Within a frame of one core, registers and jobs -/

/-- What the end of a check may change: registers of a list, one core and the jobs. -/
def State.onlyCheck (s t : State) (p : Nat) (l : List Nat) : Prop :=
  t = { s with regs := t.regs, cores := t.cores, job.jobs := t.job.jobs } ∧ (∀ q, q ≠ p → t.core q = s.core q) ∧ s.regsKept t l

section
variable {s t : State} {p : Nat} {l : List Nat}

theorem State.onlyCheck_of_onlyCore (h : s.onlyCore t p l) : s.onlyCheck t p l := by
  obtain ⟨ht, hframe⟩ := h
  refine ⟨?_, hframe⟩
  rw [ht]

theorem State.onlyCheck_trans (h : s.onlyCheck t p l) {u : State} (k : t.onlyCheck u p l) : s.onlyCheck u p l := by
  obtain ⟨ht, hcores, hregs⟩ := h
  obtain ⟨hu, kcores, kregs⟩ := k
  refine ⟨?_, fun q hq => (kcores q hq).trans (hcores q hq), fun o ho => (kregs o ho).trans (hregs o ho)⟩
  rw [hu, ht]

theorem State.onlyCheck_mapStep (h : s.onlyCheck t p l) (uid : Nat) (f : StepRun → StepRun) :
    s.onlyCheck (t.mapStep uid f) p l := by
  refine State.onlyCheck_trans h ?_
  rw [State.mapStep_eq]
  exact ⟨rfl, fun _ _ => rfl, fun _ _ => rfl⟩

theorem State.core_of_onlyRegs (h : s.onlyRegs t l) (q : Nat) : t.core q = s.core q := by
  rw [h.1]
  rfl

theorem State.onlyCore_of_onlyRegs (h : s.onlyRegs t l) : s.onlyCore t p l := by
  refine ⟨?_, fun q _ => State.core_of_onlyRegs h q, h.2⟩
  rw [h.1]

theorem State.onlyCore_trans (h : s.onlyCore t p l) {u : State} (k : t.onlyCore u p l) : s.onlyCore u p l := by
  obtain ⟨ht, hcores, hregs⟩ := h
  obtain ⟨hu, kcores, kregs⟩ := k
  refine ⟨?_, fun q hq => (kcores q hq).trans (hcores q hq), fun o ho => (kregs o ho).trans (hregs o ho)⟩
  rw [hu, ht]

end

/-! ## What a change of a job's step leaves -/

section
variable (s : State) (uid : Nat) (f : StepRun → StepRun)

@[simp] theorem State.core_mapStep (p : Nat) : (s.mapStep uid f).core p = s.core p := by rw [State.mapStep_eq]; rfl

@[simp] theorem State.reg_mapStep (o : Nat) : (s.mapStep uid f).reg o = s.reg o := by rw [State.mapStep_eq]; rfl

@[simp] theorem State.getF_mapStep (x : Fld) : (s.mapStep uid f).getF x = s.getF x := by simp [State.getF]

@[simp] theorem State.mapStep_mem : (s.mapStep uid f).mem = s.mem := by rw [State.mapStep_eq]

/-- Is no tile of a job under suspicion (R130)? -/
def State.trusted (s : State) (uid : Nat) : Prop := (s.jobOf uid).bind (·.suspect) = none

theorem State.trusted_mapStep : (s.mapStep uid f).trusted uid ↔ s.trusted uid := by
  simp only [State.trusted, State.jobOf_mapStep_same]
  cases s.jobOf uid <;> rfl

variable {s uid} in
theorem State.clearSuspect_trusted (h : s.trusted uid) (layer tile : Nat) : s.clearSuspect uid layer tile = s := by
  unfold State.clearSuspect
  split
  · rfl
  case h_2 j hj =>
    have hsuspect : j.suspect = none := by simpa [State.trusted, hj] using h
    rw [hsuspect]

end

/-! ## A kept tile (R127, R129) -/

section
variable (s : State) (p : Nat)

theorem State.core_popCheck : (s.popCheck p).core p = { s.core p with checks := (s.core p).checks.drop 1 } :=
  State.core_setCore_same ..

theorem State.reg_popCheck (o : Nat) : (s.popCheck p).reg o = s.reg o := rfl

/-- The matrix engine's flags are the low bits of a core's flag word. -/
theorem State.bit_flags_addFlags (f : Flags) {i : Nat} (hi : i < 32) :
    bit ((s.addFlags p 0 f).reg (R.JOB_CORE_FLAGS p)).toNat i =
      (bit (s.reg (R.JOB_CORE_FLAGS p)).toNat i || (decide (i < 4) && bit f.toNat i)) := by
  have hlow : bit f.toNat i = (decide (i < 4) && bit f.toNat i) := by
    by_cases h4 : i < 4
    · simp [h4]
    · have hlt : f.toNat < 2 ^ i := Nat.lt_of_lt_of_le f.isLt (Nat.pow_le_pow_right (by decide) (by omega))
      simp [h4, bit_eq_testBit, Nat.testBit_lt_two_pow hlt]
  rw [← hlow]
  simp only [State.addFlags, State.reg_setReg_same, bit_eq_testBit, BitVec.toNat_ofNat, Nat.testBit_mod_two_pow, hi, decide_true,
    Bool.true_and, Nat.pow_zero, Nat.mul_one]
  exact Nat.testBit_or ..

variable {s p} (he : (s.core p).epilogue = [])
include he

/-- Where no epilogue waits, serving a core changes nothing that is read. -/
theorem State.serveEpilogue_none :
    s.serveEpilogue p = if (s.core p).checks.isEmpty then s.setCore p (s.core p) else s := by
  have hcore : ({ s.core p with epilogue := [] } : Core) = s.core p := by rw [← he]
  simp only [State.serveEpilogue, he, List.foldl_nil, hcore]

theorem State.core_serveEpilogue (q : Nat) : (s.serveEpilogue p).core q = s.core q := by
  rw [State.serveEpilogue_none he]
  split
  · rw [State.core_setCore]
    split
    case isTrue hq => rw [hq]
    case isFalse => rfl
  · rfl

theorem State.reg_serveEpilogue (o : Nat) : (s.serveEpilogue p).reg o = s.reg o := by
  rw [State.serveEpilogue_none he]
  split <;> rfl

theorem State.layerState_serveEpilogue (uid layer : Nat) : (s.serveEpilogue p).layerState uid layer = s.layerState uid layer := by
  rw [State.serveEpilogue_none he]
  split <;> rfl

theorem State.onlyCore_serveEpilogue (l : List Nat) : s.onlyCore (s.serveEpilogue p) p l := by
  rw [State.serveEpilogue_none he]
  split
  · exact State.onlyCore_setCore State.onlyCore_refl _
  · exact State.onlyCore_refl

end

/-! ## The counts of a kept tile -/

/-- A kept tile's check ended, its flags given to the core and its escalation counted. -/
def State.countKept (s : State) (p uid : Nat) (k : Check) (esc : Nat) : State :=
  (((s.popCheck p).addFlags p 0 k.flags).escalateLayer uid k.layer k.rung esc).countEscalated uid k.layer k.rung k.up

section
variable {s : State} {p uid : Nat} (k : Check) (esc : Nat)

theorem State.core_countKept : (s.countKept p uid k esc).core p = { s.core p with checks := (s.core p).checks.drop 1 } := by
  simp [State.countKept, State.countEscalated, State.escalateLayer, State.setLayer, State.core_popCheck]

theorem State.reg_countKept (o : Nat) : (s.countKept p uid k esc).reg o = (s.addFlags p 0 k.flags).reg o := by
  simp only [State.countKept, State.countEscalated, State.escalateLayer, State.setLayer, State.reg_mapStep]
  rfl

theorem State.checks_countKept :
    ((s.countKept p uid k esc).layerState uid k.layer).checks = (s.layerState uid k.layer).checks := by
  rw [State.countKept, State.checks_countEscalated, State.checks_escalateLayer]
  rfl

theorem State.onlyCheck_countKept {l : List Nat} (hl : R.JOB_CORE_FLAGS p ∈ l) : s.onlyCheck (s.countKept p uid k esc) p l := by
  have hpop : s.onlyCore ((s.popCheck p).addFlags p 0 k.flags) p l :=
    State.onlyCore_setReg (State.onlyCore_setCore State.onlyCore_refl _) _ hl
  exact State.onlyCheck_mapStep (State.onlyCheck_mapStep (State.onlyCheck_of_onlyCore hpop) _ _) _ _

/-- A tile of a job without a suspect is counted as kept, and what waited for its check is served. -/
theorem State.keepTile_trusted (hs : s.trusted uid) (g : Guard) :
    s.keepTile p uid g k esc = (s.countKept p uid k esc).serveEpilogue p := by
  have hkept : (s.countKept p uid k esc).trusted uid := (State.trusted_mapStep ..).mpr ((State.trusted_mapStep ..).mpr hs)
  rw [State.keepTile, ← State.countKept, State.clearSuspect_trusted hkept]

end

/-! ## A repeated tile (R127) -/

/-- The counters that a repeated tile advances: cycles of the engine and its side-lanes, and a window's (R81, R95, R118, R159). -/
def repeatRegs (p : Nat) : List Nat :=
  [P.JOB_CORE_MMA_BUSY p, P.JOB_CORE_MMA_BUSY p + 4, P.JOB_CORE_WSTALL p, P.JOB_CORE_WSTALL p + 4, P.JOB_CORE_PSTALL p,
    P.JOB_CORE_PSTALL p + 4, P.JOB_CORE_SIDESTALL p, P.JOB_CORE_SIDESTALL p + 4, P.JOB_CORE_CONV_VECTORS p,
    P.JOB_CORE_CONV_VECTORS p + 4, (F.JOB_CORE_CONV_PADDED_COUNT p).off]

theorem misses_not_repeatRegs (p : Nat) : (F.JOB_CORE_GUARD_MISSES_COUNT p).off ∉ repeatRegs p := by
  simp only [repeatRegs, F.JOB_CORE_GUARD_MISSES_COUNT, F.JOB_CORE_CONV_PADDED_COUNT, P.JOB_CORE_MMA_BUSY, P.JOB_CORE_WSTALL,
    P.JOB_CORE_PSTALL, P.JOB_CORE_SIDESTALL, P.JOB_CORE_CONV_VECTORS, List.mem_cons, List.not_mem_nil, or_false]
  omega

section
variable (s : State) (p : Nat) (x : Plan)

theorem State.onlyRegs_engineCycles (ab : Src × Src) (m : Nat) : s.onlyRegs (s.engineCycles p x ab m).1 (repeatRegs p) :=
  State.onlyRegs_addP (State.onlyRegs_addP (State.onlyRegs_addP State.onlyRegs_refl _ (by simp [repeatRegs]) (by simp [repeatRegs])) _
    (by simp [repeatRegs]) (by simp [repeatRegs])) _ (by simp [repeatRegs]) (by simp [repeatRegs])

theorem State.onlyRegs_windowCounts (lo hi : Nat) : s.onlyRegs (s.windowCounts p x lo hi) (repeatRegs p) := by
  unfold State.windowCounts
  split
  · exact State.onlyRegs_addF (State.onlyRegs_addP State.onlyRegs_refl _ (by simp [repeatRegs]) (by simp [repeatRegs])) _
      (by simp [repeatRegs])
  · exact State.onlyRegs_refl

/-- A repeated tile is run again at its rung: cycles counted, its accumulator tile written, and its check begun anew. -/
theorem State.repeatTile_cases (g : Guard) (k : Check) (r : Nat) :
    ∃ (u : State) (a : Nat) (bs : List Byte) (flags : Flags), s.onlyRegs u (repeatRegs p) ∧
      s.repeatTile p x g k r = ((u.setAcc p a bs).putCheck p { k with rung := r, flags := flags, up := true }).windowCounts p x
        (64 * k.tile) (64 * k.tile + x.tileRows k.tile) := by
  refine ⟨_, _, _, _, ?_, rfl⟩
  have hcycles := s.onlyRegs_engineCycles p x (srcsAt x (some g) r) (x.tileRows k.tile)
  cases s.sidecarAt p g with
  | none => exact hcycles
  | some h => exact State.onlyRegs_addP hcycles _ (by simp [repeatRegs]) (by simp [repeatRegs])

theorem State.onlyCore_repeatTile (g : Guard) (k : Check) (r : Nat) : s.onlyCore (s.repeatTile p x g k r) p (repeatRegs p) := by
  obtain ⟨u, a, bs, flags, hu, hrepeat⟩ := s.repeatTile_cases p x g k r
  rw [hrepeat]
  exact State.onlyCore_trans (State.onlyCore_setCore (State.onlyCore_setAcc (State.onlyCore_of_onlyRegs hu) _ _) _)
    (State.onlyCore_of_onlyRegs (State.onlyRegs_windowCounts ..))

theorem State.core_repeatTile (g : Guard) (k : Check) (r : Nat) :
    ((s.repeatTile p x g k r).core p).scratch = (s.core p).scratch ∧
      ∃ flags, ((s.repeatTile p x g k r).core p).checks =
        { k with rung := r, flags := flags, up := true } :: (s.core p).checks.drop 1 := by
  obtain ⟨u, a, bs, flags, hu, hrepeat⟩ := s.repeatTile_cases p x g k r
  rw [hrepeat, State.core_of_onlyRegs (State.onlyRegs_windowCounts ..), State.putCheck, State.core_setCore_same, State.setAcc,
    State.core_setCore_same, State.core_of_onlyRegs hu]
  exact ⟨rfl, flags, rfl⟩

end

/-! ## Checks counted -/

/-- A check counted for its core, in JOB_CORE_GUARD_CHECKS, and for its layer. -/
def State.countCheck (s : State) (p uid layer : Nat) : State :=
  (s.addF (F.JOB_CORE_GUARD_CHECKS_COUNT p) 1).setLayer uid layer fun y => { y with checks := y.checks + 1 }

/-- A miss counted for its core, in JOB_CORE_GUARD_MISSES, and for its layer. -/
def State.countMiss (s : State) (p uid layer : Nat) : State :=
  (s.addF (F.JOB_CORE_GUARD_MISSES_COUNT p) 1).setLayer uid layer fun y => { y with misses := y.misses + 1 }

section
variable (s : State) (p uid layer : Nat)

@[simp] theorem State.core_countCheck (q : Nat) : (s.countCheck p uid layer).core q = s.core q := by
  simp [State.countCheck, State.setLayer]

@[simp] theorem State.core_countMiss (q : Nat) : (s.countMiss p uid layer).core q = s.core q := by
  simp [State.countMiss, State.setLayer]

@[simp] theorem State.countCheck_mem : (s.countCheck p uid layer).mem = s.mem := by simp [State.countCheck, State.setLayer]

@[simp] theorem State.countMiss_mem : (s.countMiss p uid layer).mem = s.mem := by simp [State.countMiss, State.setLayer]

theorem State.getF_addF_same {f : Fld} (n : Nat) (hf : f.ok) : (s.addF f n).getF f = (s.getF f + n) % 2 ^ (f.hi + 1 - f.lo) :=
  State.getF_putF_same _ _ hf

theorem State.getF_countCheck_checks : (s.countCheck p uid layer).getF (F.JOB_CORE_GUARD_CHECKS_COUNT p) =
    (s.getF (F.JOB_CORE_GUARD_CHECKS_COUNT p) + 1) % 2 ^ 32 := by
  rw [State.countCheck, State.setLayer, State.getF_mapStep,
    State.getF_addF_same _ _ (by simp [Fld.ok, F.JOB_CORE_GUARD_CHECKS_COUNT])]
  rfl

theorem State.getF_countMiss_misses : (s.countMiss p uid layer).getF (F.JOB_CORE_GUARD_MISSES_COUNT p) =
    (s.getF (F.JOB_CORE_GUARD_MISSES_COUNT p) + 1) % 2 ^ 32 := by
  rw [State.countMiss, State.setLayer, State.getF_mapStep,
    State.getF_addF_same _ _ (by simp [Fld.ok, F.JOB_CORE_GUARD_MISSES_COUNT])]
  rfl

theorem State.getF_countCheck_misses :
    (s.countCheck p uid layer).getF (F.JOB_CORE_GUARD_MISSES_COUNT p) = s.getF (F.JOB_CORE_GUARD_MISSES_COUNT p) := by
  rw [State.countCheck, State.setLayer, State.getF_mapStep, State.addF, State.getF_putF_off]
  simp [F.JOB_CORE_GUARD_MISSES_COUNT, F.JOB_CORE_GUARD_CHECKS_COUNT]

theorem State.reg_countCheck {o : Nat} (ho : o ≠ (F.JOB_CORE_GUARD_CHECKS_COUNT p).off) :
    (s.countCheck p uid layer).reg o = s.reg o := by
  rw [State.countCheck, State.setLayer, State.reg_mapStep, State.addF, State.reg_putF_other _ _ ho]

theorem State.checks_countCheck (hstep : (s.stepOf uid).isSome = true) :
    ((s.countCheck p uid layer).layerState uid layer).checks = (s.layerState uid layer).checks + 1 := by
  rw [State.countCheck, State.layerState_setLayer]
  · rfl
  · exact hstep

theorem State.trusted_countCheck : (s.countCheck p uid layer).trusted uid ↔ s.trusted uid := State.trusted_mapStep ..

theorem State.onlyCheck_countCheck {l : List Nat} (hl : (F.JOB_CORE_GUARD_CHECKS_COUNT p).off ∈ l) :
    s.onlyCheck (s.countCheck p uid layer) p l :=
  State.onlyCheck_mapStep (State.onlyCheck_of_onlyCore (State.onlyCore_addF State.onlyCore_refl _ hl)) _ _

/-- Both counts change a job's step alone. -/
theorem State.jobOf_counted {j : Job} (hj : s.jobOf uid = some j) :
    (∃ st, (s.countCheck p uid layer).jobOf uid = some { j with step := st }) ∧
      ∃ st, ((s.countCheck p uid layer).countMiss p uid layer).jobOf uid = some { j with step := st } := by
  simp [State.countCheck, State.countMiss, State.setLayer, State.jobOf_mapStep_same, hj]

end

/-! ## How a check ends (R122, R127) -/

section
variable {s : State} {p : Nat} {prog : Program} {j : Job} {g : Guard} {k : Check} {n : Norms × Bool} (hown : k.selfPass = false)
  (hnorms : s.checkNorms p (s.planOf p k.enc) g k false = n)
  (hpass : (n.2 && failsArithmetic (s.planOf p k.enc).k (s.planOf p k.enc).p n.1) = false)
include hown hnorms hpass

theorem State.checkEnds_within (hj : s.jobOf j.uid = some j)
    (hmiss : tileMisses (s.layerSet j.uid k.layer).tol n.1 = false) :
    s.checkEnds p prog j g k = (s.countCheck p j.uid k.layer).keepTile p j.uid g k (s.layerSet j.uid k.layer).esc := by
  obtain ⟨⟨st, hst⟩, -⟩ := s.jobOf_counted p j.uid k.layer hj
  simp only [State.countCheck] at hst ⊢
  simp only [State.checkEnds, hown, hnorms, hpass, hmiss, Bool.false_eq_true, if_false, Bool.not_false, if_true, hst, Option.getD_some]

variable (hmiss : tileMisses (s.layerSet j.uid k.layer).tol n.1 = true)
include hmiss

theorem State.checkEnds_repeats {r : Nat} (hnext : nextRung (s.planOf p k.enc) (some g) k.rung = some r) :
    s.checkEnds p prog j g k =
      ((s.countCheck p j.uid k.layer).countMiss p j.uid k.layer).repeatTile p (s.planOf p k.enc) g k r := by
  simp only [State.checkEnds, hown, hnorms, hpass, hmiss, hnext, Bool.false_eq_true, if_false, Bool.not_true, if_true]
  rfl

variable (hnext : nextRung (s.planOf p k.enc) (some g) k.rung = none)
include hnext

omit hpass in
theorem State.checkEnds_again (hself : n.2 = false) :
    s.checkEnds p prog j g k =
      ((s.countCheck p j.uid k.layer).countMiss p j.uid k.layer).putCheck p { k with selfPass := true } := by
  simp only [State.checkEnds, hown, hnorms, hmiss, hnext, hself, Bool.false_and, Bool.false_eq_true, if_false, Bool.not_true, if_true]
  rfl

theorem State.checkEnds_exhausted (hj : s.jobOf j.uid = some j) (hself : n.2 = true)
    (hacc : (s.layerSet j.uid k.layer).accept = false) :
    s.checkEnds p prog j g k =
      ((s.countCheck p j.uid k.layer).countMiss p j.uid k.layer).jobFault j.uid Code.ESCALATION_EXHAUSTED 0 0 0 := by
  obtain ⟨-, st, hst⟩ := s.jobOf_counted p j.uid k.layer hj
  rw [hself, Bool.true_and] at hpass
  simp only [State.countCheck, State.countMiss] at hst ⊢
  simp only [State.checkEnds, hown, hnorms, hpass, hmiss, hnext, hself, Bool.true_and, Bool.false_eq_true, if_false,
    Bool.not_true, if_true, hst, Option.getD_some, State.atTop, hacc]

end

theorem exec_mmaCheckComplete {s : State} {p : Nat} {k : Check} {rest : List Check} {prog : Program} {j : Job} {g : Guard}
    (hchecks : (s.core p).checks = k :: rest) (hprog : (s.core p).prog = some prog) (hj : s.jobOf prog.job = some j)
    (hg : s.guardAt p (s.planOf p k.enc) = some g) :
    exec (.mmaCheckComplete p) s =
      if j.phase = .running then .next (s.checkEnds p prog j g k) else .next (s.hold (.mmaCheckComplete p)) := by
  change execMmaCheckComplete p s = _
  simp only [execMmaCheckComplete, hchecks, hprog, hj, hg]

/-! ## The obligation -/

section
variable {s : State} {p : Nat} {k : Check} {rest : List Check} {j : Job} (hchecks : (s.core p).checks = k :: rest)
  (hj : s.jobOf j.uid = some j) (g : Guard)
include hchecks hj

/-- What R122 and R129 ask of a tile that is kept. -/
theorem State.countCheck_keepTile (hsuspect : j.suspect = none) (he : (s.core p).epilogue = []) (esc : Nat) :
    let t := (s.countCheck p j.uid k.layer).keepTile p j.uid g k esc
    t.core p = { s.core p with checks := rest } ∧
      t.getF (F.JOB_CORE_GUARD_CHECKS_COUNT p) = (s.getF (F.JOB_CORE_GUARD_CHECKS_COUNT p) + 1) % 2 ^ 32 ∧
      (j.step.isSome = true → (t.layerState j.uid k.layer).checks = (s.layerState j.uid k.layer).checks + 1) ∧
      (∀ i, i < 32 → bit (t.reg (R.JOB_CORE_FLAGS p)).toNat i =
        (bit (s.reg (R.JOB_CORE_FLAGS p)).toNat i || (decide (i < 4) && bit k.flags.toNat i))) ∧
      s.onlyCheck t p [R.JOB_CORE_FLAGS p, (F.JOB_CORE_GUARD_CHECKS_COUNT p).off] := by
  have htrust : (s.countCheck p j.uid k.layer).trusted j.uid := by
    rw [State.trusted_countCheck, State.trusted, hj, Option.bind_some, hsuspect]
  have hkept : ((s.countCheck p j.uid k.layer).countKept p j.uid k esc).core p = { s.core p with checks := rest } := by
    rw [State.core_countKept, State.core_countCheck, hchecks]
    rfl
  have hep : (((s.countCheck p j.uid k.layer).countKept p j.uid k esc).core p).epilogue = [] := by rw [hkept, he]
  have hflags : R.JOB_CORE_FLAGS p ≠ (F.JOB_CORE_GUARD_CHECKS_COUNT p).off := by
    simp [R.JOB_CORE_FLAGS, F.JOB_CORE_GUARD_CHECKS_COUNT]
  dsimp only
  rw [State.keepTile_trusted _ _ htrust]
  refine ⟨?core, ?count, fun hstep => ?layers, fun i hi => ?flags, ?frame⟩
  case core => rw [State.core_serveEpilogue hep, hkept]
  case count =>
    rw [← State.getF_countCheck_checks s p j.uid k.layer]
    simp only [State.getF, State.reg_serveEpilogue hep, State.reg_countKept, State.addFlags]
    rw [State.reg_setReg_other _ _ hflags.symm]
  case layers =>
    rw [State.layerState_serveEpilogue hep, State.checks_countKept, State.checks_countCheck]
    simpa [State.stepOf, hj] using hstep
  case flags =>
    rw [State.reg_serveEpilogue hep, State.reg_countKept, State.bit_flags_addFlags _ _ _ hi, State.reg_countCheck _ _ _ _ hflags]
  case frame =>
    exact State.onlyCheck_trans (State.onlyCheck_trans (State.onlyCheck_countCheck s p j.uid k.layer (by simp))
      (State.onlyCheck_countKept k esc (by simp))) (State.onlyCheck_of_onlyCore (State.onlyCore_serveEpilogue hep _))

omit hj in
/-- What R127 asks of a tile that is repeated. -/
theorem State.countMiss_repeatTile (uid : Nat) (x : Plan) (r : Nat) :
    let t := ((s.countCheck p uid k.layer).countMiss p uid k.layer).repeatTile p x g k r
    (∃ y, (t.core p).checks = y :: rest ∧ y.rung = r ∧ y.up = true ∧ y.tile = k.tile ∧ y.enc = k.enc) ∧
      t.getF (F.JOB_CORE_GUARD_MISSES_COUNT p) = (s.getF (F.JOB_CORE_GUARD_MISSES_COUNT p) + 1) % 2 ^ 32 ∧
      (t.core p).scratch = (s.core p).scratch ∧ (∀ q, q ≠ p → t.core q = s.core q) ∧ t.mem = s.mem := by
  obtain ⟨hframe, hcores, hregs⟩ :=
    ((s.countCheck p uid k.layer).countMiss p uid k.layer).onlyCore_repeatTile p x g k r
  obtain ⟨hscratch, flags, hnew⟩ := ((s.countCheck p uid k.layer).countMiss p uid k.layer).core_repeatTile p x g k r
  rw [State.core_countMiss, State.core_countCheck, hchecks] at hnew
  refine ⟨⟨_, hnew, rfl, rfl, rfl, rfl⟩, ?misses, ?scratch, fun q hq => ?others, ?mem⟩
  case misses =>
    rw [State.getF, hregs _ (misses_not_repeatRegs p), ← State.getF_countCheck_misses s p uid k.layer]
    exact State.getF_countMiss_misses ..
  case scratch => rw [hscratch, State.core_countMiss, State.core_countCheck]
  case others => rw [hcores q hq, State.core_countMiss, State.core_countCheck]
  case mem => rw [hframe, State.countMiss_mem, State.countCheck_mem]

omit hchecks in
/-- What R127 asks of a job whose tile misses at the top. -/
theorem State.countMiss_exhausted (layer : Nat) :
    let t := ((s.countCheck p j.uid layer).countMiss p j.uid layer).jobFault j.uid Code.ESCALATION_EXHAUSTED 0 0 0
    t.ctxState j.ctx = 3 ∧ (t.ctx j.ctx).fault = Code.ESCALATION_EXHAUSTED ∧ t.jobOf j.uid = none := by
  obtain ⟨-, st, hst⟩ := s.jobOf_counted p j.uid layer hj
  exact ⟨State.jobFault_ctxState hst .., State.jobFault_fault hst .., State.jobFault_gone hst ..⟩

end

/-- Settles O38: a check of a running job ends in one of four ways, by whether its norms miss the tolerance, whether a rung lies above
and whether its reference is the masters; each way is one chain of updates, of which the statement is read off. -/
theorem checksKeepTheirTiles : Obligations.ChecksKeepTheirTiles := by
  unfold Obligations.ChecksKeepTheirTiles
  intro s p k rest prog j g hchecks hprog hjob hg
  have hexec := exec_mmaCheckComplete hchecks hprog hjob hg
  have hj : s.jobOf j.uid = some j := State.uid_of_jobOf hjob ▸ hjob
  refine ⟨fun hphase => by rw [hexec, if_neg hphase]; rfl, fun _ hrun hown hpass => ?_⟩
  rw [if_pos hrun] at hexec
  refine ⟨fun hsuspect he hmiss => ?kept, fun r hmiss hnext => ?repeated, fun hmiss hnext => ⟨fun hself => ?again,
    fun hmaster hacc _ => ?exhausted⟩⟩
  case kept =>
    rw [State.checkEnds_within hown rfl hpass hj hmiss] at hexec
    exact ⟨_, hexec, State.countCheck_keepTile hchecks hj g hsuspect he _⟩
  case repeated =>
    rw [State.checkEnds_repeats hown rfl hpass hmiss hnext] at hexec
    exact ⟨_, hexec, State.countMiss_repeatTile hchecks g j.uid _ r⟩
  case again =>
    rw [State.checkEnds_again hown rfl hmiss hnext hself] at hexec
    refine ⟨_, hexec, ?_⟩
    dsimp only
    rw [State.putCheck, State.core_setCore_same, State.core_countMiss, State.core_countCheck, hchecks]
    rfl
  case exhausted =>
    rw [State.checkEnds_exhausted hown rfl hpass hmiss hnext hj hmaster hacc] at hexec
    exact ⟨_, hexec, State.countMiss_exhausted hj k.layer⟩

end Sys2Proof.Machine
end

section
/-! Tile instructions at the sequencer (R138 to R143, R61): what a job fault leaves of its context, how an instruction that is fetched
goes on, waits or faults, and which ends of the fetch are faults. -/

namespace Sys2Proof.Machine

open Sys2Proof

/-! ## The fault of an instruction (R61) -/

@[simp] theorem State.ctx_showJobs (s : State) (n : Nat) : s.showJobs.ctx n = s.ctx n := by simp only [State.ctx, State.showJobs_job]

section
variable {s : State} {uid : Nat} {j : Job} (hj : s.jobOf uid = some j) (code index kind logical : Nat)
include hj

theorem State.jobFault_detail :
    ((s.jobFault uid code index kind logical).ctx j.ctx).detail = detailWord code index kind logical := by
  rw [State.jobFault_of_job hj, State.ctx_showJobs, State.ctx_putF, State.ctx_setCtx, if_pos rfl]

theorem State.jobFault_faulted :
    (s.jobFault uid code index kind logical).faulted j code (detailWord code index kind logical) :=
  ⟨State.jobFault_ctxState hj .., State.jobFault_fault hj .., State.jobFault_detail hj .., State.uid_of_jobOf hj ▸ State.jobFault_gone hj ..⟩

end

/-! ## How an instruction issues -/

section
variable {s : State} {p : Nat} {enc : BitVec 256} {cmd : Instr} {row : Nat} {judge : Program → Job → Judged}
  {body : Program → Job → TileRes} {g : Program} {j : Job}

theorem State.fetched_jobOf (h : s.fetched p enc g j) : s.jobOf j.uid = some j := by
  obtain ⟨-, -, hj, -⟩ := h
  exact State.uid_of_jobOf hj ▸ hj

/-- The counter that an instruction which goes on leaves. -/
theorem State.advanced_next (s t : State) (p : Nat) :
    s.advanced (t.putF (F.JOB_CORE_PROGRAM_NEXT p) (s.getF (F.JOB_CORE_PROGRAM_NEXT p) + 1)) p :=
  State.getF_putF_same t _ (by simp [Fld.ok, F.JOB_CORE_PROGRAM_NEXT])

section
variable (h : s.fetched p enc g j) (hv : judge g j = ⟨row, true, 0⟩) (hrow : row ≠ 0)
include h hv hrow

theorem State.issue_done {t : State} (hbody : body g j = .done t) : s.issue p enc cmd row judge body =
    .next (t.putF (F.JOB_CORE_PROGRAM_NEXT p) (s.getF (F.JOB_CORE_PROGRAM_NEXT p) + 1)) := by
  rw [State.issue_legal h hv hrow, hbody]
  rfl

theorem State.issue_waits (hbody : body g j = .wait) : s.issue p enc cmd row judge body = .next (s.hold cmd) := by
  rw [State.issue_legal h hv hrow, hbody]
  rfl

theorem State.issue_faults {code kind : Nat} (hbody : body g j = .fault code kind) : s.issue p enc cmd row judge body =
    .next (s.jobFault j.uid code (s.getF (F.JOB_CORE_PROGRAM_NEXT p)) kind (s.getF (F.JOB_CORE_STATUS_LOGICAL p))) := by
  rw [State.issue_legal h hv hrow, hbody]
  rfl

end

/-! ## Ends of the fetch (R138, R141) -/

section
variable (hp : p < 1088) (hg : (s.core p).prog = some g) (hj : s.jobOf g.job = some j) (hlive : g.retired = false)
  (hrun : j.phase = .running)
include hp hg hj hlive hrun

theorem State.issue_pastCount (hn : g.count ≤ s.getF (F.JOB_CORE_PROGRAM_NEXT p)) : s.issue p enc cmd row judge body =
    .next (s.jobFault j.uid Code.ILLEGAL_INSTRUCTION g.count 0 (s.getF (F.JOB_CORE_STATUS_LOGICAL p))) := by
  simp [State.issue, hp, hg, hj, hlive, hrun, hn]

variable (hn : s.getF (F.JOB_CORE_PROGRAM_NEXT p) < g.count)
include hn

theorem State.issue_unreadable (hf : s.vFetch g.ctx (g.va + 0x40 + 32 * s.getF (F.JOB_CORE_PROGRAM_NEXT p)) 32 = .wait) :
    s.issue p enc cmd row judge body = .next (s.hold cmd) := by
  simp [State.issue, hp, hg, hj, hlive, hrun, Nat.not_le.mpr hn, hf]

theorem State.issue_unmapped {va : Nat}
    (hf : s.vFetch g.ctx (g.va + 0x40 + 32 * s.getF (F.JOB_CORE_PROGRAM_NEXT p)) 32 = .mapFault va) :
    s.issue p enc cmd row judge body =
      .next (s.jobFault j.uid Code.BAD_PROGRAM (s.getF (F.JOB_CORE_PROGRAM_NEXT p)) 0 (s.getF (F.JOB_CORE_STATUS_LOGICAL p))) := by
  simp [State.issue, hp, hg, hj, hlive, hrun, Nat.not_le.mpr hn, hf]

end

end

/-! ## A core's program -/

section
variable (s : State) (p : Nat) (g : Program)

@[simp] theorem State.core_setProg_same : (s.setProg p g).core p = { s.core p with prog := some g } := State.core_setCore_same ..

theorem State.onlyCore_setProg {l : List Nat} : s.onlyCore (s.setProg p g) p l := State.onlyCore_setCore State.onlyCore_refl _

end

end Sys2Proof.Machine
end

section
/-! FENCE, CHECK and END (R140, R143, Table TP-14): what the streams of a retired step leave alone, and the obligation of chapter 7 on
the three. -/

namespace Sys2Proof.Machine

open Sys2Proof

/-! ## What streams leave of jobs and cores (R317, R331) -/

/-- Jobs and cores, which no stream changes. -/
def State.work (s : State) : JobBlock × Store Core := (s.job, s.cores)

section
variable (s : State)

theorem State.work_hostWrite (cls : Nat) (ctx uid : Option Nat) (addr : Nat) (bs : List Byte) :
    (s.hostWrite cls ctx uid addr bs).work = s.work := by
  unfold State.hostWrite
  dsimp only
  split <;> rfl

theorem State.work_putRecord (v : Stream) (uid : Option Nat) (head payload : List Byte) :
    (s.putRecord v uid head payload).work = s.work := State.work_hostWrite ..

theorem State.work_writeRecord (v : Stream) (uid : Option Nat) (step : Nat) (head payload : List Byte) :
    (s.writeRecord v uid step head payload).1.work = s.work := by
  unfold State.writeRecord
  dsimp only
  split
  · split
    · exact s.work_putRecord ..
    · rfl
  · split
    · split
      · exact (State.work_putRecord ..).trans (State.work_putRecord ..)
      · exact State.work_putRecord ..
    · rfl

theorem State.work_closeRow (v : Stream) (uid : Option Nat) (step : Nat) (replayed : Bool) :
    (s.closeRow v uid step replayed).1.work = s.work := by
  unfold State.closeRow
  split
  · rfl
  · extract_lets w
    have hw : w.1.work = s.work := s.work_writeRecord ..
    split <;> exact hw

theorem State.work_freeStream (slot : Nat) : (s.freeStream slot).work = s.work := by
  unfold State.freeStream
  split <;> rfl

theorem State.work_deliverVideo (via : Via) (code value : Nat) : (s.deliverVideo via code value).work = s.work := by
  unfold State.deliverVideo
  split
  · rfl
  · extract_lets t
    have ht : t.work = s.work := by
      unfold t
      split <;> rfl
    split <;> exact ht

/-- A stream is settled in two parts: a row that retired steps leave is closed, and then a CLOSE completes. -/
theorem State.work_settleStream (slot : Nat) : (s.settleStream slot).work = s.work := by
  unfold State.settleStream
  split
  · rfl
  · extract_lets t
    have ht : t.work = s.work := by
      unfold t
      split
      · extract_lets m w
        have hw : w.1.work = s.work := s.work_closeRow ..
        split <;> exact hw
      · rfl
    clear_value t
    split
    · exact ht
    · split
      · split
        · extract_lets uid m w
          have hw : w.1.work = s.work := (t.work_closeRow ..).trans ht
          split
          · exact (State.work_deliverVideo ..).trans ((State.work_freeStream ..).trans hw)
          · exact hw
        · exact ht
      · exact ht

theorem State.work_settleStreams : s.settleStreams.work = s.work :=
  List.foldlRecOn (motive := fun t : State => t.work = s.work) _ _ rfl fun t ht v _ => (t.work_settleStream v.slot).trans ht

theorem State.work_streamsRetired (uid : Nat) : (s.streamsRetired uid).work = s.work := State.work_settleStreams _

@[simp] theorem State.streamsRetired_job (uid : Nat) : (s.streamsRetired uid).job = s.job :=
  congrArg Prod.fst (s.work_streamsRetired uid)

@[simp] theorem State.core_streamsRetired (uid p : Nat) : (s.streamsRetired uid).core p = s.core p := by
  have hcores : (s.streamsRetired uid).cores = s.cores := congrArg Prod.snd (s.work_streamsRetired uid)
  simp only [State.core, hcores]

end

/-! ## A step whose programs have all retired (R140, R55) -/

theorem State.stepOf_of_allRetired {s : State} {uid : Nat} (h : s.allRetired uid = true) : ∃ st, s.stepOf uid = some st := by
  unfold State.allRetired at h
  split at h
  case h_1 st hst => exact ⟨st, hst⟩
  case h_2 => contradiction

section
variable {s : State} {p uid : Nat} {g : Program}

theorem State.retireProgram_one (h : (s.setProg p { g with retired := true }).allRetired uid = false) :
    s.retireProgram p uid g = s.setProg p { g with retired := true } := by
  simp [State.retireProgram, h]

variable (h : (s.setProg p { g with retired := true }).allRetired uid = true)
include h

theorem State.retireProgram_last : s.retireProgram p uid g =
    ((s.setProg p { g with retired := true }).mapStep uid fun st => { st with retiredAt := some s.timeNs }).streamsRetired uid := by
  simp [State.retireProgram, h]

theorem State.core_retireProgram_last : ((s.retireProgram p uid g).core p).prog = some { g with retired := true } := by
  rw [State.retireProgram_last h, State.core_streamsRetired, State.core_mapStep, State.core_setProg_same]

/-- The Lull's clock starts at the last retirement. -/
theorem State.retireProgram_startsClock {j : Job} (hj : s.jobOf uid = some j) :
    ∃ k st, (s.retireProgram p uid g).jobOf uid = some k ∧ k.step = some st ∧ st.retiredAt = some s.timeNs := by
  obtain ⟨st, hst⟩ := State.stepOf_of_allRetired h
  have hjob : (s.setProg p { g with retired := true }).jobOf uid = some j := hj
  have hstep : j.step = some st := by simpa [State.stepOf, hjob] using hst
  rw [State.retireProgram_last h, State.jobOf_of_job (State.streamsRetired_job ..), State.jobOf_mapStep_same, hjob]
  exact ⟨_, { st with retiredAt := some s.timeNs }, rfl, congrArg (Option.map _) hstep, rfl⟩

end

/-! ## The three instructions -/

section
variable {s : State} {p : Nat} {enc : BitVec 256} {g : Program} {j : Job} (h : s.fetched p enc g j)
include h

section
variable (hop : fieldOf enc 0 1 = 0xA) (hfence : fieldOf enc 1 1 = 3) (hzero : fieldOf enc 2 30 = 0)
include hop hfence hzero

theorem exec_fence_waits (hdrained : s.coreDrained p g = false) :
    exec (.fence p enc) s = .next (s.hold (.fence p enc)) :=
  State.issue_waits h (by simp [syncRow, hop, hfence, hzero]) (by decide) (by simp [hdrained])

theorem exec_fence_done (hdrained : s.coreDrained p g = true) :
    exec (.fence p enc) s = .next ((s.setProg p { g with communicated := true }).putF (F.JOB_CORE_PROGRAM_NEXT p)
      (s.getF (F.JOB_CORE_PROGRAM_NEXT p) + 1)) :=
  State.issue_done h (by simp [syncRow, hop, hfence, hzero]) (by decide) (by simp [hdrained])

end

section
variable (hop : fieldOf enc 0 1 = 0xB) (hlow : fieldOf enc 1 3 = 0) (hhigh : fieldOf enc 6 26 = 0)
include hop hlow hhigh

theorem exec_check_waits {k : Check} (hk : k ∈ (s.core p).checks)
    (hnamed : fieldOf enc 4 2 = 0 ∨ bit (fieldOf enc 4 2) (fieldOf k.enc 3 1 % 16 + k.tile) = true) :
    exec (.check p enc) s = .next (s.hold (.check p enc)) := by
  refine State.issue_waits h (by simp [opRow, hop, hlow, hhigh]) (by decide) (if_neg fun hall => ?_)
  have hfree := List.all_eq_true.mp hall k hk
  obtain hnone | hbit := hnamed
  · simp [hnone] at hfree
  · simp [hbit] at hfree

theorem exec_check_done
    (hfree : ∀ k ∈ (s.core p).checks, fieldOf enc 4 2 ≠ 0 ∧ bit (fieldOf enc 4 2) (fieldOf k.enc 3 1 % 16 + k.tile) = false) :
    exec (.check p enc) s = .next (s.putF (F.JOB_CORE_PROGRAM_NEXT p) (s.getF (F.JOB_CORE_PROGRAM_NEXT p) + 1)) := by
  refine State.issue_done h (by simp [opRow, hop, hlow, hhigh]) (by decide) (if_pos (List.all_eq_true.mpr fun k hk => ?_))
  simpa using hfree k hk

end

section
variable (hop : fieldOf enc 0 1 = 0xC) (hzero : fieldOf enc 1 31 = 0)
include hop hzero

theorem exec_end_waits (hdrained : s.coreDrained p g = false) :
    exec (.endProgram p enc) s = .next (s.hold (.endProgram p enc)) :=
  State.issue_waits h (by simp [opRow, hop, hzero]) (by decide) (by simp [hdrained])

variable (hdrained : s.coreDrained p g = true)
include hdrained

theorem exec_end_done
    (hrows : (s.setProg p { g with retired := true }).allRetired j.uid = true → s.rowsMissing j.uid = false) :
    exec (.endProgram p enc) s = .next ((s.retireProgram p j.uid g).putF (F.JOB_CORE_PROGRAM_NEXT p)
      (s.getF (F.JOB_CORE_PROGRAM_NEXT p) + 1)) :=
  State.issue_done h (by simp [opRow, hop, hzero]) (by decide) (by simpa [hdrained] using hrows)

theorem exec_end_faults (hlast : (s.setProg p { g with retired := true }).allRetired j.uid = true)
    (hrows : s.rowsMissing j.uid = true) :
    exec (.endProgram p enc) s = .next (s.jobFault j.uid Code.VIDEO_ROWS_MISSING (s.getF (F.JOB_CORE_PROGRAM_NEXT p)) 0
      (s.getF (F.JOB_CORE_STATUS_LOGICAL p))) :=
  State.issue_faults h (by simp [opRow, hop, hzero]) (by decide) (by simp [hdrained, hlast, hrows])

end

end

/-! ## The obligation -/

/-- Settles O37: each of the three ends in the way its own condition picks; the last END of a step, in two ways. -/
theorem fenceCheckEnd : Obligations.FenceCheckEnd := by
  unfold Obligations.FenceCheckEnd
  refine ⟨fun s p enc g j h hop hfence hzero => ⟨fun hdrained => ?fenceWaits, fun hdrained => ?fenceDone⟩,
    fun s p enc g j h hop hlow hhigh => ⟨fun ⟨k, hk, hnamed⟩ => ?checkWaits, fun hfree => ?checkDone⟩,
    fun s p enc g j h hop hzero => ⟨fun hdrained => ?endWaits, fun hdrained hone => ?endOne, fun hdrained hlast hrows => ?endLast,
      fun hdrained hlast hrows _ => ?endFaults⟩⟩
  case fenceWaits => exact exec_fence_waits h hop hfence hzero hdrained
  case fenceDone =>
    exact ⟨_, exec_fence_done h hop hfence hzero hdrained, State.core_setProg_same .., State.advanced_next ..,
      State.onlyCore_putF (State.onlyCore_setProg ..) _ (by simp)⟩
  case checkWaits => exact exec_check_waits h hop hlow hhigh hk hnamed
  case checkDone =>
    exact ⟨_, exec_check_done h hop hlow hhigh hfree, State.advanced_next .., State.onlyRegs_putF State.onlyRegs_refl _ (by simp)⟩
  case endWaits => exact exec_end_waits h hop hzero hdrained
  case endOne =>
    have hexec := exec_end_done h hop hzero hdrained fun hlast => absurd (hone.symm.trans hlast) (by decide)
    rw [State.retireProgram_one hone] at hexec
    exact ⟨_, hexec, State.core_setProg_same .., State.advanced_next .., State.onlyCore_putF (State.onlyCore_setProg ..) _ (by simp)⟩
  case endLast =>
    exact ⟨_, exec_end_done h hop hzero hdrained fun _ => hrows, ⟨_, State.core_retireProgram_last hlast, rfl⟩,
      State.advanced_next .., State.retireProgram_startsClock hlast (State.fetched_jobOf h)⟩
  case endFaults =>
    obtain ⟨hctx, hcode, -, hgone⟩ := State.jobFault_faulted (State.fetched_jobOf h) ..
    exact ⟨_, exec_end_faults h hop hzero hdrained hlast hrows, hctx, hcode, hgone⟩

end Sys2Proof.Machine
end

section
/-! Halo exchange (R76, R144 to R146): what serving an inbound queue does to a WAIT, what a PUT's landing leaves of its core, and the
obligation of chapter 7 on the three. -/

namespace Sys2Proof.Machine

open Sys2Proof

/-! ## Runs of a store and halo counts -/

/-- A run of values is read back whole. -/
theorem storeGetRun_storeSetRun {α : Type} [DecidableEq α] (d : Nat → α) (st : Store α) (k : Nat) (vs : List α) :
    storeGetRun d (storeSetRun d st k vs) k vs.length = vs := by
  refine List.ext_getElem (by simp [storeGetRun]) fun i _ hi => ?_
  simp [storeGetRun, storeGet_storeSetRun, hi]

theorem State.core_setHalo_same (s : State) (p b n : Nat) :
    (s.setHalo p b n).core p = { s.core p with halo := (s.core p).halo.set b n } := State.core_setCore_same ..

theorem State.onlyCore_setHalo {s t : State} {p : Nat} {l : List Nat} (h : s.onlyCore t p l) (b n : Nat) :
    s.onlyCore (t.setHalo p b n) p l := State.onlyCore_setCore h _

theorem State.haloCount_of_core {s : State} {p : Nat} {c : Core} (h : s.core p = c) (b : Nat) : s.haloCount p b = c.halo.getD b 0 := by
  rw [State.haloCount, h]

/-- A count above zero is one of the core's own buffers. -/
theorem State.lt_halo_length {s : State} {p b n : Nat} (hn : 0 < n) (hcount : n ≤ s.haloCount p b) : b < (s.core p).halo.length := by
  refine Nat.lt_of_not_le fun hout => ?_
  rw [State.haloCount, List.getD_eq_getElem?_getD, List.getElem?_eq_none hout] at hcount
  exact absurd hcount (Nat.not_le.mpr hn)

/-! ## The encoding of a HALO (Table TP-12) -/

section
variable {enc : BitVec 256} {cores : Nat} (h : haloLegal enc cores = true)
include h

theorem haloLegal_buffer : fieldOf enc 1 1 % 4 = fieldOf enc 1 1 := by
  simp only [haloLegal, Bool.and_eq_true, beq_iff_eq] at h
  omega

theorem haloLegal_waitBytes (hwait : fieldOf enc 2 1 = 1) : 0 < fieldOf enc 12 4 := by
  simp [haloLegal, hwait] at h
  omega

end

/-! ## The inbound queue (R76) -/

section
variable {s : State} {p : Nat}

theorem runInbound_empty (h : (s.core p).inbound = []) (n : Nat) : runInbound p n s = s := by
  cases n with
  | zero => rfl
  | succ n => simp [runInbound, h]

theorem State.serveInbound_empty (h : (s.core p).inbound = []) : s.serveInbound p = s := by
  unfold State.serveInbound
  split
  · split
    · split
      · exact runInbound_empty h 8
      · rfl
    · rfl
  · rfl

theorem State.serveInbound_running {g : Program} {j : Job} (hg : (s.core p).prog = some g) (hj : s.jobOf g.job = some j)
    (hrun : j.phase = .running) : s.serveInbound p = runInbound p 8 s := by
  simp only [State.serveInbound, hg, hj, hrun, if_true]

/-- A WAIT has left the front of the queue, and its bytes the count. -/
def State.waitTaken (s : State) (p b n : Nat) (l : List Inbound) : State :=
  let t := s.setHalo p b (s.haloCount p b - n)
  t.setCore p { t.core p with inbound := l }

@[simp] theorem State.core_waitTaken (b n : Nat) (l : List Inbound) : (s.waitTaken p b n l).core p =
    { s.core p with inbound := l, halo := (s.core p).halo.set b (s.haloCount p b - n) } := by
  rw [State.waitTaken, State.core_setCore_same, State.core_setHalo_same]

theorem State.onlyCore_waitTaken {t : State} {r : List Nat} (h : s.onlyCore t p r) (b n : Nat) (l : List Inbound) :
    s.onlyCore (t.waitTaken p b n l) p r := State.onlyCore_setCore (State.onlyCore_setHalo h _ _) _

section
variable {e : Inbound} {l : List Inbound} {g : Program} (hin : (s.core p).inbound = e :: l) (hg : (s.core p).prog = some g)
  (hop : fieldOf e.enc 0 1 = 8) {b : Nat} (hb : fieldOf e.enc 1 1 % 4 = b)
include hin hg hop hb

theorem runInbound_arrived (n : Nat) (hcount : fieldOf e.enc 12 4 ≤ s.haloCount p b) :
    runInbound p (n + 1) s = runInbound p n (s.waitTaken p b (fieldOf e.enc 12 4) l) := by
  simp [runInbound, hin, hg, hop, hb, hcount, State.waitTaken]

theorem runInbound_short (n : Nat) (hcount : s.haloCount p b < fieldOf e.enc 12 4) : runInbound p (n + 1) s = s := by
  simp [runInbound, hin, hg, hop, hb, Nat.not_le.mpr hcount]

end

end

/-! ## A WAIT that issues -/

/-- A HALO WAIT alone in its core's inbound queue. -/
def State.waitQueued (s : State) (p : Nat) (g : Program) (e : Inbound) : State :=
  let t := s.setProg p { g with communicated := true }
  t.setCore p { t.core p with inbound := [e] }

section
variable {s : State} {p : Nat} {g : Program} {e : Inbound}

@[simp] theorem State.core_waitQueued :
    (s.waitQueued p g e).core p = { s.core p with prog := some { g with communicated := true }, inbound := [e] } := by
  rw [State.waitQueued, State.core_setCore_same, State.core_setProg_same]

theorem State.onlyCore_waitQueued {l : List Nat} : s.onlyCore (s.waitQueued p g e) p l :=
  State.onlyCore_setCore (State.onlyCore_setProg ..) _

@[simp] theorem State.haloCount_waitQueued (b : Nat) : (s.waitQueued p g e).haloCount p b = s.haloCount p b :=
  State.haloCount_of_core State.core_waitQueued b

section
variable {j : Job} (hj : s.jobOf g.job = some j) (hrun : j.phase = .running) (hop : fieldOf e.enc 0 1 = 8) {b : Nat}
  (hb : fieldOf e.enc 1 1 % 4 = b)
include hj hrun hop hb

theorem State.serveInbound_waitQueued_short (hcount : s.haloCount p b < fieldOf e.enc 12 4) :
    (s.waitQueued p g e).serveInbound p = s.waitQueued p g e := by
  have hprog : ((s.waitQueued p g e).core p).prog = some { g with communicated := true } := by rw [State.core_waitQueued]
  rw [State.serveInbound_running hprog hj hrun]
  exact runInbound_short (by rw [State.core_waitQueued]) hprog hop hb 7 (by rwa [State.haloCount_waitQueued])

theorem State.serveInbound_waitQueued_arrived (hcount : fieldOf e.enc 12 4 ≤ s.haloCount p b) :
    (s.waitQueued p g e).serveInbound p = (s.waitQueued p g e).waitTaken p b (fieldOf e.enc 12 4) [] := by
  have hprog : ((s.waitQueued p g e).core p).prog = some { g with communicated := true } := by rw [State.core_waitQueued]
  rw [State.serveInbound_running hprog hj hrun,
    runInbound_arrived (by rw [State.core_waitQueued]) hprog hop hb 7 (by rwa [State.haloCount_waitQueued])]
  exact runInbound_empty (by rw [State.core_waitTaken]) 7

end

end

/-! ## HALO instructions -/

/-- What a PUT hands to the mesh: its rows for the partner's halo buffer. -/
def State.meshPut (s : State) (p : Nat) (enc : BitVec 256) (j : Job) : MeshPut :=
  ⟨j.uid, p, s.getF (F.JOB_CORE_PROGRAM_NEXT p), fieldOf enc 4 2, fieldOf enc 1 1, fieldOf enc 24 4,
    (List.range (putSrc enc).rows).flatMap (s.rowAt p (putSrc enc))⟩

/-- A WAIT's entry in the inbound queue. -/
def State.haloInbound (s : State) (p : Nat) (enc : BitVec 256) (g : Program) : Inbound :=
  ⟨enc, s.getF (F.JOB_CORE_PROGRAM_NEXT p), (g.haloBuf (fieldOf enc 1 1)).addr, (g.haloBuf (fieldOf enc 1 1)).size, 0, 0⟩

section
variable {s : State} {p : Nat} {enc : BitVec 256} {g : Program} {j : Job} (h : s.fetched p enc g j) (hop : fieldOf enc 0 1 = 8)
  (hlegal : haloLegal enc j.coresWanted = true)
include h hop hlegal

theorem exec_haloPut (hput : fieldOf enc 2 1 = 0) (hover : g.overRows [putSrc enc] = 0)
    (hclear : s.checkWait p [putSrc enc] [] = false) :
    exec (.haloPut p enc) s = .next
      (State.putF { s.setProg p { g with communicated := true } with job.puts := s.job.puts ++ [s.meshPut p enc j] }
        (F.JOB_CORE_PROGRAM_NEXT p) (s.getF (F.JOB_CORE_PROGRAM_NEXT p) + 1)) :=
  State.issue_done h (by simp [haloJudge, haloRow, hop, hput, hlegal, hover]) (by decide)
    (by simp [State.haloPutBody, hclear, haloLegal_buffer hlegal, State.meshPut])

theorem exec_haloWait (hwait : fieldOf enc 2 1 = 1) (hover : g.haloBreaks (fieldOf enc 1 1) = false)
    (hclear : s.checkWait p [] [rowOne false (g.haloBuf (fieldOf enc 1 1)).addr (g.haloBuf (fieldOf enc 1 1)).size] = false)
    (hin : (s.core p).inbound = []) :
    exec (.haloWait p enc) s = .next (((s.waitQueued p g (s.haloInbound p enc g)).serveInbound p).putF (F.JOB_CORE_PROGRAM_NEXT p)
      (s.getF (F.JOB_CORE_PROGRAM_NEXT p) + 1)) :=
  State.issue_done h (by simp [haloJudge, haloRow, hop, hwait, hlegal, haloLegal_buffer hlegal, hover]) (by decide)
    (by simp [State.haloWaitBody, hclear, hin, haloLegal_buffer hlegal, State.waitQueued, State.haloInbound])

end

/-! ## A PUT that arrives (R144, R145) -/

section
variable {s : State} {core : Nat} {q : MeshPut}

theorem exec_haloDataArrive_waits (hq : s.job.puts.find? (fun q => s.rankCore q.job q.dest == some core) = some q)
    (hrun : s.runsJob core q.job = none) : exec (.haloDataArrive core) s = .next (s.hold (.haloDataArrive core)) := by
  change execHaloDataArrive core s = _
  simp only [execHaloDataArrive, hq, hrun]

theorem exec_haloDataArrive_lands {g : Program} (hq : s.job.puts.find? (fun q => s.rankCore q.job q.dest == some core) = some q)
    (hrun : s.runsJob core q.job = some g) : exec (.haloDataArrive core) s = .next (s.putLands q core g) := by
  change execHaloDataArrive core s = _
  simp only [execHaloDataArrive, hq, hrun]

variable {g : Program}

theorem State.putLands_overflow (hover : g.haloBreaks q.buf = true ∨ (g.haloBuf q.buf).size < q.offset + q.data.length) :
    s.putLands q core g = State.jobFault { s with job.puts := s.job.puts.erase q } q.job Code.RESOURCE_OVERFLOW q.index 4
      (s.getF (F.JOB_CORE_STATUS_LOGICAL q.from_)) := by
  simp only [State.putLands, Bool.or_eq_true, decide_eq_true_eq, if_pos hover]
  rfl

/-- The core a PUT's bytes have reached. -/
def Core.landed (c : Core) (h : HaloDesc) (q : MeshPut) : Core :=
  { c with scratch := storeSetRun zeroByte c.scratch (h.addr + q.offset) q.data,
           halo := c.halo.set q.buf (c.halo.getD q.buf 0 + q.data.length), haloHit := true }

/-- A PUT's bytes in their core's halo buffer, before its inbound queue is served. -/
def State.putLanded (s : State) (core : Nat) (h : HaloDesc) (q : MeshPut) : State :=
  let s := State.setScratch { s with job.puts := s.job.puts.erase q } core (h.addr + q.offset) q.data
  let s := s.setHalo core q.buf (s.haloCount core q.buf + q.data.length)
  s.setCore core { s.core core with haloHit := true }

theorem State.core_putLanded (h : HaloDesc) : (s.putLanded core h q).core core = (s.core core).landed h q := by
  rw [State.putLanded, State.core_setCore_same, State.core_setHalo_same, State.haloCount, State.setScratch, State.core_setCore_same]
  rfl

theorem State.core_putLanded_other (h : HaloDesc) {p : Nat} (hp : p ≠ core) : (s.putLanded core h q).core p = s.core p := by
  rw [State.putLanded, State.core_setCore_other _ _ hp, State.setHalo, State.core_setCore_other _ _ hp, State.setScratch,
    State.core_setCore_other _ _ hp]
  rfl

theorem State.putLands_fits (hbuf : g.haloBreaks q.buf = false) (hfits : q.offset + q.data.length ≤ (g.haloBuf q.buf).size)
    (hin : (s.core core).inbound = []) : s.putLands q core g = s.putLanded core (g.haloBuf q.buf) q := by
  have hover : ¬(g.haloBreaks q.buf = true ∨ (g.haloBuf q.buf).size < q.offset + q.data.length) := by
    rw [hbuf]
    simpa using hfits
  have hqueue : ((s.putLanded core (g.haloBuf q.buf) q).core core).inbound = [] := by
    rw [State.core_putLanded]
    exact hin
  simp only [State.putLands, Bool.or_eq_true, decide_eq_true_eq, if_neg hover]
  exact State.serveInbound_empty hqueue

end

/-! ## The obligation -/

section
variable {s : State} {p : Nat} {enc : BitVec 256} {g : Program} {j : Job} (h : s.fetched p enc g j)
include h

/-- What R76 and R145 ask of a WAIT that issues. -/
theorem State.haloWait_queued (hop : fieldOf enc 0 1 = 8) (hlegal : haloLegal enc j.coresWanted = true)
    (hwait : fieldOf enc 2 1 = 1) :
    let b := fieldOf enc 1 1
    let t := (s.waitQueued p g (s.haloInbound p enc g)).serveInbound p
    (fieldOf enc 12 4 ≤ s.haloCount p b →
      t.haloCount p b = s.haloCount p b - fieldOf enc 12 4 ∧ (t.core p).inbound = []) ∧
    (s.haloCount p b < fieldOf enc 12 4 → t.haloCount p b = s.haloCount p b ∧ (t.core p).inbound.map (·.enc) = [enc]) ∧
    (t.core p).scratch = (s.core p).scratch ∧ ∀ l, s.onlyCore t p l := by
  obtain ⟨-, -, hj, -, hrun, -⟩ := h
  have hbuf := haloLegal_buffer hlegal
  dsimp only
  obtain hcount | hcount := Nat.lt_or_ge (s.haloCount p (fieldOf enc 1 1)) (fieldOf enc 12 4)
  · rw [State.serveInbound_waitQueued_short hj hrun hop hbuf hcount]
    refine ⟨fun hge => absurd hge (Nat.not_le.mpr hcount), fun _ => ⟨State.haloCount_waitQueued _, ?_⟩, ?_,
      fun l => State.onlyCore_waitQueued⟩
    · rw [State.core_waitQueued]; rfl
    · rw [State.core_waitQueued]
  · have hbuffer := State.lt_halo_length (haloLegal_waitBytes hlegal hwait) hcount
    rw [State.serveInbound_waitQueued_arrived hj hrun hop hbuf hcount]
    refine ⟨fun _ => ⟨?_, ?_⟩, fun hlt => absurd hcount (Nat.not_le.mpr hlt), ?_,
      fun l => State.onlyCore_waitTaken State.onlyCore_waitQueued _ _ _⟩
    · rw [State.haloCount_of_core (State.core_waitTaken ..), State.haloCount_waitQueued, State.core_waitQueued]
      simp [hbuffer, State.haloInbound]
    · rw [State.core_waitTaken]
    · rw [State.core_waitTaken, State.core_waitQueued]

end

/-- Settles O34: a PUT is one update of the core and the mesh; a WAIT is queued and at once served; an arrival is decided by the core's
program and by the size of its buffer. -/
theorem haloBytesArrive : Obligations.HaloBytesArrive := by
  unfold Obligations.HaloBytesArrive
  refine ⟨fun s p enc g j h hop hput hlegal hover hclear => ?put, fun s p enc g j h hop hwait hlegal hover hclear hin => ?wait,
    fun s core q g j hq => ⟨fun hrun => ?arriveWaits, fun hrun hbuf hfits hin hlen => ?arriveLands, fun hrun hover hj _ => ?arriveFaults⟩⟩
  case put =>
    exact ⟨_, exec_haloPut h hop hlegal hput hover hclear, rfl, State.core_setProg_same .., State.advanced_next .., rfl,
      fun q hq => State.core_setCore_other _ _ hq, fun o ho => State.reg_putF_other _ _ (by simpa using ho)⟩
  case wait =>
    obtain ⟨harrived, hshort, hscratch, hframe⟩ := State.haloWait_queued h hop hlegal hwait
    exact ⟨_, exec_haloWait h hop hlegal hwait hover hclear hin, harrived, hshort, hscratch, State.advanced_next ..,
      State.onlyCore_putF (hframe _) _ (by simp)⟩
  case arriveWaits => exact exec_haloDataArrive_waits hq hrun
  case arriveLands =>
    have hcore : (s.putLanded core (g.haloBuf q.buf) q).core core = _ := State.core_putLanded _
    refine ⟨_, by rw [exec_haloDataArrive_lands hq hrun, State.putLands_fits hbuf hfits hin], ?bytes, ?count, ?hit, rfl,
      fun p hp => State.core_putLanded_other _ hp, rfl⟩
    case bytes =>
      rw [State.scratch, hcore]
      exact storeGetRun_storeSetRun ..
    case count =>
      simp [State.haloCount, hcore, Core.landed, hlen]
    case hit => rw [hcore]; rfl
  case arriveFaults =>
    have hexec := exec_haloDataArrive_lands hq hrun
    rw [State.putLands_overflow hover] at hexec
    refine ⟨_, hexec, State.jobFault_faulted ?_ ..⟩
    exact hj

end Sys2Proof.Machine
end

section
/-! Tile instructions that fault or wait at issue (R138, R139, R141): every row of the table goes through the sequencer's issue with a
row of its own opcode, and the obligation of chapter 7 on it. -/

namespace Sys2Proof.Machine

open Sys2Proof

/-! ## Rows lie in the table (Table TP-4) -/

/-- The table has the instruction's opcode. -/
def opcodeKnown (enc : BitVec 256) : Prop := 1 ≤ fieldOf enc 0 1 ∧ fieldOf enc 0 1 ≤ 0xC

section
variable {enc : BitVec 256}

/-- A row that needs an opcode of the table is no row without it. -/
theorem opcodeKnown_of_row {c : Prop} [Decidable c] {n op : Nat} (hop : c → fieldOf enc 0 1 = op) (h1 : 1 ≤ op) (h2 : op ≤ 0xC)
    (h : (if c then n else 0) ≠ 0) : opcodeKnown enc := by
  have hc : c := Decidable.byContradiction fun hc => h (if_neg hc)
  rw [opcodeKnown, hop hc]
  exact ⟨h1, h2⟩

theorem opRow_known {op : Nat} (h1 : 1 ≤ op) (h2 : op ≤ 0xC) (h : opRow enc op ≠ 0) : opcodeKnown enc :=
  opcodeKnown_of_row id h1 h2 h

theorem vopRow_known (h : vopRow enc ≠ 0) : opcodeKnown enc :=
  opcodeKnown_of_row (fun hc => by simp at hc; exact hc.1) (by decide) (by decide) h

theorem sfuRow_known (h : sfuRow enc ≠ 0) : opcodeKnown enc :=
  opcodeKnown_of_row (fun hc => by simp at hc; exact hc.1) (by decide) (by decide) h

theorem attnRow_known (h : attnRow enc ≠ 0) : opcodeKnown enc := opcodeKnown_of_row id (by decide) (by decide) h

theorem haloRow_known (h : haloRow enc ≠ 0) : opcodeKnown enc :=
  opcodeKnown_of_row (fun hc => by simp at hc; exact hc.1) (by decide) (by decide) h

theorem collRow_known (h : collRow enc ≠ 0) : opcodeKnown enc :=
  opcodeKnown_of_row (fun hc => by simp at hc; exact hc.1) (by decide) (by decide) h

theorem syncRow_known (h : syncRow enc ≠ 0) : opcodeKnown enc :=
  opcodeKnown_of_row (fun hc => by simp at hc; exact hc.1) (by decide) (by decide) h

theorem State.convCode_known {s : State} {p : Nat} (h : s.convCode p enc ≠ 0) : opcodeKnown enc := by
  have hop : fieldOf enc 0 1 = 4 := Decidable.byContradiction fun hop => h (if_pos hop)
  simp [opcodeKnown, hop]

end

/-! ## Every row issues -/

/-- A command is an instruction at its core's sequencer: it does what its issue does, and its row has an opcode of the table. -/
def State.issues (s : State) (p : Nat) (enc : BitVec 256) (c : Instr) : Prop :=
  ∃ row judge body, exec c s = s.issue p enc c row judge body ∧ ∀ g j, (judge g j).row ≠ 0 → opcodeKnown enc

theorem State.issues_of_mem_tileCommands (s : State) (p : Nat) (enc : BitVec 256) : ∀ c ∈ tileCommands p enc, s.issues p enc c := by
  have op {c : Instr} {row n : Nat} {judge body} (h1 : 1 ≤ n) (h2 : n ≤ 0xC) (h : exec c s = s.issue p enc c row judge body)
      (hrow : ∀ g j, (judge g j).row = opRow enc n) : s.issues p enc c := ⟨_, _, _, h, fun g j hj => opRow_known h1 h2 (hrow g j ▸ hj)⟩
  have vop {c : Instr} {row : Nat} {body} (h : exec c s = s.issue p enc c row (fun g _ => vopJudge enc g) body) : s.issues p enc c :=
    ⟨_, _, _, h, fun _ _ => vopRow_known⟩
  have sfu {c : Instr} {row : Nat} {body} (h : exec c s = s.issue p enc c row (fun g _ => sfuJudge enc g) body) : s.issues p enc c :=
    ⟨_, _, _, h, fun _ _ => sfuRow_known⟩
  have coll {c : Instr} {row : Nat} {body} (h : exec c s = s.issue p enc c row (fun g _ => collJudge enc g) body) : s.issues p enc c :=
    ⟨_, _, _, h, fun _ _ => collRow_known⟩
  have conv {c : Instr} {row : Nat} {body} (h : exec c s = s.issue p enc c row (s.convJudge p enc) body) : s.issues p enc c :=
    ⟨_, _, _, h, fun _ _ => State.convCode_known⟩
  have sync {c : Instr} {row : Nat} {judge body} (h : exec c s = s.issue p enc c row judge body)
      (hrow : ∀ g j, (judge g j).row = syncRow enc) : s.issues p enc c := ⟨_, _, _, h, fun g j hj => syncRow_known (hrow g j ▸ hj)⟩
  simp only [tileCommands, List.forall_mem_cons]
  exact ⟨op (n := 1) (by decide) (by decide) rfl fun _ _ => rfl, op (n := 2) (by decide) (by decide) rfl fun _ _ => rfl,
    op (n := 3) (by decide) (by decide) rfl fun _ _ => rfl, conv rfl, conv rfl, conv rfl, conv rfl,
    vop rfl, vop rfl, vop rfl, vop rfl, vop rfl, vop rfl, vop rfl, vop rfl, vop rfl, vop rfl, vop rfl, vop rfl, vop rfl, vop rfl,
    vop rfl, vop rfl, vop rfl, vop rfl,
    sfu rfl, sfu rfl, sfu rfl, sfu rfl, sfu rfl, sfu rfl, sfu rfl, sfu rfl, sfu rfl, sfu rfl, sfu rfl,
    ⟨_, _, _, rfl, fun _ _ => attnRow_known⟩, ⟨_, _, _, rfl, fun _ _ => attnRow_known⟩,
    ⟨_, _, _, rfl, fun _ _ => haloRow_known⟩, ⟨_, _, _, rfl, fun _ _ => haloRow_known⟩,
    coll rfl, coll rfl, coll rfl, coll rfl, coll rfl,
    sync rfl fun _ _ => rfl, sync rfl fun _ _ => rfl, sync rfl fun _ _ => rfl, sync rfl fun _ _ => rfl,
    op (n := 0xB) (by decide) (by decide) rfl fun _ _ => rfl, op (n := 0xC) (by decide) (by decide) rfl fun _ _ => rfl,
    fun _ hc => by simp at hc⟩

/-! ## The families whose command depends on the operation -/

section
variable (s : State) (p : Nat) {enc : BitVec 256}

theorem exec_vopCommand (hop : fieldOf enc 0 1 = 5) (hle : vopOp enc ≤ 0x11) :
    ∃ body, exec (vopCommand p enc) s = s.issue p enc (vopCommand p enc) (vopRow enc) (fun g _ => vopJudge enc g) body := by
  have hrow : vopRow enc = 0x500 + vopOp enc := by simp [vopRow, hop, hle]
  rw [hrow, vopCommand]
  generalize vopOp enc = n at hle
  match n, hle with
  | 0, _ | 1, _ | 2, _ | 3, _ | 4, _ | 5, _ | 6, _ | 7, _ | 8, _ | 9, _ | 0xA, _ | 0xB, _ | 0xC, _ | 0xD, _ |
    0xE, _ | 0xF, _ | 0x10, _ | 0x11, _ => exact ⟨_, rfl⟩
  | n + 0x12, hbeyond => exact absurd hbeyond (by omega)

theorem exec_sfuCommand (hop : fieldOf enc 0 1 = 6) (hle : fieldOf enc 1 1 ≤ 9) :
    ∃ body, exec (sfuCommand p enc) s = s.issue p enc (sfuCommand p enc) (sfuRow enc) (fun g _ => sfuJudge enc g) body := by
  have hrow : sfuRow enc = 0x600 + fieldOf enc 1 1 := by simp [sfuRow, hop, Nat.le_succ_of_le hle]
  rw [hrow, sfuCommand]
  generalize fieldOf enc 1 1 = n at hle
  match n, Nat.lt_succ_of_le hle with
  | 0, _ | 1, _ | 2, _ | 3, _ | 4, _ | 5, _ | 6, _ | 7, _ | 8, _ | 9, _ => exact ⟨_, rfl⟩

theorem exec_collCommand (hop : fieldOf enc 0 1 = 9) (hlt : collOp enc < 5) :
    ∃ body, exec (collCommand p enc) s = s.issue p enc (collCommand p enc) (collRow enc) (fun g _ => collJudge enc g) body := by
  have hrow : collRow enc = 0x900 + collOp enc := if_pos (by simp [hop, show fieldOf enc 1 1 < 5 from hlt])
  rw [hrow, collCommand]
  generalize collOp enc = n at hlt
  match n, hlt with
  | 0, _ | 1, _ | 2, _ | 3, _ | 4, _ => exact ⟨_, rfl⟩

end

/-! ## The obligation -/

section
variable {s : State} {p : Nat} {enc : BitVec 256} {c : Instr} {g : Program} {j : Job} {row : Nat} {judge : Program → Job → Judged}
  {body : Program → Job → TileRes} (h : s.fetched p enc g j) (hexec : exec c s = s.issue p enc c row judge body)
include h hexec

theorem State.faulted_of_illegal (hrow : (judge g j).row = 0 ∨ (judge g j).row = row)
    (hbad : (judge g j).row = 0 ∨ (judge g j).legal = false) :
    Completes (exec c s) fun t => t.faulted j Code.ILLEGAL_INSTRUCTION
      (detailWord Code.ILLEGAL_INSTRUCTION (s.getF (F.JOB_CORE_PROGRAM_NEXT p)) 0 (s.getF (F.JOB_CORE_STATUS_LOGICAL p))) :=
  ⟨_, hexec.trans (State.issue_illegal h hrow hbad), State.jobFault_faulted (State.fetched_jobOf h) ..⟩

theorem State.faulted_of_overflow {k : Nat} (hover : judge g j = ⟨row, true, k⟩) (hrow : row ≠ 0) (hk : k ≠ 0) :
    Completes (exec c s) fun t => t.faulted j Code.RESOURCE_OVERFLOW
      (detailWord Code.RESOURCE_OVERFLOW (s.getF (F.JOB_CORE_PROGRAM_NEXT p)) k (s.getF (F.JOB_CORE_STATUS_LOGICAL p))) :=
  ⟨_, hexec.trans (State.issue_over h hover hrow hk), State.jobFault_faulted (State.fetched_jobOf h) ..⟩

end

/-- Settles O26: every command of the table is an issue, so the ends of the fetch and an unknown opcode are settled once for all of
them; an encoding that is not legal and a limit that is broken, once for each family named. -/
theorem instructionsIssueInOrder : Obligations.InstructionsIssueInOrder := by
  unfold Obligations.InstructionsIssueInOrder
  refine ⟨?fetch, ?opcode, ?illegal, ?overflow⟩
  case fetch =>
    intro s p enc c g j hc hp hg hj hlive
    obtain ⟨row, judge, body, hexec, -⟩ := s.issues_of_mem_tileCommands p enc c hc
    have hfault := State.jobFault_faulted (State.uid_of_jobOf hj ▸ hj : s.jobOf j.uid = some j)
    exact ⟨fun hpre => hexec.trans (State.issue_preempted hp hg hj hlive hpre),
      fun hrun _ hn => ⟨_, hexec.trans (State.issue_pastCount hp hg hj hlive hrun hn), hfault ..⟩,
      fun hrun hn hf => hexec.trans (State.issue_unreadable hp hg hj hlive hrun hn hf),
      fun _ hrun _ hn hf => ⟨_, hexec.trans (State.issue_unmapped hp hg hj hlive hrun hn hf), hfault ..⟩⟩
  case opcode =>
    intro s p enc c g j hc h _ hop
    obtain ⟨row, judge, body, hexec, hknown⟩ := s.issues_of_mem_tileCommands p enc c hc
    have hrow : (judge g j).row = 0 := Decidable.byContradiction fun hrow => by
      obtain ⟨hlow, hhigh⟩ := hknown g j hrow
      omega
    exact State.faulted_of_illegal h hexec (.inl hrow) (.inl hrow)
  case illegal =>
    rintro s p enc c g j h - (⟨hop, rfl, hbad⟩ | ⟨hop, rfl, hbad⟩ | ⟨hop, rfl, hbad⟩ | ⟨hop, hle, rfl, hbad⟩ | ⟨hop, hle, rfl, hbad⟩ |
      ⟨hop, hlt, rfl, hbad⟩)
    · exact State.faulted_of_illegal h rfl (.inr (if_pos hop)) (.inr hbad)
    · exact State.faulted_of_illegal h rfl (.inr (if_pos hop)) (.inr hbad)
    · exact State.faulted_of_illegal h rfl (.inr (if_pos hop)) (.inr hbad)
    · obtain ⟨body, hexec⟩ := exec_vopCommand s p hop hle
      exact State.faulted_of_illegal h hexec (.inr rfl) (.inr hbad)
    · obtain ⟨body, hexec⟩ := exec_sfuCommand s p hop hle
      exact State.faulted_of_illegal h hexec (.inr rfl) (.inr hbad)
    · obtain ⟨body, hexec⟩ := exec_collCommand s p hop hlt
      exact State.faulted_of_illegal h hexec (.inr rfl) (.inr hbad)
  case overflow =>
    rintro s p enc c g j k h - hk (⟨hop, rfl, hlegal, hover⟩ | ⟨hop, hle, rfl, hlegal, hover⟩ | ⟨hop, hle, rfl, hlegal, hover⟩)
    · exact State.faulted_of_overflow h rfl (by simp [loadJudge, opRow, hop, hlegal, hover]) (by decide) hk
    · obtain ⟨body, hexec⟩ := exec_vopCommand s p hop hle
      exact State.faulted_of_overflow h hexec (by simp [vopJudge, hlegal, hover]) (by simp [vopRow, hop, hle]) hk
    · obtain ⟨body, hexec⟩ := exec_sfuCommand s p hop hle
      exact State.faulted_of_overflow h hexec (by simp [sfuJudge, hlegal, hover]) (by simp [sfuRow, hop, Nat.le_succ_of_le hle]) hk

end Sys2Proof.Machine
end

section
/-! Rows of elements (Tables NUM-1 and NUM-3): how many elements a stored row decodes into, how many bytes a delivered row takes, and
the flags of a row of results. -/

namespace Sys2Proof.Machine

open Sys2Proof

/-! ## Folds -/

section
variable {σ α β : Type} {f : σ → α → σ}

/-- What no step of a fold changes is at its end as at its start. -/
theorem foldl_kept (obs : σ → β) {l : List α} (h : ∀ x ∈ l, ∀ t, obs (f t x) = obs t) (s : σ) : obs (l.foldl f s) = obs s :=
  List.foldlRecOn (motive := fun t => obs t = obs s) l f rfl fun t ht x hx => (h x hx t).trans ht

/-- What one step of a fold sets and the other steps leave alone is as that step set it. -/
theorem foldl_written (obs : σ → β) {l : List α} {x : α} {v : β} (hx : x ∈ l) (hset : ∀ t, obs (f t x) = v)
    (hkeep : ∀ y ∈ l, y ≠ x → ∀ t, obs (f t y) = obs t) (s : σ) : obs (l.foldl f s) = v := by
  obtain ⟨before, after, rfl⟩ := List.append_of_mem hx
  rw [List.foldl_append, List.foldl_cons]
  refine List.foldlRecOn (motive := fun t => obs t = v) after f (hset _) fun t ht y hy => ?_
  by_cases hyx : y = x
  · rw [hyx, hset]
  · rw [hkeep y (by simp [hy]) hyx, ht]

/-- A measure that every step of a fold raises by `c`. -/
theorem foldl_grows (obs : σ → Nat) {l : List α} {c : Nat} (h : ∀ x ∈ l, ∀ t, obs (f t x) = obs t + c) (s : σ) :
    obs (l.foldl f s) = obs s + l.length * c := by
  induction l generalizing s with
  | nil => simp
  | cons x l ih =>
    rw [List.foldl_cons, ih fun y hy => h y (by simp [hy]), h x (by simp), List.length_cons, Nat.succ_mul]
    omega

end

/-! ## Pieces of a list -/

section
variable {α : Type} (k n : Nat) (l : List α)

@[simp] theorem length_chunk : (chunk k n l).length = n := by
  induction n generalizing l with
  | zero => rfl
  | succ n ih => simp [chunk, ih]

/-- Pieces of two, the last perhaps of one. -/
theorem chunk_two_pieces {l : List α} (h : 2 * n ≤ l.length + 1) : ∀ p ∈ chunk 2 n l, (∃ x, p = [x]) ∨ ∃ x y, p = [x, y] := by
  induction n generalizing l with
  | zero => simp [chunk]
  | succ n ih =>
    match l, h with
    | [], h => simp only [List.length_nil] at h; omega
    | [x], h =>
      obtain rfl : n = 0 := by simp only [List.length_singleton] at h; omega
      simp [chunk]
    | x :: y :: l, h =>
      have hl : 2 * n ≤ l.length + 1 := by simp only [List.length_cons] at h; omega
      simpa [chunk] using ih hl

end

theorem length_flatten_of_equal {α : Type} {l : List (List α)} {c : Nat} (h : ∀ x ∈ l, x.length = c) :
    l.flatten.length = l.length * c := by
  induction l with
  | nil => rw [List.flatten_nil, List.length_nil, List.length_nil, Nat.zero_mul]
  | cons x l ih =>
    rw [List.flatten_cons, List.length_append, h x List.mem_cons_self, ih fun y hy => h y (List.mem_cons_of_mem x hy), List.length_cons,
      Nat.succ_mul, Nat.add_comm]

theorem length_flatMap_of_equal {α β : Type} {f : α → List β} {l : List α} {c : Nat} (h : ∀ x ∈ l, (f x).length = c) :
    (l.flatMap f).length = l.length * c := by
  rw [List.flatMap_def, length_flatten_of_equal (List.forall_mem_map.mpr h), List.length_map]

@[simp] theorem length_leBytes (n v : Nat) : (leBytes n v).length = n := by
  induction n generalizing v with
  | zero => rfl
  | succ n ih => simp [leBytes, ih]

@[simp] theorem length_wordsOf (bs : List Byte) : (wordsOf bs).length = bs.length / 4 := by simp [wordsOf]

theorem length_words (ws : List Nat) : (ws.flatMap (leBytes 4)).length = 4 * ws.length := by
  rw [length_flatMap_of_equal fun w _ => length_leBytes 4 w, Nat.mul_comm]

/-! ## Elements of a stored row -/

/-- A format whose rows hold `n` elements: one of Table NUM-1, and `n` whole blocks where it is a block format (R101). -/
def rowFits (c n : Nat) : Prop := (fmtOf c).isSome = true ∧ (isBlockFmt c = true → n % 32 = 0)

theorem length_decodeBlock (f : FloatFmt) (eb scale sub elems : Nat) : (decodeBlock f eb scale sub elems).length = 32 := by
  simp [decodeBlock]

theorem length_decodeBlocks (f : FloatFmt) (eb : Nat) (qf4 : Bool) (blocks : Nat) (bs : List Byte) :
    32 * blocks ≤ (decodeBlocks f eb qf4 blocks bs).length := by
  unfold decodeBlocks
  split
  · rw [length_flatten_of_equal (c := 64)]
    · simp only [List.length_map, List.length_zipIdx, length_chunk]
      omega
    · simp only [List.forall_mem_map]
      intro x _
      split <;> simp [length_decodeBlock]
  · rw [length_flatten_of_equal (c := 32)]
    · simp only [List.length_map, length_chunk]
      omega
    · simp [length_decodeBlock]

theorem length_decodeRow {c n : Nat} (h : (fmtOf c).isSome = true) (bs : List Byte) : (decodeRow c n bs).length = n := by
  unfold decodeRow
  split
  · simp
  · simp
  case h_3 f eb q _ =>
    have hlen := length_decodeBlocks f eb q ((n + 31) / 32) bs
    rw [List.length_take]
    omega
  case h_4 hnone => simp [hnone] at h

/-! ## Bytes of a delivered row -/

@[simp] theorem tally_bytes (l : List Deliver) (bs : List Byte) : (tally l bs).bytes = bs := by
  rw [tally, foldl_kept Delivered.bytes]
  exact fun _ _ _ => rfl

@[simp] theorem length_packElems (eb : Nat) (l : List Deliver) : (packElems eb l).length = 4 * eb := by simp [packElems]

theorem length_quantRow_pairs (f : FloatFmt) (mode : Rounding) (us : List Nat) (vs : List FV) :
    (quantRow f 4 true mode us vs).bytes.length = (vs.length / 32 + 1) / 2 * 35 := by
  simp only [quantRow, if_true]
  rw [foldl_grows (fun d : Delivered => d.bytes.length) (c := 35)]
  · simp [deliveredNil]
  · intro p hp a
    have hcut := chunk_two_pieces ((vs.length / 32 + 1) / 2) (by simp only [List.length_map, List.length_zip, length_chunk, Nat.min_self]; omega) p hp
    obtain ⟨x, rfl⟩ | ⟨x, y, rfl⟩ := hcut <;> simp [deliveredAppend]

theorem length_quantRow_blocks (f : FloatFmt) (eb : Nat) (mode : Rounding) (us : List Nat) (vs : List FV) :
    (quantRow f eb false mode us vs).bytes.length = vs.length / 32 * (1 + 4 * eb) := by
  simp only [quantRow, Bool.false_eq_true, if_false]
  rw [foldl_grows (fun d : Delivered => d.bytes.length) (c := 1 + 4 * eb)]
  · simp [deliveredNil]
  · intro p _ a
    simp [deliveredAppend, Nat.add_comm]

theorem fmtOf_block {c eb : Nat} {f : FloatFmt} {q : Bool} (h : fmtOf c = some (.block f eb q)) :
    isBlockFmt c = true ∧ (q = true → eb = 4) := by
  unfold fmtOf at h
  split at h <;> cases h <;> decide

/-- A delivered row takes the bytes of Table NUM-3. -/
theorem length_convertRow {dst : Nat} {us : List Nat} {vs : List FV} (hfits : rowFits dst vs.length) (hus : us.length = vs.length)
    (src : Nat) (mode : Rounding) (nonsat : Bool) : (convertRow src dst mode nonsat us vs).bytes.length = rowBytes dst vs.length := by
  obtain ⟨hfmt, hblocks⟩ := hfits
  unfold convertRow rowBytes
  cases hkind : fmtOf dst with
  | none => simp [hkind] at hfmt
  | some kind =>
    cases kind with
    | scalar f b =>
      simp only [tally_bytes]
      rw [length_flatten_of_equal (c := b) (by simp only [List.forall_mem_map, length_leBytes, implies_true])]
      simp [hus]
    | integer w =>
      simp only [tally_bytes]
      rw [length_flatten_of_equal (c := w / 8) (by simp)]
      simp
    | block f eb q =>
      obtain ⟨hblock, hquarter⟩ := fmtOf_block hkind
      have hwhole : (vs.length + 31) / 32 = vs.length / 32 := by have := hblocks hblock; omega
      cases q with
      | false => simp only [length_quantRow_blocks, List.length_map, hwhole]
      | true =>
        obtain rfl := hquarter rfl
        simp only [length_quantRow_pairs, List.length_map, hwhole]

/-! ## Flags of a row of results -/

theorem bit_or_flags (a b : Flags) (i : Nat) : bit (a ||| b).toNat i = (bit a.toNat i || bit b.toNat i) := by
  rw [BitVec.toNat_or, bit_eq_testBit, bit_eq_testBit, bit_eq_testBit, Nat.testBit_or]

theorem bit_flags_foldl {α : Type} (fl : α → Flags) (l : List α) (a : Flags) (i : Nat) :
    bit (l.foldl (fun a x => a ||| fl x) a).toNat i = (bit a.toNat i || l.any fun x => bit (fl x).toNat i) := by
  induction l generalizing a with
  | nil => simp
  | cons x l ih => rw [List.foldl_cons, ih, bit_or_flags, List.any_cons, Bool.or_assoc]

/-- A row of results raises what one of them raises. -/
theorem bit_flags_collect (l : List (Nat × Flags)) (i : Nat) : bit (collect l).2.toNat i = l.any fun x => bit x.2.toNat i := by
  rw [collect, bit_flags_foldl]
  simp [bit]

@[simp] theorem length_collect (l : List (Nat × Flags)) : (collect l).1.length = l.length := by simp [collect]

@[simp] theorem length_widenRow (vs : List FV) : (widenRow vs).1.length = vs.length := by simp [widenRow]

end Sys2Proof.Machine
end

section
/-! Results of the vector and special-function units: runs of a core's two stores written and read, rows of an operand written, and what
the units' flags and busy cycles read as after they are counted (R92, R95). -/

namespace Sys2Proof.Machine

open Sys2Proof

/-! ## A core's two stores -/

/-- The scratchpad and the accumulator file of a core. -/
def State.stores (s : State) (p : Nat) : Store Byte × Store Byte := ((s.core p).scratch, (s.core p).acc)

theorem State.runAt_of_stores {s t : State} {p : Nat} (h : t.stores p = s.stores p) (acc : Bool) (a n : Nat) :
    t.runAt p acc a n = s.runAt p acc a n := by
  obtain ⟨hscratch, hacc⟩ := Prod.ext_iff.mp h
  cases acc
  · exact congrArg (storeGetRun zeroByte · a n) hscratch
  · exact congrArg (storeGetRun zeroByte · a n) hacc

section
variable (s : State) (p : Nat)

theorem State.stores_addFlags (e : Nat) (f : Flags) : (s.addFlags p e f).stores p = s.stores p := rfl

theorem State.stores_vecBusy (n : Nat) : (s.vecBusy p n).stores p = s.stores p := rfl

theorem State.stores_putF (f : Fld) (v : Nat) : (s.putF f v).stores p = s.stores p := rfl

theorem State.stores_addDelivered (e : Nat) (d : Delivered) : (s.addDelivered p e d).stores p = s.stores p := by
  simp [State.stores, State.addDelivered, State.addCounts]

theorem length_runAt (acc : Bool) (a n : Nat) : (s.runAt p acc a n).length = n := by
  unfold State.runAt
  split <;> simp [State.accBytes, State.scratch, storeGetRun]

theorem State.rowAt_eq_runAt (d : Rows) (i : Nat) : s.rowAt p d i = s.runAt p d.acc (d.addr + i * d.stride) d.bytes := rfl

@[simp] theorem length_rowAt (d : Rows) (i : Nat) : (s.rowAt p d i).length = d.bytes := length_runAt ..

theorem storeGetRun_storeSetRun_out {α : Type} [DecidableEq α] (d : Nat → α) (st : Store α) {k j n : Nat} {vs : List α}
    (h : j + n ≤ k ∨ k + vs.length ≤ j) : storeGetRun d (storeSetRun d st k vs) j n = storeGetRun d st j n := by
  refine List.map_congr_left fun i hi => ?_
  have hin : i < n := List.mem_range.mp hi
  rw [storeGet_storeSetRun, dif_neg (by omega)]

theorem State.runAt_setStore_same (acc : Bool) (a : Nat) (bs : List Byte) :
    (s.setStore p acc a bs).runAt p acc a bs.length = bs := by
  cases acc with
  | false => simp [State.runAt, State.setStore, State.scratch, State.setScratch, storeGetRun_storeSetRun]
  | true => simp [State.runAt, State.setStore, State.accBytes, State.setAcc, storeGetRun_storeSetRun]

/-- A run of another store, or clear of the bytes written, reads as before. -/
theorem State.runAt_setStore_out {acc other : Bool} {a b n : Nat} {bs : List Byte}
    (h : other = acc → b + n ≤ a ∨ a + bs.length ≤ b) : (s.setStore p acc a bs).runAt p other b n = s.runAt p other b n := by
  match acc, other with
  | false, false => simp [State.runAt, State.setStore, State.scratch, State.setScratch, storeGetRun_storeSetRun_out _ _ (h rfl)]
  | true, true => simp [State.runAt, State.setStore, State.accBytes, State.setAcc, storeGetRun_storeSetRun_out _ _ (h rfl)]
  | false, true => simp [State.runAt, State.setStore, State.accBytes, State.setScratch]
  | true, false => simp [State.runAt, State.setStore, State.scratch, State.setAcc]

theorem State.reg_setStore (acc : Bool) (a : Nat) (bs : List Byte) (o : Nat) : (s.setStore p acc a bs).reg o = s.reg o := by
  cases acc <;> rfl

end

/-! ## Rows of an operand -/

/-- Of two rows of an operand whose rows lie apart, one ends before the other begins. -/
theorem Rows.rows_clear {d : Rows} (h : d.apart) {i k : Nat} (hi : i < d.rows) (hk : k < d.rows) (hne : i ≠ k) :
    d.addr + i * d.stride + d.bytes ≤ d.addr + k * d.stride ∨ d.addr + k * d.stride + d.bytes ≤ d.addr + i * d.stride := by
  have hstride : d.bytes ≤ d.stride := h.resolve_right (by omega)
  obtain hlt | hlt := Nat.lt_or_gt_of_ne hne
  · have := Nat.mul_le_mul_right d.stride (Nat.succ_le_of_lt hlt)
    rw [Nat.succ_mul] at this
    omega
  · have := Nat.mul_le_mul_right d.stride (Nat.succ_le_of_lt hlt)
    rw [Nat.succ_mul] at this
    omega

/-- A row ends at the operand's end or before. -/
theorem Rows.row_le_stop {d : Rows} {i : Nat} (hi : i < d.rows) (hbytes : d.bytes ≠ 0) :
    d.addr + i * d.stride + d.bytes ≤ d.stop := by
  have := Nat.mul_le_mul_right d.stride (Nat.le_sub_one_of_lt hi)
  rw [Rows.stop, rowsEnd, if_neg (by simp only [Bool.or_eq_true, decide_eq_true_eq]; omega)]
  omega

/-- Of rows of two operands of one store that do not meet, one ends before the other begins. -/
theorem Rows.rows_clear_of_not_overlaps {d b : Rows} (h : d.overlaps b = false) (hacc : d.acc = b.acc) {i k : Nat} (hi : i < d.rows)
    (hk : k < b.rows) (hd : d.bytes ≠ 0) (hb : b.bytes ≠ 0) :
    d.addr + i * d.stride + d.bytes ≤ b.addr + k * b.stride ∨ b.addr + k * b.stride + b.bytes ≤ d.addr + i * d.stride := by
  have hdstop := Rows.row_le_stop hi hd
  have hbstop := Rows.row_le_stop hk hb
  simp only [Rows.overlaps, rangesMeet, hacc, beq_self_eq_true, Bool.true_and, Bool.and_eq_false_iff, decide_eq_false_iff_not] at h
  omega

section
variable (s : State) (p : Nat) (d : Rows) (bs : List (List Byte))

theorem State.reg_writeRows (o : Nat) : (s.writeRows p d bs).reg o = s.reg o :=
  foldl_kept (fun t : State => t.reg o) (fun _ _ t => t.reg_setStore ..) s

theorem State.onlyCore_writeRows {s t : State} {p : Nat} {l : List Nat} (h : s.onlyCore t p l) : s.onlyCore (t.writeRows p d bs) p l :=
  List.foldlRecOn (motive := fun u => s.onlyCore u p l) _ _ h fun _ hu _ _ => State.onlyCore_setStore hu ..

variable {d bs} in
/-- Rows that lie apart, each as long as its operand says, are read back as written, and nothing else of the stores changes. -/
theorem State.rowsSet_writeRows (hrows : bs.length = d.rows) (hbytes : ∀ b ∈ bs, b.length = d.bytes) (hapart : d.apart) :
    s.rowsSet (s.writeRows p d bs) p d bs := by
  have hindex {b : List Byte} {i : Nat} (hb : (b, i) ∈ bs.zipIdx) : i < d.rows ∧ b.length = d.bytes ∧ bs[i]? = some b := by
    have hget := List.mk_mem_zipIdx_iff_getElem?.mp hb
    exact ⟨hrows ▸ (List.getElem?_eq_some_iff.mp hget).1, hbytes b (List.mem_of_getElem? hget), hget⟩
  constructor
  · intro k hk
    have hget : bs[k]? = some bs[k] := List.getElem?_eq_getElem (hrows ▸ hk)
    rw [List.getD_eq_getElem?_getD, hget, Option.getD_some]
    refine foldl_written (fun t : State => t.runAt p d.acc (d.addr + k * d.stride) d.bytes) (List.mk_mem_zipIdx_iff_getElem?.mpr hget)
      (fun t => ?_) (fun y hy hne t => ?_) s
    · rw [← hbytes _ (List.mem_of_getElem? hget)]
      exact State.runAt_setStore_same ..
    · obtain ⟨b, i⟩ := y
      obtain ⟨hi, hlen, hb⟩ := hindex hy
      have hik : i ≠ k := by rintro rfl; exact hne (by rw [Option.some.inj (hb.symm.trans hget)])
      exact State.runAt_setStore_out _ _ fun _ => hlen ▸ (Rows.rows_clear hapart hi hk hik).symm
  · intro acc a hclear
    refine foldl_kept (fun t : State => t.runAt p acc a 1) (fun y hy t => ?_) s
    obtain ⟨b, i⟩ := y
    obtain ⟨hi, hlen, -⟩ := hindex hy
    exact State.runAt_setStore_out _ _ fun hacc => hlen ▸ (hclear hacc i hi)

/-- Rows written are seen alike from states with the same stores. -/
theorem State.rowsSet_of_stores {s s' t t' : State} {p : Nat} {d : Rows} {bs : List (List Byte)} (h : s.rowsSet t p d bs)
    (hs : s.stores p = s'.stores p) (ht : t'.stores p = t.stores p) : s'.rowsSet t' p d bs := by
  obtain ⟨hset, hkept⟩ := h
  refine ⟨fun i hi => ?_, fun acc a hclear => ?_⟩
  · rw [State.runAt_of_stores ht, hset i hi]
  · rw [State.runAt_of_stores ht, hkept acc a hclear, State.runAt_of_stores hs]

end

/-! ## Flags and busy cycles -/

section
variable (s : State) (p : Nat)

/-- Each engine's flags are four bits of a core's flag word (R92). -/
theorem State.bit_engineFlags_addFlags (e : Nat) (f : Flags) {i : Nat} (hi : i < 32) :
    bit ((s.addFlags p e f).reg (R.JOB_CORE_FLAGS p)).toNat i =
      (bit (s.reg (R.JOB_CORE_FLAGS p)).toNat i || (decide (4 * e ≤ i ∧ i < 4 * e + 4) && bit f.toNat (i - 4 * e))) := by
  have hpow : 16 ^ e = 2 ^ (4 * e) := by rw [Nat.pow_mul]
  have hshift : (f.toNat * 16 ^ e).testBit i = (decide (4 * e ≤ i ∧ i < 4 * e + 4) && f.toNat.testBit (i - 4 * e)) := by
    rw [hpow, Nat.testBit_mul_two_pow]
    by_cases hlo : 4 * e ≤ i
    · by_cases hhi : i < 4 * e + 4
      · simp [hlo, hhi]
      · have hlt : f.toNat < 2 ^ (i - 4 * e) := Nat.lt_of_lt_of_le f.isLt (Nat.pow_le_pow_right (by decide) (by omega))
        simp [hhi, Nat.testBit_lt_two_pow hlt]
    · simp [hlo]
  simp only [State.addFlags, State.reg_setReg_same, bit_eq_testBit, BitVec.toNat_ofNat, Nat.testBit_mod_two_pow, hi, decide_true,
    Bool.true_and, ← hshift]
  exact Nat.testBit_or ..

/-- Flags added one after another. -/
theorem State.bit_engineFlags_foldl {α : Type} (e : Nat) (fl : α → Flags) (l : List α) {i : Nat} (hi : i < 32) :
    bit ((l.foldl (fun t x => t.addFlags p e (fl x)) s).reg (R.JOB_CORE_FLAGS p)).toNat i =
      (bit (s.reg (R.JOB_CORE_FLAGS p)).toNat i ||
        (decide (4 * e ≤ i ∧ i < 4 * e + 4) && l.any fun x => bit (fl x).toNat (i - 4 * e))) := by
  induction l generalizing s with
  | nil => simp
  | cons x l ih =>
    rw [List.foldl_cons, ih, State.bit_engineFlags_addFlags _ _ _ _ hi, List.any_cons, Bool.and_or_distrib_left, Bool.or_assoc]

theorem State.getP_addP (lo n : Nat) : (s.addP lo n).getP lo = (s.getP lo + n) % 2 ^ 64 := by
  have hlo : (s.addP lo n).reg lo = BitVec.ofNat 32 (s.getP lo + n) := by
    simp [State.addP, State.putP, State.reg_setReg]
  have hhi : (s.addP lo n).reg (lo + 4) = BitVec.ofNat 32 ((s.getP lo + n) / 2 ^ 32) := by
    simp [State.addP, State.putP]
  simp only [State.getP, hlo, hhi, BitVec.toNat_ofNat]
  omega

/-- Busy cycles are counted in their own pair of registers. -/
theorem State.reg_vecBusy (n : Nat) {o : Nat} (hlo : o ≠ P.JOB_CORE_VEC_BUSY p) (hhi : o ≠ P.JOB_CORE_VEC_BUSY p + 4) :
    (s.vecBusy p n).reg o = s.reg o := by
  rw [State.vecBusy, State.addP, State.putP, State.reg_setReg_other _ _ hhi, State.reg_setReg_other _ _ hlo]

theorem State.getP_of_reg {s t : State} {lo : Nat} (hlo : t.reg lo = s.reg lo) (hhi : t.reg (lo + 4) = s.reg (lo + 4)) :
    t.getP lo = s.getP lo := by
  rw [State.getP, State.getP, hlo, hhi]

theorem State.onlyCore_addFlags {s t : State} {p : Nat} {l : List Nat} (h : s.onlyCore t p l) (e : Nat) (f : Flags)
    (hl : R.JOB_CORE_FLAGS p ∈ l) : s.onlyCore (t.addFlags p e f) p l := State.onlyCore_setReg h _ hl

theorem State.onlyCore_ite {s t u : State} {p : Nat} {l : List Nat} (c : Prop) [Decidable c] (h : s.onlyCore t p l)
    (k : s.onlyCore u p l) : s.onlyCore (if c then t else u) p l := by split <;> assumption

end

end Sys2Proof.Machine
end

section
/-! Vector operations (Tables VEC-1 and VEC-6, R160, R161): what a row of A and of B reads as, how long a result row is, what delivering
it changes, and the obligation of chapter 9 on the operations but the soft maximum. -/

namespace Sys2Proof.Machine

open Sys2Proof

/-! ## What a legal VOP fulfils -/

section
variable {enc : BitVec 256} (hl : vopLegal enc = true)
include hl

/-- The conditions of R141 on a VOP's formats, mode, columns and operands. -/
theorem vopLegal_parts : fmtsOk [vopSrcFmt enc, vopDstFmt enc] = true ∧ (roundingOf (vopModes enc % 4)).isSome = true ∧
    1 ≤ vopCols enc ∧ ((isBlockFmt (vopSrcFmt enc) || isBlockFmt (vopDstFmt enc)) = true → vopCols enc % 32 = 0) ∧
    (isRowOp (vopOp enc) = true → vopDstFmt enc = 0 ∧ (vopD enc).overlaps (vopA enc) = false ∧
      ∀ b, vopB enc = some b → (vopD enc).overlaps b = false) := by
  simp only [vopLegal, Bool.and_eq_true, decide_eq_true_eq] at hl
  obtain ⟨⟨⟨⟨⟨⟨⟨⟨⟨hfmts, -⟩, hmode⟩, -⟩, hcols⟩, -⟩, -⟩, hblocks⟩, hrow⟩, -⟩ := hl
  refine ⟨hfmts, hmode, hcols, fun hblock => ?_, fun hop => ?_⟩
  · rw [hblock, Bool.not_true, Bool.false_or] at hblocks
    exact beq_iff_eq.mp hblocks
  · rw [hop, Bool.not_true, Bool.false_or, Bool.and_eq_true, Bool.and_eq_true] at hrow
    obtain ⟨⟨hfmt, hA⟩, hB⟩ := hrow
    refine ⟨beq_iff_eq.mp hfmt, (Bool.not_eq_true' _).mp hA, fun b hb => ?_⟩
    rw [hb] at hB
    exact (Bool.not_eq_true' _).mp hB

theorem vopCols_pos : 1 ≤ vopCols enc := (vopLegal_parts hl).2.2.1

theorem vopFmts_isFmt : (fmtOf (vopSrcFmt enc)).isSome = true ∧ (fmtOf (vopDstFmt enc)).isSome = true := by
  obtain ⟨hfmts, -⟩ := vopLegal_parts hl
  exact ⟨List.all_eq_true.mp hfmts _ (by simp), List.all_eq_true.mp hfmts _ (by simp)⟩

theorem vopSrc_isFmt : (fmtOf (vopSrcFmt enc)).isSome = true := (vopFmts_isFmt hl).1

theorem vopDst_fits : rowFits (vopDstFmt enc) (vopCols enc) := by
  obtain ⟨-, -, -, hblocks, -⟩ := vopLegal_parts hl
  exact ⟨(vopFmts_isFmt hl).2, fun hblock => hblocks (by rw [hblock, Bool.or_true])⟩

theorem vopMode_isSome : ∃ m, roundingOf (vopModes enc % 4) = some m :=
  Option.isSome_iff_exists.mp (vopLegal_parts hl).2.1

/-- A row operation delivers FP32, and its D meets neither source (R161). -/
theorem vopD_of_isRowOp (hop : isRowOp (vopOp enc) = true) :
    vopDstFmt enc = 0 ∧ (vopD enc).overlaps (vopA enc) = false ∧ ∀ b, vopB enc = some b → (vopD enc).overlaps b = false := by
  obtain ⟨-, -, -, -, hrow⟩ := vopLegal_parts hl
  exact hrow hop

end

/-! ## Rows read -/

section
variable (s : State) (p : Nat) {enc : BitVec 256}

theorem State.length_vopIn (h : (fmtOf (vopSrcFmt enc)).isSome = true) (x : Rows) (r : Nat) :
    (s.vopIn p enc x r).1.length = vopCols enc := by
  rw [State.vopIn, length_widenRow, length_decodeRow h]

/-- A B that is combined with A element by element has A's columns. -/
theorem State.length_vopBIn (h : (fmtOf (vopSrcFmt enc)).isSome = true) (hB : bShape (vopOp enc) = .row ∨ bShape (vopOp enc) = .perCol)
    (r : Nat) : (s.vopBIn p enc r).1.length = vopCols enc := by
  obtain hrow | hcol := hB
  · simp only [State.vopBIn, vopB, hrow, State.length_vopIn _ _ h]
  · simp [State.vopBIn, vopB, hcol, rowOne]

end

/-! ## Result rows -/

/-- FP32 words a VOP makes of a row. -/
def vopWords (enc : BitVec 256) : Nat := if isRowOp (vopOp enc) then rowOpWords (vopOp enc) (vopCols enc) else vopCols enc

theorem length_zipOp (op : Nat → Nat → Nat × Flags) {a b : List Nat} (h : b.length = a.length) : (zipOp op a b).1.length = a.length := by
  simp [zipOp, h]

theorem length_withWord (op : Nat → Nat → Nat × Flags) (w : Nat) (a : List Nat) : (withWord op w a).1.length = a.length := by
  simp [withWord]

theorem length_rowStat (scalar : Nat) (a : List Nat) : (rowStat scalar a).1.length = 3 := by
  unfold rowStat
  split <;> rfl

theorem length_vopResult {enc : BitVec 256} (hop : vopOp enc < 0x10) {a b : List Nat} (ha : a.length = vopCols enc)
    (hb : bShape (vopOp enc) = .row ∨ bShape (vopOp enc) = .perCol → b.length = vopCols enc) :
    (vopResult enc a b).1.length = vopWords enc := by
  rw [← ha] at hb
  unfold vopResult vopWords
  rw [← ha]
  generalize vopOp enc = n at hop hb
  match n, hop with
  | 1, _ | 2, _ | 3, _ | 4, _ | 5, _ | 6, _ => exact length_zipOp _ (hb (.inl rfl))
  | 0xA, _ | 0xB, _ => exact length_zipOp _ (hb (.inr rfl))
  | 7, _ | 8, _ | 9, _ => exact length_withWord ..
  | 0, _ | 0xF, _ => simp [collect, normRow, isRowOp]
  | 0xC, _ | 0xD, _ => rfl
  | 0xE, _ => exact length_rowStat ..
  | n + 0x10, hbeyond => exact absurd hbeyond (by omega)

/-! ## Delivery (R160) -/

theorem length_lfsrDraws (n x : Nat) : (lfsrDraws n x).1.length = n := by
  induction n generalizing x with
  | zero => rfl
  | succ n ih => simp [lfsrDraws, ih]

theorem roundingOf_sr {mode : Nat} (h : roundingOf mode = some .sr) : mode = 2 := by
  unfold roundingOf at h
  split at h
  · cases h
  · cases h
  · rfl
  · cases h

/-- A conversion of a row: one draw an element, and a state that differs at most in the generator, by stochastic rounding alone (R105). -/
theorem State.convRow_cases (s : State) (p src dst : Nat) {mode : Nat} {m : Rounding} (hmode : roundingOf mode = some m) (ovr : Nat)
    (vs : List FV) : ∃ us, us.length = vs.length ∧ (s.convRow p src dst mode ovr vs).1 = convertRow src dst m (ovr == 1) us vs ∧
      ((s.convRow p src dst mode ovr vs).2 = s ∨
        mode = 2 ∧ ∃ v, (s.convRow p src dst mode ovr vs).2 = s.putF (F.JOB_CORE_LFSR_STATE p) v) := by
  unfold State.convRow
  rw [hmode]
  split
  case h_1 hsr =>
    obtain rfl : m = .sr := Option.some.inj hsr
    split
    · exact ⟨_, length_lfsrDraws .., rfl, .inr ⟨roundingOf_sr hmode, _, rfl⟩⟩
    · exact ⟨_, List.length_map .., rfl, .inl rfl⟩
  case h_2 k _ hk =>
    obtain rfl : m = k := Option.some.inj hk
    exact ⟨_, List.length_map .., rfl, .inl rfl⟩
  case h_3 hnone => exact absurd hnone nofun

/-- Registers that a VOP's results may change: flags, and under stochastic rounding the generator. -/
def vopResultRegs (p : Nat) (enc : BitVec 256) : List Nat :=
  R.JOB_CORE_FLAGS p :: if vopModes enc % 4 = 2 then [(F.JOB_CORE_LFSR_STATE p).off] else []

theorem vecBusy_not_vopResultRegs (p : Nat) (enc : BitVec 256) :
    P.JOB_CORE_VEC_BUSY p ∉ vopResultRegs p enc ∧ P.JOB_CORE_VEC_BUSY p + 4 ∉ vopResultRegs p enc := by
  unfold vopResultRegs
  split
  · simp only [List.mem_cons, List.not_mem_nil, or_false, P.JOB_CORE_VEC_BUSY, R.JOB_CORE_FLAGS, F.JOB_CORE_LFSR_STATE]
    omega
  · simp only [List.mem_cons, List.not_mem_nil, or_false, P.JOB_CORE_VEC_BUSY, R.JOB_CORE_FLAGS]
    omega

section
variable (s : State) (p : Nat) {enc : BitVec 256}

/-- FP32 is delivered as it is. -/
theorem State.vopOut_fp32 (h : vopDstFmt enc = 0) (ws : List Nat) (fl : Flags) :
    s.vopOut p enc ws fl = (ws.flatMap (leBytes 4), s.addFlags p 1 fl) := by
  simp [State.vopOut, h]

variable (hl : vopLegal enc = true)
include hl

theorem State.length_vopOut {ws : List Nat} (hws : ws.length = vopWords enc) (fl : Flags) :
    (s.vopOut p enc ws fl).1.length = (vopD enc).bytes := by
  by_cases hfmt : vopDstFmt enc = 0
  · rw [State.vopOut_fp32 _ _ hfmt, length_words, hws, vopWords, vopD, hfmt]
    split <;> simp [rowBytes, fmtOf, Nat.mul_comm]
  · have hrow : isRowOp (vopOp enc) = false := Bool.eq_false_iff.mpr fun hrow => hfmt (vopD_of_isRowOp hl hrow).1
    have hcols : (ws.map fp).length = vopCols enc := by simpa [vopWords, hrow] using hws
    obtain ⟨m, hm⟩ := vopMode_isSome hl
    obtain ⟨us, hus, hconv, -⟩ :=
      (s.addFlags p 1 fl).convRow_cases p 0 (vopDstFmt enc) hm (bits (vopModes enc) 2 2) (ws.map fp)
    simp only [State.vopOut, hfmt, if_false, hconv, vopD, hrow, Bool.false_eq_true]
    rw [length_convertRow (hcols ▸ vopDst_fits hl) hus, hcols]

theorem State.stores_vopOut (ws : List Nat) (fl : Flags) : (s.vopOut p enc ws fl).2.stores p = s.stores p := by
  unfold State.vopOut
  split
  · rfl
  · obtain ⟨m, hm⟩ := vopMode_isSome hl
    obtain ⟨us, -, -, hconv | ⟨-, v, hconv⟩⟩ :=
      (s.addFlags p 1 fl).convRow_cases p 0 (vopDstFmt enc) hm (bits (vopModes enc) 2 2) (ws.map fp) <;>
    · simp only [hconv]
      exact State.stores_addDelivered ..

theorem State.onlyCore_vopOut {t : State} {l : List Nat} (hsub : vopResultRegs p enc ⊆ l) (h : s.onlyCore t p l) (ws : List Nat)
    (fl : Flags) : s.onlyCore (t.vopOut p enc ws fl).2 p l := by
  have hflags : R.JOB_CORE_FLAGS p ∈ l := hsub (by simp [vopResultRegs])
  have hadd := State.onlyCore_addFlags h 1 fl hflags
  unfold State.vopOut
  split
  · exact hadd
  · obtain ⟨m, hm⟩ := vopMode_isSome hl
    refine State.onlyCore_addCounts (State.onlyCore_addFlags ?_ _ _ hflags) _ _
    obtain ⟨us, -, -, hconv | ⟨hsr, v, hconv⟩⟩ :=
      (t.addFlags p 1 fl).convRow_cases p 0 (vopDstFmt enc) hm (bits (vopModes enc) 2 2) (ws.map fp)
    · rw [hconv]
      exact hadd
    · rw [hconv]
      exact State.onlyCore_putF hadd v (hsub (by simp [vopResultRegs, hsr]))

end

/-! ## The rows of an operation -/

/-- Row `r` of a VOP computed from the operands as they stand in `s`, and delivered to `t`. -/
def State.vopDeliver (s : State) (p : Nat) (enc : BitVec 256) (f : List Nat → List Nat → List Nat × Flags) (t : State) (r : Nat) :
    List Byte × State :=
  t.vopOut p enc (f (s.vopIn p enc (vopA enc) r).1 (s.vopBIn p enc r).1).1
    ((f (s.vopIn p enc (vopA enc) r).1 (s.vopBIn p enc r).1).2 ||| (s.vopIn p enc (vopA enc) r).2 ||| (s.vopBIn p enc r).2)

/-- A fold that gathers one result a step: as many results as steps, each its own step's. -/
theorem foldl_gather {σ β : Type} (g : σ → Nat → β × σ) (s : σ) (n : Nat) :
    let a := (List.range n).foldl (fun a r => (a.1 ++ [(g a.2 r).1], (g a.2 r).2)) (([] : List β), s)
    a.1.length = n ∧ (∀ r, r < n → ∃ t, a.1[r]? = some (g t r).1) ∧ a.2 = (List.range n).foldl (fun t r => (g t r).2) s := by
  induction n with
  | zero => simp
  | succ n ih =>
    obtain ⟨hlen, hget, hstate⟩ := ih
    simp only [List.range_succ, List.foldl_append, List.foldl_cons, List.foldl_nil]
    refine ⟨by simp [hlen], fun r hr => ?_, by rw [hstate]⟩
    obtain hr | rfl := Nat.lt_succ_iff_lt_or_eq.mp hr
    · obtain ⟨t, ht⟩ := hget r hr
      exact ⟨t, by rw [List.getElem?_append_left (by omega), ht]⟩
    · exact ⟨_, hlen ▸ List.getElem?_concat_length⟩

section
variable {s : State} {p : Nat} {enc : BitVec 256} {f : List Nat → List Nat → List Nat × Flags}

theorem State.vopRows_state : (s.vopRows p enc f).2 =
    (List.range (Machine.vopRows enc)).foldl (fun t r => (s.vopDeliver p enc f t r).2) s :=
  (foldl_gather (s.vopDeliver p enc f) s (Machine.vopRows enc)).2.2

theorem State.length_vopRows : (s.vopRows p enc f).1.length = Machine.vopRows enc :=
  (foldl_gather (s.vopDeliver p enc f) s (Machine.vopRows enc)).1

/-- Each row is what its delivery gives. -/
theorem State.vopRows_getElem {r : Nat} (hr : r < Machine.vopRows enc) :
    ∃ t, (s.vopRows p enc f).1[r]? = some (s.vopDeliver p enc f t r).1 :=
  (foldl_gather (s.vopDeliver p enc f) s (Machine.vopRows enc)).2.1 r hr

section
variable (hl : vopLegal enc = true)
include hl

theorem State.length_vopRows_row (hf : ∀ r, (f (s.vopIn p enc (vopA enc) r).1 (s.vopBIn p enc r).1).1.length = vopWords enc) :
    ∀ b ∈ (s.vopRows p enc f).1, b.length = (vopD enc).bytes := by
  intro b hb
  obtain ⟨r, hr, hget⟩ := List.mem_iff_getElem.mp hb
  obtain ⟨t, ht⟩ := State.vopRows_getElem (s := s) (p := p) (f := f) (State.length_vopRows ▸ hr)
  rw [List.getElem?_eq_getElem hr, hget] at ht
  rw [Option.some.inj ht]
  exact State.length_vopOut _ _ hl (hf r) _

theorem State.stores_vopRows : (s.vopRows p enc f).2.stores p = s.stores p := by
  rw [State.vopRows_state]
  exact foldl_kept (State.stores · p) (fun _ _ t => t.stores_vopOut p hl _ _) s

theorem State.onlyCore_vopRows {l : List Nat} (hsub : vopResultRegs p enc ⊆ l) : s.onlyCore (s.vopRows p enc f).2 p l := by
  rw [State.vopRows_state]
  exact List.foldlRecOn (motive := fun t => s.onlyCore t p l) _ _ State.onlyCore_refl fun _ ht _ _ =>
    State.onlyCore_vopOut s p hl hsub ht _ _

end

variable (hfmt : vopDstFmt enc = 0)
include hfmt

/-- With FP32 at D, row `r` is the words themselves. -/
theorem State.vopRows_fp32 {r : Nat} (hr : r < Machine.vopRows enc) : (s.vopRows p enc f).1.getD r [] =
    (f (s.vopIn p enc (vopA enc) r).1 (s.vopBIn p enc r).1).1.flatMap (leBytes 4) := by
  obtain ⟨t, ht⟩ := State.vopRows_getElem (s := s) (p := p) (f := f) hr
  rw [List.getD_eq_getElem?_getD, ht, State.vopDeliver, State.vopOut_fp32 _ _ hfmt]
  rfl

end

theorem State.bit_flags_vopRows {s : State} {p : Nat} {enc : BitVec 256} (hfmt : vopDstFmt enc = 0) {i : Nat} (hi : i < 32) :
    bit ((s.vopRows p enc (vopResult enc)).2.reg (R.JOB_CORE_FLAGS p)).toNat i = (bit (s.reg (R.JOB_CORE_FLAGS p)).toNat i ||
      (decide (4 ≤ i ∧ i < 8) && (List.range (Machine.vopRows enc)).any fun r => bit (s.vopFlags p enc r).toNat (i - 4))) := by
  have hadd : (s.vopRows p enc (vopResult enc)).2 =
      (List.range (Machine.vopRows enc)).foldl (fun t r => t.addFlags p 1 (s.vopFlags p enc r)) s := by
    simp only [State.vopRows_state, State.vopDeliver, State.vopOut_fp32 _ _ hfmt]
    rfl
  rw [hadd, State.bit_engineFlags_foldl _ _ _ _ _ hi]

/-! ## The arms of exec -/

section
variable {s : State} {p : Nat} {enc : BitVec 256}

theorem vopRow_of_op (hop : fieldOf enc 0 1 = 5) (hle : vopOp enc ≤ 0x11) : vopRow enc = 0x500 + vopOp enc := by
  simp [vopRow, hop, hle]

/-- A VOP but of the soft maximum issues with its own result row and cost. -/
theorem exec_vopCommand_body (hop : fieldOf enc 0 1 = 5) (hlt : vopOp enc < 0x10) :
    exec (vopCommand p enc) s = s.issue p enc (vopCommand p enc) (vopRow enc) (fun g _ => vopJudge enc g)
      fun _ _ => s.vopBody p enc (vopCost enc) (vopResult enc) := by
  rw [vopRow_of_op hop (by omega)]
  delta vopCommand vopCost vopResult
  generalize vopOp enc = n at hlt
  match n, hlt with
  | 0, _ | 1, _ | 2, _ | 3, _ | 4, _ | 5, _ | 6, _ | 7, _ | 8, _ | 9, _ | 0xA, _ | 0xB, _ | 0xC, _ | 0xD, _ | 0xE, _ | 0xF, _ => rfl
  | n + 0x10, hbeyond => exact absurd hbeyond (by omega)

theorem vopJudge_legal {g : Program} (hl : vopLegal enc = true) (hover : g.overRows (vopOperands enc) = 0) :
    vopJudge enc g = ⟨vopRow enc, true, 0⟩ := by
  simp [vopJudge, hl, hover]

/-- A VOP writes its rows, counts its cycles, and the sequencer goes on. -/
def State.vopEnd (s u : State) (p : Nat) (enc : BitVec 256) (rows : List (List Byte)) (cycles : Nat) : State :=
  ((u.writeRows p (vopD enc) rows).vecBusy p cycles).putF (F.JOB_CORE_PROGRAM_NEXT p) (s.getF (F.JOB_CORE_PROGRAM_NEXT p) + 1)

theorem exec_vop_done {g : Program} {j : Job} (h : s.fetched p enc g j) (hop : fieldOf enc 0 1 = 5) (hlt : vopOp enc < 0x10)
    (hl : vopLegal enc = true) (hover : g.overRows (vopOperands enc) = 0) (hfree : s.checkWait p (vopReads enc) (vopWrites enc) = false) :
    exec (vopCommand p enc) s = .next (s.vopEnd (s.vopRows p enc (vopResult enc)).2 p enc (s.vopRows p enc (vopResult enc)).1
      (Machine.vopRows enc * vopCost enc + 16)) := by
  rw [exec_vopCommand_body hop hlt]
  exact State.issue_done h (vopJudge_legal hl hover) (by rw [vopRow_of_op hop (by omega)]; omega)
    (by simp only [State.vopBody, hfree, Bool.false_eq_true, if_false])

end

/-! ## How a VOP ends -/

section
variable (s u : State) (p : Nat) (enc : BitVec 256) (rows : List (List Byte)) (cycles : Nat)

theorem State.reg_vopEnd {o : Nat} (hnext : o ≠ (F.JOB_CORE_PROGRAM_NEXT p).off) (hlo : o ≠ P.JOB_CORE_VEC_BUSY p)
    (hhi : o ≠ P.JOB_CORE_VEC_BUSY p + 4) : (s.vopEnd u p enc rows cycles).reg o = u.reg o := by
  rw [State.vopEnd, State.reg_putF_other _ _ hnext, State.reg_vecBusy _ _ _ hlo hhi, State.reg_writeRows]

theorem State.flags_vopEnd : (s.vopEnd u p enc rows cycles).reg (R.JOB_CORE_FLAGS p) = u.reg (R.JOB_CORE_FLAGS p) :=
  State.reg_vopEnd _ _ _ _ _ _ (by simp [R.JOB_CORE_FLAGS, F.JOB_CORE_PROGRAM_NEXT]) (by simp [R.JOB_CORE_FLAGS, P.JOB_CORE_VEC_BUSY])
    (by simp only [R.JOB_CORE_FLAGS, P.JOB_CORE_VEC_BUSY]; omega)

theorem State.busy_vopEnd : (s.vopEnd u p enc rows cycles).getP (P.JOB_CORE_VEC_BUSY p) =
    (u.getP (P.JOB_CORE_VEC_BUSY p) + cycles) % 2 ^ 64 := by
  have hnext {o : Nat} (ho : o ≠ (F.JOB_CORE_PROGRAM_NEXT p).off) : (s.vopEnd u p enc rows cycles).reg o =
      ((u.writeRows p (vopD enc) rows).vecBusy p cycles).reg o := State.reg_putF_other _ _ ho
  rw [State.getP_of_reg (hnext (by simp [P.JOB_CORE_VEC_BUSY, F.JOB_CORE_PROGRAM_NEXT]))
    (hnext (by simp only [P.JOB_CORE_VEC_BUSY, F.JOB_CORE_PROGRAM_NEXT]; omega)), State.vecBusy, State.getP_addP,
    State.getP_of_reg (u.reg_writeRows p _ _ _) (u.reg_writeRows p _ _ _)]

theorem State.advanced_vopEnd : s.advanced (s.vopEnd u p enc rows cycles) p := State.advanced_next ..

variable {s u p enc rows cycles}

theorem State.onlyCore_vopEnd {l : List Nat} (h : s.onlyCore u p l) (hlo : P.JOB_CORE_VEC_BUSY p ∈ l) (hhi : P.JOB_CORE_VEC_BUSY p + 4 ∈ l)
    (hnext : (F.JOB_CORE_PROGRAM_NEXT p).off ∈ l) : s.onlyCore (s.vopEnd u p enc rows cycles) p l :=
  State.onlyCore_putF (State.onlyCore_addP (State.onlyCore_writeRows _ _ h) _ hlo hhi) _ hnext

theorem State.rowsSet_vopEnd (hu : u.stores p = s.stores p) (hrows : rows.length = Machine.vopRows enc)
    (hbytes : ∀ b ∈ rows, b.length = (vopD enc).bytes) (hapart : (vopD enc).apart) :
    s.rowsSet (s.vopEnd u p enc rows cycles) p (vopD enc) rows :=
  State.rowsSet_of_stores (State.rowsSet_writeRows u p hrows hbytes hapart) hu rfl

end

/-! ## The obligation -/

/-- Settles O30: the rows are computed from `s` alone, delivered one after another, which changes flags, counts and the generator only,
and then written where they lie apart. -/
theorem vectorOpsComputeRows : Obligations.VectorOpsComputeRows := by
  unfold Obligations.VectorOpsComputeRows
  intro s p enc g j h hop hlt hl hover hfree hapart
  have hresult (r : Nat) : (vopResult enc (s.vopIn p enc (vopA enc) r).1 (s.vopBIn p enc r).1).1.length = vopWords enc :=
    length_vopResult hlt (s.length_vopIn p (vopSrc_isFmt hl) _ r) fun hB => s.length_vopBIn p (vopSrc_isFmt hl) hB r
  obtain ⟨-, -, hregs⟩ := State.onlyCore_vopRows (s := s) (p := p) (f := vopResult enc) hl (List.Subset.refl _)
  refine ⟨_, exec_vop_done h hop hlt hl hover hfree, ?rows, ?words, ?flags, ?busy, State.advanced_vopEnd .., ?frame⟩
  case rows => exact State.rowsSet_vopEnd (State.stores_vopRows hl) State.length_vopRows (State.length_vopRows_row hl hresult) hapart
  case words => exact fun hfmt r hr => State.vopRows_fp32 hfmt hr
  case flags =>
    intro hfmt i hi
    rw [State.flags_vopEnd, State.bit_flags_vopRows hfmt hi]
  case busy =>
    obtain ⟨hlo, hhi⟩ := vecBusy_not_vopResultRegs p enc
    rw [State.busy_vopEnd, State.getP_of_reg (hregs _ hlo) (hregs _ hhi)]
  case frame =>
    exact State.onlyCore_vopEnd (State.onlyCore_vopRows hl (List.cons_subset.mpr ⟨by simp, List.subset_append_right ..⟩)) (by simp)
      (by simp) (by simp)

end Sys2Proof.Machine
end

section
/-! The soft maximum (R161, R162, R166 to R168): what delivering a row leaves, that D and B stay clear of each other, and the obligation of
chapter 9 on SOFTMAX and SOFTMAX_LSE. -/

namespace Sys2Proof.Machine

open Sys2Proof

/-! ## Rows of the soft maximum -/

theorem length_softCore (args : List Nat) : (softCore args).1.length = args.length := by simp [softCore]

theorem length_softRow (scores : List Nat) (fl : Flags) : (softRow scores fl).out.length = scores.length := by
  unfold softRow
  split
  · exact List.length_map ..
  split
  · exact List.length_map ..
  split
  · exact List.length_map ..
  split
  · exact (length_softCore _).trans (List.length_map ..)
  · exact (length_softCore _).trans (List.length_map ..)

theorem length_softLseRow (scalar lse : Nat) (a : List Nat) : (softLseRow scalar lse a).1.length = a.length := by simp [softLseRow]

section
variable {enc : BitVec 256}

/-- A row of D holds A's columns as FP32. -/
theorem vopD_bytes_of_soft (hop : vopOp enc = 0x10 ∨ vopOp enc = 0x11) : (vopD enc).bytes = 4 * vopCols enc := by
  obtain hop | hop := hop <;> simp [vopD, hop, isRowOp, rowOpWords]

theorem State.length_softRowAt (s : State) (p : Nat) (hl : vopLegal enc = true) (r : Nat) :
    (s.softRowAt p enc r).out.length = vopCols enc := by
  simp only [State.softRowAt, length_softRow, length_withWord, State.length_vopIn _ _ (vopSrc_isFmt hl)]

/-- SOFTMAX's statistics are one word a row. -/
theorem vopB_of_softmax (hop : vopOp enc = 0x10) {b : Rows} (hb : vopB enc = some b) :
    b.rows = vopRows enc ∧ b.bytes = 4 ∧ b.stride = 4 := by
  have hshape : bShape (vopOp enc) = .out := by rw [hop]; rfl
  simp only [vopB, hshape] at hb
  split at hb
  · contradiction
  · cases hb
    exact ⟨rfl, rfl, rfl⟩

/-- No row of D meets a row's statistic (R161). -/
theorem softmax_clear (hl : vopLegal enc = true) (hop : vopOp enc = 0x10) {b : Rows} (hb : vopB enc = some b) {i k : Nat}
    (hi : i < vopRows enc) (hk : k < vopRows enc) (hacc : (vopD enc).acc = b.acc) :
    (vopD enc).addr + i * (vopD enc).stride + (vopD enc).bytes ≤ b.addr + 4 * k ∨
      b.addr + 4 * k + 4 ≤ (vopD enc).addr + i * (vopD enc).stride := by
  obtain ⟨hrows, hbytes, hstride⟩ := vopB_of_softmax hop hb
  obtain ⟨-, -, hclear⟩ := vopD_of_isRowOp hl (by rw [hop]; rfl)
  have hd : (vopD enc).bytes ≠ 0 := by
    have := vopCols_pos hl
    rw [vopD_bytes_of_soft (.inl hop)]
    omega
  have := Rows.rows_clear_of_not_overlaps (hclear b hb) hacc hi (hrows ▸ hk) hd (by omega)
  rwa [hstride, hbytes, Nat.mul_comm k] at this

end

/-! ## A row of SOFTMAX delivered -/

/-- The flags, the count of R162 and the cycles that delivering a row of SOFTMAX adds. -/
def State.softNoted (s : State) (p : Nat) (enc : BitVec 256) (o : SoftRow) : State :=
  let s := (s.addFlags p 1 o.vec).addFlags p 2 o.sfu
  let s := if o.range then s.addF (F.JOB_CORE_SOFTMAX_RANGE_COUNT p) 1 else s
  if o.again then s.vecBusy p (ceilDiv (vopCols enc) 128 + 2 * ceilDiv (vopCols enc) 32 + 48) else s

/-- Row `r` of D written. -/
def State.softWritten (s : State) (p : Nat) (enc : BitVec 256) (r : Nat) (o : SoftRow) : State :=
  (s.softNoted p enc o).setStore p (vopD enc).acc ((vopD enc).addr + r * (vopD enc).stride) (o.out.flatMap (leBytes 4))

section
variable (s : State) (p : Nat) {enc : BitVec 256} (r : Nat) (o : SoftRow)

theorem State.softOut_noB (h : vopB enc = none) : s.softOut p enc r o = s.softWritten p enc r o := by
  simp only [State.softOut, h, State.softWritten, State.softNoted]

theorem State.softOut_withB {b : Rows} (h : vopB enc = some b) :
    s.softOut p enc r o = (s.softWritten p enc r o).setStore p b.acc (b.addr + 4 * r) (leBytes 4 o.lse) := by
  simp only [State.softOut, h, State.softWritten, State.softNoted]

/-- Delivering a row changes the flags, the count and the busy cycles only. -/
def softRegs (p : Nat) : List Nat :=
  [R.JOB_CORE_FLAGS p, (F.JOB_CORE_SOFTMAX_RANGE_COUNT p).off, P.JOB_CORE_VEC_BUSY p, P.JOB_CORE_VEC_BUSY p + 4]

theorem State.stores_softNoted : (s.softNoted p enc o).stores p = s.stores p := by
  have hcount (t : State) : (if o.range then t.addF (F.JOB_CORE_SOFTMAX_RANGE_COUNT p) 1 else t).stores p = t.stores p := by
    split
    · exact State.stores_putF ..
    · rfl
  unfold State.softNoted
  dsimp only
  split
  · rw [State.stores_vecBusy, hcount, State.stores_addFlags, State.stores_addFlags]
  · rw [hcount, State.stores_addFlags, State.stores_addFlags]

theorem State.onlyCore_softOut {t : State} {l : List Nat} (h : s.onlyCore t p l) (hsub : softRegs p ⊆ l) :
    s.onlyCore (t.softOut p enc r o) p l := by
  have hflags : R.JOB_CORE_FLAGS p ∈ l := hsub (by simp [softRegs])
  have hadd := State.onlyCore_addFlags (State.onlyCore_addFlags h 1 o.vec hflags) 2 o.sfu hflags
  have hcount := State.onlyCore_ite (o.range = true) (State.onlyCore_addF (f := F.JOB_CORE_SOFTMAX_RANGE_COUNT p) hadd 1
    (hsub (by simp [softRegs]))) hadd
  have hnoted : s.onlyCore (t.softNoted p enc o) p l :=
    State.onlyCore_ite (o.again = true)
      (State.onlyCore_addP hcount _ (hsub (by simp [softRegs])) (hsub (by simp [softRegs]))) hcount
  have hwritten : s.onlyCore (t.softWritten p enc r o) p l := State.onlyCore_setStore hnoted ..
  cases hb : vopB enc with
  | none => rwa [State.softOut_noB _ _ _ _ hb]
  | some b =>
    rw [State.softOut_withB _ _ _ _ hb]
    exact State.onlyCore_setStore hwritten ..

theorem State.reg_softOut (a : Nat) : (s.softOut p enc r o).reg a = (s.softNoted p enc o).reg a := by
  cases hb : vopB enc with
  | none => rw [State.softOut_noB _ _ _ _ hb, State.softWritten, State.reg_setStore]
  | some b => rw [State.softOut_withB _ _ _ _ hb, State.reg_setStore, State.softWritten, State.reg_setStore]

theorem State.getF_vecBusy_softRange (n : Nat) : (s.vecBusy p n).getF (F.JOB_CORE_SOFTMAX_RANGE_COUNT p) =
    s.getF (F.JOB_CORE_SOFTMAX_RANGE_COUNT p) := by
  rw [State.getF, State.reg_vecBusy _ _ _ (by simp [F.JOB_CORE_SOFTMAX_RANGE_COUNT, P.JOB_CORE_VEC_BUSY])
    (by simp only [F.JOB_CORE_SOFTMAX_RANGE_COUNT, P.JOB_CORE_VEC_BUSY]; omega), ← State.getF]

/-- A row out of range is counted once (R162). -/
theorem State.rangeCount_softOut : (s.softOut p enc r o).getF (F.JOB_CORE_SOFTMAX_RANGE_COUNT p) =
    if o.range then (s.getF (F.JOB_CORE_SOFTMAX_RANGE_COUNT p) + 1) % 2 ^ 32 else s.getF (F.JOB_CORE_SOFTMAX_RANGE_COUNT p) := by
  have hflags : (F.JOB_CORE_SOFTMAX_RANGE_COUNT p).off ≠ R.JOB_CORE_FLAGS p := by
    simp [F.JOB_CORE_SOFTMAX_RANGE_COUNT, R.JOB_CORE_FLAGS]
  have hadd : ((s.addFlags p 1 o.vec).addFlags p 2 o.sfu).getF (F.JOB_CORE_SOFTMAX_RANGE_COUNT p) =
      s.getF (F.JOB_CORE_SOFTMAX_RANGE_COUNT p) := by
    simp only [State.addFlags, State.getF_setReg_other _ _ hflags]
  have hcount : (s.softNoted p enc o).getF (F.JOB_CORE_SOFTMAX_RANGE_COUNT p) =
      (if o.range then ((s.addFlags p 1 o.vec).addFlags p 2 o.sfu).addF (F.JOB_CORE_SOFTMAX_RANGE_COUNT p) 1
        else (s.addFlags p 1 o.vec).addFlags p 2 o.sfu).getF (F.JOB_CORE_SOFTMAX_RANGE_COUNT p) := by
    unfold State.softNoted
    dsimp only
    split
    · exact State.getF_vecBusy_softRange ..
    · rfl
  rw [State.getF, State.reg_softOut, ← State.getF, hcount]
  split
  · rw [State.addF, State.getF_putF_same _ _ (by simp [Fld.ok, F.JOB_CORE_SOFTMAX_RANGE_COUNT]), hadd]
    rfl
  · exact hadd

/-- A run that meets neither row `r` of D nor the row's statistic reads as before. -/
theorem State.runAt_softOut_out {acc : Bool} {a n : Nat} (ho : (o.out.flatMap (leBytes 4)).length = (vopD enc).bytes)
    (hD : acc = (vopD enc).acc → a + n ≤ (vopD enc).addr + r * (vopD enc).stride ∨
      (vopD enc).addr + r * (vopD enc).stride + (vopD enc).bytes ≤ a)
    (hB : ∀ b, vopB enc = some b → acc = b.acc → a + n ≤ b.addr + 4 * r ∨ b.addr + 4 * r + 4 ≤ a) :
    (s.softOut p enc r o).runAt p acc a n = s.runAt p acc a n := by
  have hwritten : (s.softWritten p enc r o).runAt p acc a n = s.runAt p acc a n :=
    (State.runAt_setStore_out _ _ (ho ▸ hD)).trans (State.runAt_of_stores (s.stores_softNoted ..) ..)
  cases hb : vopB enc with
  | none => rw [State.softOut_noB _ _ _ _ hb, hwritten]
  | some b => rw [State.softOut_withB _ _ _ _ hb, State.runAt_setStore_out _ _ (by simpa using hB b hb), hwritten]

/-- Row `r` of D holds the row's words. -/
theorem State.runAt_softOut_row (ho : (o.out.flatMap (leBytes 4)).length = (vopD enc).bytes)
    (hclear : ∀ b, vopB enc = some b → (vopD enc).acc = b.acc →
      (vopD enc).addr + r * (vopD enc).stride + (vopD enc).bytes ≤ b.addr + 4 * r ∨
        b.addr + 4 * r + 4 ≤ (vopD enc).addr + r * (vopD enc).stride) :
    (s.softOut p enc r o).runAt p (vopD enc).acc ((vopD enc).addr + r * (vopD enc).stride) (vopD enc).bytes =
      o.out.flatMap (leBytes 4) := by
  have hwritten : (s.softWritten p enc r o).runAt p (vopD enc).acc ((vopD enc).addr + r * (vopD enc).stride) (vopD enc).bytes =
      o.out.flatMap (leBytes 4) := ho ▸ State.runAt_setStore_same ..
  cases hb : vopB enc with
  | none => rw [State.softOut_noB _ _ _ _ hb, hwritten]
  | some b => rw [State.softOut_withB _ _ _ _ hb, State.runAt_setStore_out _ _ (by simpa using hclear b hb), hwritten]

/-- Word `r` of B holds the row's statistic. -/
theorem State.runAt_softOut_lse {b : Rows} (hb : vopB enc = some b) :
    (s.softOut p enc r o).runAt p b.acc (b.addr + 4 * r) 4 = leBytes 4 o.lse := by
  rw [State.softOut_withB _ _ _ _ hb]
  exact State.runAt_setStore_same (bs := leBytes 4 o.lse) ..

end

/-! ## SOFTMAX -/

/-- A count that some steps of a fold advance by one. -/
theorem foldl_counts {σ α : Type} {f : σ → α → σ} (obs : σ → Nat) (c : α → Bool) (m : Nat)
    (h : ∀ t x, obs (f t x) = if c x then (obs t + 1) % m else obs t) (l : List α) {s : σ} (hs : obs s < m) :
    obs (l.foldl f s) = (obs s + (l.filter c).length) % m := by
  induction l generalizing s with
  | nil => simp [Nat.mod_eq_of_lt hs]
  | cons x l ih =>
    have hx : obs (f s x) < m := by
      rw [h]
      split
      · exact Nat.mod_lt _ (by omega)
      · exact hs
    rw [List.foldl_cons, ih hx, h, List.filter_cons]
    split
    · rw [Nat.mod_add_mod, List.length_cons]
      congr 1
      omega
    · rfl

section
variable (s : State) (p : Nat) (enc : BitVec 256)

/-- The rows of SOFTMAX delivered one after another, each computed from the operands as they stand in `s`. -/
def State.softRows : State := (List.range (Machine.vopRows enc)).foldl (fun t r => t.softOut p enc r (s.softRowAt p enc r)) s

theorem State.softmaxBody_done (hfree : s.checkWait p (vopReads enc) (vopWrites enc) = false) :
    s.softmaxBody p enc =
      .done ((s.softRows p enc).vecBusy p (Machine.vopRows enc * (2 * ceilDiv (vopCols enc) 32 + 48) + 16)) := by
  have hzip : ((List.range (Machine.vopRows enc)).map (s.softRowAt p enc)).zipIdx =
      (List.range (Machine.vopRows enc)).map fun r => (s.softRowAt p enc r, r) :=
    List.ext_getElem (by simp) (by simp)
  simp only [State.softmaxBody, hfree, Bool.false_eq_true, if_false, hzip, List.foldl_map, State.softRows]

theorem State.onlyCore_softRows {l : List Nat} (hsub : softRegs p ⊆ l) : s.onlyCore (s.softRows p enc) p l :=
  List.foldlRecOn (motive := fun t => s.onlyCore t p l) _ _ State.onlyCore_refl fun _ ht _ _ =>
    State.onlyCore_softOut s p _ _ ht hsub

theorem State.rangeCount_softRows : (s.softRows p enc).getF (F.JOB_CORE_SOFTMAX_RANGE_COUNT p) =
    (s.getF (F.JOB_CORE_SOFTMAX_RANGE_COUNT p) +
      ((List.range (Machine.vopRows enc)).filter fun r => (s.softRowAt p enc r).range).length) % 2 ^ 32 :=
  foldl_counts (State.getF · (F.JOB_CORE_SOFTMAX_RANGE_COUNT p)) (fun r => (s.softRowAt p enc r).range) (2 ^ 32)
    (fun t _ => t.rangeCount_softOut p _ _) _ (bits_lt _ 31 0)

section
variable {enc} (hl : vopLegal enc = true) (hop : vopOp enc = 0x10)
include hl hop

theorem State.length_softRow_bytes (r : Nat) : ((s.softRowAt p enc r).out.flatMap (leBytes 4)).length = (vopD enc).bytes := by
  rw [length_words, State.length_softRowAt _ _ hl, vopD_bytes_of_soft (.inl hop)]

/-- Delivering row `r` writes row `r` of D and word `r` of B, and no other row delivers there. -/
theorem State.runAt_softRows_row (hapart : (vopD enc).apart) {r : Nat} (hr : r < Machine.vopRows enc) :
    (s.softRows p enc).runAt p (vopD enc).acc ((vopD enc).addr + r * (vopD enc).stride) (vopD enc).bytes =
      (s.softRowAt p enc r).out.flatMap (leBytes 4) := by
  refine foldl_written (fun t : State => t.runAt p (vopD enc).acc ((vopD enc).addr + r * (vopD enc).stride) (vopD enc).bytes)
    (List.mem_range.mpr hr) (fun t => ?_) (fun i hi hne t => ?_) s
  · exact t.runAt_softOut_row p r _ (s.length_softRow_bytes p hl hop r) fun b hb hacc => softmax_clear hl hop hb hr hr hacc
  · have hrow := List.mem_range.mp hi
    exact t.runAt_softOut_out p i _ (s.length_softRow_bytes p hl hop i) (fun _ => Rows.rows_clear hapart hr hrow hne.symm)
      fun b hb hacc => softmax_clear hl hop hb hr hrow hacc

theorem State.runAt_softRows_lse {b : Rows} (hb : vopB enc = some b) {r : Nat} (hr : r < Machine.vopRows enc) :
    (s.softRows p enc).runAt p b.acc (b.addr + 4 * r) 4 = leBytes 4 (s.softRowAt p enc r).lse := by
  refine foldl_written (fun t : State => t.runAt p b.acc (b.addr + 4 * r) 4)
    (List.mem_range.mpr hr) (fun t => ?_) (fun i hi hne t => ?_) s
  · exact t.runAt_softOut_lse p r _ hb
  · have hrow := List.mem_range.mp hi
    refine t.runAt_softOut_out p i _ (s.length_softRow_bytes p hl hop i)
      (fun hacc => (softmax_clear hl hop hb hrow hr hacc.symm).symm) fun b' hb' _ => ?_
    obtain rfl : b = b' := Option.some.inj (hb.symm.trans hb')
    omega

end

/-- SOFTMAX's rows delivered, its cycles counted, and the sequencer goes on. -/
def State.softEnd : State :=
  ((s.softRows p enc).vecBusy p (Machine.vopRows enc * (2 * ceilDiv (vopCols enc) 32 + 48) + 16)).putF (F.JOB_CORE_PROGRAM_NEXT p)
    (s.getF (F.JOB_CORE_PROGRAM_NEXT p) + 1)

theorem State.runAt_softEnd (acc : Bool) (a n : Nat) : (s.softEnd p enc).runAt p acc a n = (s.softRows p enc).runAt p acc a n :=
  State.runAt_of_stores (State.stores_putF ..) acc a n

theorem State.rangeCount_softEnd : (s.softEnd p enc).getF (F.JOB_CORE_SOFTMAX_RANGE_COUNT p) =
    (s.softRows p enc).getF (F.JOB_CORE_SOFTMAX_RANGE_COUNT p) := by
  rw [State.softEnd, State.getF_putF_off _ _ (by simp [F.JOB_CORE_SOFTMAX_RANGE_COUNT, F.JOB_CORE_PROGRAM_NEXT]),
    State.getF_vecBusy_softRange]

variable {s p enc} {g : Program} {j : Job}

theorem exec_softmax_done (h : s.fetched p enc g j) (hop : fieldOf enc 0 1 = 5) (hsoft : vopOp enc = 0x10) (hl : vopLegal enc = true)
    (hover : g.overRows (vopOperands enc) = 0) (hfree : s.checkWait p (vopReads enc) (vopWrites enc) = false) :
    exec (.softmax p enc) s = .next (s.softEnd p enc) := by
  have hrow : vopRow enc = 0x510 := by rw [vopRow_of_op hop (by omega), hsoft]
  exact State.issue_done h (hrow ▸ vopJudge_legal hl hover) (by decide) (State.softmaxBody_done s p enc hfree)

end

/-! ## SOFTMAX_LSE -/

section
variable (s : State) (p : Nat) (enc : BitVec 256)

/-- A row rebuilt from its scores and statistic: bytes, vector flags, special-function flags. -/
def State.softLseAt (r : Nat) : List Byte × Flags × Flags :=
  let x := s.vopIn p enc (vopA enc) r
  let o := softLseRow (vopScalar enc) ((s.vopBIn p enc r).1.headD 0) x.1
  (o.1.flatMap (leBytes 4), o.2.1 ||| x.2, o.2.2)

/-- The flags of the rows of SOFTMAX_LSE added one after another. -/
def State.softLseFlags : State :=
  ((List.range (Machine.vopRows enc)).map (s.softLseAt p enc)).foldl (fun s o => (s.addFlags p 1 o.2.1).addFlags p 2 o.2.2) s

theorem State.stores_softLseFlags : (s.softLseFlags p enc).stores p = s.stores p := by
  rw [State.softLseFlags, foldl_kept (State.stores · p)]
  exact fun _ _ _ => rfl

theorem State.onlyCore_softLseFlags {l : List Nat} (hl : R.JOB_CORE_FLAGS p ∈ l) : s.onlyCore (s.softLseFlags p enc) p l :=
  List.foldlRecOn (motive := fun t => s.onlyCore t p l) _ _ State.onlyCore_refl fun _ ht _ _ =>
    State.onlyCore_addFlags (State.onlyCore_addFlags ht _ _ hl) _ _ hl

variable {s p enc} {g : Program} {j : Job}

theorem exec_softmaxLse_done (h : s.fetched p enc g j) (hop : fieldOf enc 0 1 = 5) (hsoft : vopOp enc = 0x11) (hl : vopLegal enc = true)
    (hover : g.overRows (vopOperands enc) = 0) (hfree : s.checkWait p (vopReads enc) (vopWrites enc) = false) :
    exec (.softmaxLse p enc) s = .next (s.vopEnd (s.softLseFlags p enc) p enc
      ((List.range (Machine.vopRows enc)).map fun r => (s.softLseAt p enc r).1)
      (Machine.vopRows enc * (ceilDiv (vopCols enc) 32 + 16) + 16)) := by
  have hrow : vopRow enc = 0x511 := by rw [vopRow_of_op hop (by omega), hsoft]
  refine State.issue_done h (hrow ▸ vopJudge_legal hl hover) (by decide) ?_
  simp only [State.softmaxLseBody, hfree, Bool.false_eq_true, if_false, List.map_map, State.softLseFlags]
  rfl

theorem State.length_softLseAt (hsoft : vopOp enc = 0x11) (hl : vopLegal enc = true) (r : Nat) :
    (s.softLseAt p enc r).1.length = (vopD enc).bytes := by
  rw [State.softLseAt, length_words, length_softLseRow, State.length_vopIn _ _ (vopSrc_isFmt hl), vopD_bytes_of_soft (.inr hsoft)]

end

/-! ## The obligation -/

/-- Settles O31: SOFTMAX delivers its rows one after another, and each row's run of D and word of B meets no other row's; SOFTMAX_LSE
ends as every other VOP, with the flags of its rows. -/
theorem softMaximumRows : Obligations.SoftMaximumRows := by
  unfold Obligations.SoftMaximumRows
  refine ⟨fun s p enc g j h hop hsoft hl hover hfree hapart => ?softmax,
    fun s p enc g j h hop hsoft hl hover hfree hapart => ?softmaxLse⟩
  case softmax =>
    refine ⟨_, exec_softmax_done h hop hsoft hl hover hfree, fun r hr => ?row, fun b r hb hr => ?lse, ?count, State.advanced_next ..,
      ?frame⟩
    case row => rw [State.rowAt_eq_runAt, State.runAt_softEnd, State.runAt_softRows_row _ _ hl hsoft hapart hr]
    case lse => rw [State.runAt_softEnd, State.runAt_softRows_lse _ _ hl hsoft hb hr]
    case count => rw [State.rangeCount_softEnd, State.rangeCount_softRows]
    case frame =>
      exact State.onlyCore_putF (State.onlyCore_addP (State.onlyCore_softRows _ _ _ (by simp [softRegs])) _ (by simp) (by simp)) _
        (by simp)
  case softmaxLse =>
    exact ⟨_, exec_softmaxLse_done h hop hsoft hl hover hfree,
      State.rowsSet_vopEnd (State.stores_softLseFlags ..) (by simp)
        (List.forall_mem_map.mpr fun r _ => State.length_softLseAt hsoft hl r) hapart,
      State.advanced_vopEnd .., State.onlyCore_vopEnd (State.onlyCore_softLseFlags _ _ _ (by simp)) (by simp) (by simp) (by simp)⟩

end Sys2Proof.Machine
end

section
/-! Special functions (Tables TP-10 and VEC-3, R169 to R171): how an SFU instruction ends, how long its results are, and the obligation of
chapter 9 on them. -/

namespace Sys2Proof.Machine

open Sys2Proof

/-! ## What a legal SFU instruction fulfils -/

section
variable {enc : BitVec 256} (hl : sfuLegal enc = true)
include hl

theorem sfuFmt_isFmt : (fmtOf (fieldOf enc 2 1)).isSome = true := by
  simp only [sfuLegal, Bool.and_eq_true, decide_eq_true_eq] at hl
  obtain ⟨⟨⟨⟨⟨hlow, -⟩, -⟩, -⟩, -⟩, -⟩ := hl
  generalize fieldOf enc 2 1 = n at hlow
  match n, hlow with
  | 0, _ | 1, _ => rfl

/-- The frequency pairs of SINCOS_POS fit its stride, so that its rows lie apart. -/
theorem sincosDst_apart (hfn : fieldOf enc 1 1 = 0xA) : (sfuDst enc).apart := by
  simp only [sfuLegal, hfn, if_true, Bool.and_eq_true, decide_eq_true_eq] at hl
  obtain ⟨-, ⟨-, hstride⟩, -⟩ := hl
  refine .inl ?_
  simpa only [sfuDst, hfn, if_true] using hstride

end

theorem sfuRow_of_fn {enc : BitVec 256} (hop : fieldOf enc 0 1 = 6) (hle : fieldOf enc 1 1 ≤ 0xA) :
    sfuRow enc = 0x600 + fieldOf enc 1 1 := by
  simp [sfuRow, hop, hle]

theorem sfuJudge_legal {enc : BitVec 256} {g : Program} (hl : sfuLegal enc = true)
    (hover : g.overRows (sfuSrc enc :: sfuDst enc :: sfuFreq enc) = 0) : sfuJudge enc g = ⟨sfuRow enc, true, 0⟩ := by
  simp [sfuJudge, hl, hover]

/-! ## Results -/

/-- The elements of an SFU function's source. -/
def State.sfuElems (s : State) (p : Nat) (enc : BitVec 256) : List FV :=
  decodeRow (fieldOf enc 2 1) (fieldOf enc 12 4) (s.rowAt p (sfuSrc enc) 0)

/-- A function of every element of the source. -/
def State.sfuResult (s : State) (p : Nat) (enc : BitVec 256) : List Nat × Flags :=
  collect ((s.sfuElems p enc).map fun v => sfuBy (fieldOf enc 1 1) (widenSource v).1)

theorem State.sfuResult_words (s : State) (p : Nat) (enc : BitVec 256) : (s.sfuResult p enc).1.flatMap (leBytes 4) =
    (s.sfuElems p enc).flatMap fun v => leBytes 4 (sfuBy (fieldOf enc 1 1) (widenSource v).1).1 := by
  simp [State.sfuResult, collect, List.flatMap_map]

theorem State.length_sfuResult (s : State) (p : Nat) {enc : BitVec 256} (hl : sfuLegal enc = true) (hle : fieldOf enc 1 1 ≤ 9) :
    ((s.sfuResult p enc).1.flatMap (leBytes 4)).length = (sfuDst enc).bytes := by
  have hfn : fieldOf enc 1 1 ≠ 0xA := by omega
  rw [length_words, State.sfuResult, length_collect, List.length_map, State.sfuElems, length_decodeRow (sfuFmt_isFmt hl)]
  simp [sfuDst, hfn, rowOne]

theorem State.bit_flags_sfuResult (s : State) (p : Nat) (enc : BitVec 256) (i : Nat) : bit (s.sfuResult p enc).2.toNat i =
    (s.sfuElems p enc).any fun v => bit (sfuBy (fieldOf enc 1 1) (widenSource v).1).2.toNat i := by
  rw [State.sfuResult, bit_flags_collect, List.any_map]
  rfl

/-- The frequencies of SINCOS_POS, 64 bits each. -/
def State.sincosFreqs (s : State) (p : Nat) (enc : BitVec 256) : List Nat :=
  (chunk 8 (sincosSum enc) (s.scratch p (fieldOf enc 16 4) (8 * sincosSum enc))).map leNat

/-- The outputs of SINCOS_POS, a token a row. -/
def State.sincosRows (s : State) (p : Nat) (enc : BitVec 256) : List (List Nat × Flags) :=
  (chunk 12 (fieldOf enc 12 4) (s.rowAt p (sfuSrc enc) 0)).map fun b =>
    sincosToken (sincosAxes enc) (s.sincosFreqs p enc) (wordsOf b)

theorem State.sincosRows_words (s : State) (p : Nat) (enc : BitVec 256) :
    (s.sincosRows p enc).map (fun t => t.1.flatMap (leBytes 4)) = (chunk 12 (fieldOf enc 12 4) (s.rowAt p (sfuSrc enc) 0)).map fun b =>
      (sincosToken (sincosAxes enc) (s.sincosFreqs p enc) (wordsOf b)).1.flatMap (leBytes 4) := List.map_map

/-- A cosine and a sine for each frequency. -/
theorem length_sincosToken (axes : Nat × Nat × Nat) (freqs pos : List Nat) : (sincosToken axes freqs pos).1.length = 2 * freqs.length := by
  rw [sincosToken, length_collect, length_flatMap_of_equal (c := 2) fun _ _ => rfl, List.length_zipIdx, Nat.mul_comm]

theorem State.length_sincosRows (s : State) (p : Nat) {enc : BitVec 256} (hfn : fieldOf enc 1 1 = 0xA) :
    ∀ t ∈ s.sincosRows p enc, (t.1.flatMap (leBytes 4)).length = (sfuDst enc).bytes := by
  refine List.forall_mem_map.mpr fun b _ => ?_
  have hfreqs : (s.sincosFreqs p enc).length = sincosSum enc := (List.length_map ..).trans (length_chunk ..)
  have hbytes : (sfuDst enc).bytes = 8 * sincosSum enc := by simp only [sfuDst, hfn, if_true]
  rw [length_words, length_sincosToken, hfreqs, hbytes]
  omega

/-! ## How an SFU instruction ends -/

/-- An SFU instruction writes its rows, and the sequencer goes on. -/
def State.sfuEnd (s u : State) (p : Nat) (enc : BitVec 256) (rows : List (List Byte)) : State :=
  (u.writeRows p (sfuDst enc) rows).putF (F.JOB_CORE_PROGRAM_NEXT p) (s.getF (F.JOB_CORE_PROGRAM_NEXT p) + 1)

section
variable {s u : State} {p : Nat} {enc : BitVec 256} {rows : List (List Byte)}

theorem State.flags_sfuEnd : (s.sfuEnd u p enc rows).reg (R.JOB_CORE_FLAGS p) = u.reg (R.JOB_CORE_FLAGS p) := by
  rw [State.sfuEnd, State.reg_putF_other _ _ (by simp [R.JOB_CORE_FLAGS, F.JOB_CORE_PROGRAM_NEXT]), State.reg_writeRows]

theorem State.onlyCore_sfuEnd {l : List Nat} (h : s.onlyCore u p l) (hnext : (F.JOB_CORE_PROGRAM_NEXT p).off ∈ l) :
    s.onlyCore (s.sfuEnd u p enc rows) p l :=
  State.onlyCore_putF (State.onlyCore_writeRows _ _ h) _ hnext

theorem State.rowsSet_sfuEnd (hu : u.stores p = s.stores p) (hrows : rows.length = (sfuDst enc).rows)
    (hbytes : ∀ b ∈ rows, b.length = (sfuDst enc).bytes) (hapart : (sfuDst enc).apart) :
    s.rowsSet (s.sfuEnd u p enc rows) p (sfuDst enc) rows :=
  State.rowsSet_of_stores (State.rowsSet_writeRows u p hrows hbytes hapart) hu rfl

/-- The flags of the tokens of SINCOS_POS added one after another. -/
def State.sincosFlags (s : State) (p : Nat) (enc : BitVec 256) : State :=
  (s.sincosRows p enc).foldl (fun s t => s.addFlags p 2 t.2) s

theorem State.stores_sincosFlags : (s.sincosFlags p enc).stores p = s.stores p := by
  rw [State.sincosFlags, foldl_kept (State.stores · p)]
  exact fun _ _ _ => rfl

theorem State.onlyCore_sincosFlags {l : List Nat} (hl : R.JOB_CORE_FLAGS p ∈ l) : s.onlyCore (s.sincosFlags p enc) p l :=
  List.foldlRecOn (motive := fun t => s.onlyCore t p l) _ _ State.onlyCore_refl fun _ ht _ _ => State.onlyCore_addFlags ht _ _ hl

/-- A function of Table VEC-3 issues with its own code. -/
theorem exec_sfuCommand_body (hop : fieldOf enc 0 1 = 6) (hle : fieldOf enc 1 1 ≤ 9) :
    exec (sfuCommand p enc) s = s.issue p enc (sfuCommand p enc) (sfuRow enc) (fun g _ => sfuJudge enc g)
      fun _ _ => s.sfuBody p enc (sfuBy (fieldOf enc 1 1)) := by
  rw [sfuRow_of_fn hop (by omega), sfuCommand]
  generalize fieldOf enc 1 1 = n at hle
  match n, Nat.lt_succ_of_le hle with
  | 0, _ | 1, _ | 2, _ | 3, _ | 4, _ | 5, _ | 6, _ | 7, _ | 8, _ | 9, _ => rfl

variable {g : Program} {j : Job} (h : s.fetched p enc g j) (hop : fieldOf enc 0 1 = 6) (hl : sfuLegal enc = true)
  (hover : g.overRows (sfuSrc enc :: sfuDst enc :: sfuFreq enc) = 0) (hfree : s.sfuWait p enc = false)

include h hop hl hover hfree

theorem exec_sfu_done (hle : fieldOf enc 1 1 ≤ 9) : exec (sfuCommand p enc) s =
    .next (s.sfuEnd (s.addFlags p 2 (s.sfuResult p enc).2) p enc [(s.sfuResult p enc).1.flatMap (leBytes 4)]) := by
  rw [exec_sfuCommand_body hop hle]
  exact State.issue_done h (sfuJudge_legal hl hover) (by rw [sfuRow_of_fn hop (by omega)]; omega)
    (by simp only [State.sfuBody, hfree, Bool.false_eq_true, if_false, State.sfuResult, State.sfuElems])

theorem exec_sincos_done (hfn : fieldOf enc 1 1 = 0xA) : exec (.sincosPos p enc) s =
    .next (s.sfuEnd (s.sincosFlags p enc) p enc ((s.sincosRows p enc).map fun t => t.1.flatMap (leBytes 4))) := by
  have hrow : sfuRow enc = 0x60A := by rw [sfuRow_of_fn hop (by omega), hfn]
  exact State.issue_done h (hrow ▸ sfuJudge_legal hl hover) (by decide)
    (by simp only [State.sincosBody, hfree, Bool.false_eq_true, if_false, State.sincosFlags, State.sincosRows, State.sincosFreqs])

end

/-! ## The obligation -/

/-- Settles O32: a function leaves one row of words and SINCOS_POS a row a token, each as long as the destination says. -/
theorem specialFunctionsComputeElements : Obligations.SpecialFunctionsComputeElements := by
  unfold Obligations.SpecialFunctionsComputeElements
  refine ⟨fun s p enc g j h hop hle hl hover hfree => ?function, fun s p enc g j h hop hfn hl hover hfree => ?sincos⟩
  case function =>
    have hfn : fieldOf enc 1 1 ≠ 0xA := by omega
    refine ⟨_, exec_sfu_done h hop hl hover hfree hle, ?row, fun i hi => ?flags, State.advanced_next .., ?frame⟩
    case row =>
      have hrow := State.rowsSet_sfuEnd (u := s.addFlags p 2 (s.sfuResult p enc).2) (s.stores_addFlags ..)
        (by simp [sfuDst, hfn, rowOne]) (List.forall_mem_singleton.mpr (s.length_sfuResult p hl hle)) (.inr (by simp [sfuDst, hfn, rowOne]))
      exact s.sfuResult_words p enc ▸ hrow
    case flags =>
      rw [State.flags_sfuEnd, State.bit_engineFlags_addFlags _ _ _ _ hi, State.bit_flags_sfuResult]
      rfl
    case frame => exact State.onlyCore_sfuEnd (State.onlyCore_addFlags State.onlyCore_refl _ _ (by simp)) (by simp)
  case sincos =>
    refine ⟨_, exec_sincos_done h hop hl hover hfree hfn, ?rows, State.advanced_next .., ?frame⟩
    case rows =>
      have hrows := State.rowsSet_sfuEnd (State.stores_sincosFlags (s := s) (p := p) (enc := enc))
        (by simp [State.sincosRows, sfuDst, hfn]) (List.forall_mem_map.mpr (s.length_sincosRows p hfn)) (sincosDst_apart hl hfn)
      exact s.sincosRows_words p enc ▸ hrows
    case frame => exact State.onlyCore_sfuEnd (State.onlyCore_sincosFlags (by simp)) (by simp)

end Sys2Proof.Machine
end

section
/-! Accesses to memory and to the undo journal (R204, R211, R299): what they account for, apart from which the state is as before, and what
a write of HBM leaves where no unit is marked. -/

namespace Sys2Proof.Machine

open Sys2Proof

/-! ## What accounts for an access -/

/-- The state without what an access is accounted in: registers, the jobs and their journals, the loose journal, caches and buckets. -/
def State.bare (s : State) : State :=
  { s with regs := [], job.jobs := [], rel.loose := [], mem.cache := [], mem.buckets := [] }

/-- The page units, the cores and the cells of the ports. -/
def State.pageView (s : State) : KvUnit × Store Core × List Cell := (s.kv, s.cores, s.cells)

section
variable (s : State)

/-- What the state without its accounts still shows is the same in states that differ in those alone. -/
theorem State.eq_of_bare {β : Type} (obs : State → β) (hobs : ∀ u : State, obs u.bare = obs u) {s t : State} (h : t.bare = s.bare) :
    obs t = obs s := by rw [← hobs t, h, hobs s]

theorem State.pageView_of_bare {s t : State} (h : t.bare = s.bare) : t.pageView = s.pageView :=
  State.eq_of_bare State.pageView (fun _ => rfl) h

theorem State.hbmBytes_of_bare {s t : State} (h : t.bare = s.bare) : t.mem.hbm = s.mem.hbm :=
  State.eq_of_bare (·.mem.hbm) (fun _ => rfl) h

theorem State.clean_of_bare {s t : State} (h : t.bare = s.bare) (hs : s.clean) : t.clean := by
  have hmarks := State.eq_of_bare (fun u => (u.mem.poison, u.mem.fenced, u.mem.orphanCipher)) (fun _ => rfl) h
  obtain ⟨hp, hf, ho⟩ := hs
  simpa only [hp, hf, ho, Prod.mk.injEq] using hmarks

@[simp] theorem State.bare_addF (f : Fld) (n : Nat) : (s.addF f n).bare = s.bare := by rfl

@[simp] theorem State.bare_addP (lo n : Nat) : (s.addP lo n).bare = s.bare := by rfl

@[simp] theorem State.bare_addEffect (uid : Nat) (e : Effect) : (s.addEffect uid e).bare = s.bare := by
  rw [State.addEffect, State.mapStep_eq]
  rfl

@[simp] theorem State.bare_noteEffect (q : PortCmd) (e : Effect) : (s.noteEffect q e).bare = s.bare := by
  unfold State.noteEffect
  split
  · exact s.bare_addEffect ..
  · rfl

/-! ## Caches and buckets (R204, R211) -/

@[simp] theorem State.bare_chargeBytes (addr n : Nat) : (s.chargeBytes addr n).bare = s.bare := by
  unfold State.chargeBytes
  split
  · dsimp only
    split <;> rfl
  · rfl

/-- A line is found, or brought in, where the cache of its die has a bank; else its bytes are charged. -/
@[simp] theorem State.bare_touchLine (addr : Nat) (write whole : Bool) : (s.touchLine addr write whole).bare = s.bare := by
  have hfill (t : State) : State.bare (if whole then t else t.chargeBytes addr 256) = t.bare := by
    split
    · rfl
    · exact t.bare_chargeBytes ..
  have hcache (t : State) (l : List CacheLine) : State.bare { t with mem.cache := l } = t.bare := rfl
  unfold State.touchLine
  dsimp only
  split
  · exact s.bare_chargeBytes ..
  · split
    case h_1 => rw [State.bare_addF, hcache]
    case h_2 =>
      rw [hcache]
      split
      · rw [hfill, State.bare_addF]
      · split
        · rw [State.bare_addF, State.bare_chargeBytes, hcache, hfill, State.bare_addF]
        · rw [hcache, hfill, State.bare_addF]

@[simp] theorem State.bare_touch (addr n : Nat) (write : Bool) : (s.touch addr n write).bare = s.bare := by
  unfold State.touch
  split
  · rfl
  · exact foldl_kept State.bare (fun _ _ t => t.bare_touchLine ..) s

/-! ## Units under an erased key (R218) -/

theorem State.openRange_clean {s : State} (h : s.clean) (addr n : Nat) : s.openRange addr n = s := by
  simp [State.openRange, h.2.2]

@[simp] theorem State.pageView_openRange (addr n : Nat) : (s.openRange addr n).pageView = s.pageView := by
  have hunit (t : State) (u : Nat) : (t.openUnit u).pageView = t.pageView := by
    unfold State.openUnit
    split <;> rfl
  unfold State.openRange
  split
  · rfl
  · exact foldl_kept State.pageView (fun u _ t => hunit t u) s

end

/-! ## The device's writes for a command (R299, R302) -/

section
variable {s t : State} {q : PortCmd} {addr n : Nat}

/-- A device write is readied by opening units, noting their contents in a step's journal or the loose one, and showing the journal's use:
what these keep, it keeps. -/
theorem State.deviceReady_keeps {P : State → Prop} (h : s.deviceReady q addr n t) (hs : P s)
    (hopen : ∀ u a m, P u → P (u.openRange a m)) (heffect : ∀ u uid e, P u → P (u.addEffect uid e))
    (hloose : ∀ (u : State) l, P u → P { u with rel.loose := l }) (hshow : ∀ u, P u → P u.undoShow) : P t := by
  have hfold {f : Option State → Nat → Option State} (hf : ∀ r i, (∀ u ∈ r, P u) → ∀ u ∈ f r i, P u) (l : List Nat) :
      ∀ u ∈ l.foldl f (some s), P u :=
    List.foldlRecOn (motive := fun r => ∀ u ∈ r, P u) l f (fun u hu => Option.some.inj hu ▸ hs) fun r hr i _ => hf r i hr
  unfold State.deviceReady at h
  split at h
  case h_1 uid _ =>
    replace h := h.2
    unfold State.journal at h
    split at h
    · exact Option.some.inj h ▸ hs
    · refine hfold (fun r i hr u hu => ?_) _ t h
      cases r with
      | none => cases hu
      | some v =>
        have hv := hr v rfl
        dsimp only at hu
        split at hu
        · split at hu
          · cases hu
          · exact Option.some.inj hu ▸ hshow _ (heffect _ _ _ (hopen _ _ _ hv))
        · exact Option.some.inj hu ▸ hv
  case h_2 =>
    unfold State.journalLoose at h
    split at h
    · split at h
      · refine hfold (fun r i hr u hu => ?_) _ t h
        cases r with
        | none => cases hu
        | some v =>
          have hv := hr v rfl
          dsimp only at hu
          split at hu
          · exact Option.some.inj hu ▸ hv
          · split at hu
            · cases hu
            · exact Option.some.inj hu ▸ hshow _ (hloose _ _ (hopen _ _ _ hv))
      · exact Option.some.inj h ▸ hs
    · exact Option.some.inj h ▸ hs

theorem State.deviceReady_pageView (h : s.deviceReady q addr n t) : t.pageView = s.pageView :=
  State.deviceReady_keeps (P := fun u => u.pageView = s.pageView) h rfl (fun _ _ _ hu => (State.pageView_openRange ..).trans hu)
    (fun u uid e hu => (State.pageView_of_bare (u.bare_addEffect uid e)).trans hu) (fun _ _ hu => hu) fun _ hu => hu

theorem State.deviceReady_bare (h : s.deviceReady q addr n t) (hs : s.clean) : t.bare = s.bare :=
  State.deviceReady_keeps (P := fun u => u.bare = s.bare) h rfl
    (fun _ a m hu => (congrArg State.bare (State.openRange_clean (State.clean_of_bare hu hs) a m)).trans hu)
    (fun u uid e hu => (u.bare_addEffect uid e).trans hu) (fun _ _ hu => hu) fun _ hu => hu

theorem State.deviceWrite_ready (h : s.deviceReady q addr n t) (cmd : Instr) (k : State → State) :
    s.deviceWrite q cmd addr n k = k t := by
  cases hu : q.uid with
  | some uid =>
    simp only [State.deviceReady, hu] at h
    simp [State.deviceWrite, hu, h.1, h.2]
  | none =>
    simp only [State.deviceReady, hu] at h
    simp [State.deviceWrite, hu, h]

end

/-! ## HBM where no unit is marked -/

section
variable {s t : State} {addr : Nat} {bs : List Byte}

theorem State.setHbm_clean (h : s.clean) (addr : Nat) (bs : List Byte) :
    s.setHbm addr bs = { s with mem.hbm := storeSetRun zeroByte s.mem.hbm addr bs } := by
  simp [State.setHbm, h.1, h.2.1, h.2.2]

theorem State.poisoned_clean (h : s.clean) (addr n : Nat) : s.poisoned addr n = false := by simp [State.poisoned, h.1, h.2.1]

theorem State.hbm_of_written {n : Nat} (h : t.mem.hbm = storeSetRun zeroByte s.mem.hbm addr bs) (hn : bs.length = n) :
    t.hbm addr n = bs ∧ s.hbmKept t addr n := by
  subst hn
  refine ⟨?_, fun b hb => ?_⟩
  · rw [State.hbm, h, storeGetRun_storeSetRun]
  · rw [State.hbm, h, storeGetRun_storeSetRun_out _ _ (by omega)]
    rfl

@[simp] theorem State.length_hbm (s : State) (addr n : Nat) : (s.hbm addr n).length = n := by simp [State.hbm, storeGetRun]

end

end Sys2Proof.Machine
end

section
/-! Page commands (R177 to R187): what a descriptor, a slot and a reference read as after each operation of the page units, how a command
is answered, what each of the five commands leaves, and the obligation of chapter 10 on them. -/

namespace Sys2Proof.Machine

open Sys2Proof

/-! ## What is read of the page units -/

section
variable {s t : State}

theorem State.kv_of_pageView (h : t.pageView = s.pageView) : t.kv = s.kv := congrArg (·.1) h

theorem State.cores_of_pageView (h : t.pageView = s.pageView) : t.cores = s.cores := congrArg (·.2.1) h

theorem State.kvPage_of_kv (h : t.kv = s.kv) (i : Nat) : t.kvPage i = s.kvPage i := by simp only [State.kvPage, h]

theorem State.kvHeld_of_kv (h : t.kv = s.kv) (ctx id : Nat) : t.kvHeld ctx id = s.kvHeld ctx id := by simp only [State.kvHeld, h]

theorem State.kvSlot_of_kv (h : t.kv = s.kv) (ctx slot : Nat) : t.kvSlot ctx slot = s.kvSlot ctx slot := by simp only [State.kvSlot, h]

theorem State.kvNamed_of_kv (h : t.kv = s.kv) (id : Nat) : t.kvNamed id = s.kvNamed id := by
  simp only [State.kvNamed, State.kvPage_of_kv h]

/-- What an ID names is the descriptor of its index. -/
theorem State.kvNamed_parts {id i : Nat} {p : KvPage} (h : s.kvNamed id = some (i, p)) : i = id % 2 ^ 24 ∧ p = s.kvPage i := by
  simp only [State.kvNamed] at h
  split at h
  · cases h
  · split at h
    · cases h
      exact ⟨rfl, rfl⟩
    · cases h

end

/-! ## Lists searched after a change -/

section
variable {α : Type} {p : α → Bool}

theorem find?_filter_not (p : α → Bool) (l : List α) : (l.filter fun x => !p x).find? p = none :=
  List.find?_eq_none.mpr fun x hx => by simpa using (List.mem_filter.mp hx).2

/-- An entry replaced where it stands is found in its place. -/
theorem find?_replaced {v : α} (hv : p v = true) {l : List α} (h : (l.find? p).isSome = true) :
    (l.map fun x => if p x then v else x).find? p = some v := by
  obtain ⟨r, hr⟩ := Option.isSome_iff_exists.mp h
  have hp : (p ∘ fun x => if p x then v else x) = p := by
    funext x
    by_cases hx : p x = true <;> simp [hx, hv]
  rw [List.find?_map, hp, hr, Option.map_some, if_pos (List.find?_some hr)]

/-- An entry put in a store that had none such is the one found. -/
theorem find?_storeInsert {p : Nat × α → Bool} {st : Store α} (hnone : st.find? p = none) {k : Nat} {v : α} (hv : p (k, v) = true) :
    (storeInsert st k v).find? p = some (k, v) := by
  induction st with
  | nil => simp [storeInsert, hv]
  | cons e st ih =>
    have hall := List.find?_eq_none.mp hnone
    have he : p (e.1, e.2) = false := by simpa using hall e (by simp)
    have hrest := ih (List.find?_eq_none.mpr fun x hx => hall x (by simp [hx]))
    simp only [storeInsert]
    split
    · rw [List.find?_cons_of_pos hv]
    · split
      · rw [List.find?_cons_of_pos hv]
      · rw [List.find?_cons_of_neg (by simp [he]), hrest]

end

/-! ## References (R179) -/

section
variable (s : State)

/-- A count set on a page is the count held: the entry goes, is made, or is changed where it stands. -/
theorem State.kvHeld_setKvHeld_same (ctx id n : Nat) : (s.setKvHeld ctx id n).kvHeld ctx id = n := by
  have hgone := find?_filter_not (fun r : KvRef => r.ctx == ctx && r.id == id) s.kv.refs
  unfold State.kvHeld State.setKvHeld
  dsimp only
  by_cases hn : n = 0
  · rw [if_pos hn, hgone, hn]
  · rw [if_neg hn]
    by_cases hheld : s.kvHeld ctx id = 0
    · rw [if_pos hheld, List.find?_append, hgone]
      simp
    · have hfound : (s.kv.refs.find? fun r => r.ctx == ctx && r.id == id).isSome = true := by
        refine Option.isSome_iff_ne_none.mpr fun hnone => hheld ?_
        rw [State.kvHeld, hnone]
      rw [if_neg hheld, find?_replaced (by simp) hfound]

@[simp] theorem State.kvPage_setKvHeld (ctx id n i : Nat) : (s.setKvHeld ctx id n).kvPage i = s.kvPage i := rfl

@[simp] theorem State.kvNamed_setKvHeld (ctx id n x : Nat) : (s.setKvHeld ctx id n).kvNamed x = s.kvNamed x := rfl

@[simp] theorem State.kvSlot_setKvHeld (ctx id n c slot : Nat) : (s.setKvHeld ctx id n).kvSlot c slot = s.kvSlot c slot := rfl

@[simp] theorem State.kvHeld_setKvPage (i ctx id : Nat) (p : KvPage) : (s.setKvPage i p).kvHeld ctx id = s.kvHeld ctx id := rfl

end

/-! ## Slots (R184) -/

theorem State.kvSlot_setKvPage {s : State} {i : Nat} {p : KvPage} (hnone : s.kvSlot p.owner p.slot = none) (hp : p.state = 1) :
    (s.setKvPage i p).kvSlot p.owner p.slot = some (i, p) := by
  have hnew : p ≠ KvPage.free := fun h => absurd (h ▸ hp) (by decide)
  simp only [State.kvSlot, State.setKvPage, storeSet, if_neg hnew]
  exact find?_storeInsert hnone (by simp [hp])

/-! ## Answers (R184, R185) -/

section
variable {s : State} {q : PortCmd} {c : Cell}

/-- A cell whose command is answered holds the result and is no longer busy. -/
theorem State.cell_cellResult (s : State) (c : Cell) (bs : List Byte) :
    (s.cellResult c bs).cell c.kind c.ctx c.cell = some { c with result := bs, busy := false } := by
  simp only [State.cell, State.cellResult, State.setCell]
  rw [List.find?_append, find?_filter_not (fun x : Cell => x.kind == c.kind && x.ctx == c.ctx && x.cell == c.cell)]
  simp

/-- A host command taken leaves everything but the queue of host commands. -/
theorem State.takeHost_eq (s : State) (k : PortKind) (ctx : Nat) :
    s.takeHost k ctx = { s with hostCmds := (s.takeHost k ctx).hostCmds } := by
  unfold State.takeHost
  split <;> rfl

theorem State.portCmd_host {k : PortKind} {ctx : Nat} (h : s.portCmd k (.host ctx) = some q) : q.ctx = ctx ∧ q.cell = none := by
  simp only [State.portCmd, Option.map_eq_some_iff] at h
  obtain ⟨x, -, rfl⟩ := h
  exact ⟨rfl, rfl⟩

/-- The host finds a code in its result register, and the page units and memory are as they were. -/
theorem State.kvAnswer_host (hc : q.cell = none) {code : Nat} (hcode : code ≠ Code.KV_REF_UNDERFLOW) (id : Nat) :
    (s.kvAnswer q code id).getF (F.JOB_CTX_KV_RESULT_STATUS q.ctx) = code % 2 ^ 16 ∧ (s.kvAnswer q code id).kv = s.kv ∧
      (s.kvAnswer q code id).mem = s.mem ∧ (s.kvAnswer q code id).cores = s.cores := by
  have hpage : (F.JOB_CTX_KV_RESULT_STATUS q.ctx).off ≠ R.JOB_CTX_KV_RESULT_PAGE q.ctx := by
    simp only [F.JOB_CTX_KV_RESULT_STATUS, R.JOB_CTX_KV_RESULT_PAGE]
    omega
  simp only [State.kvAnswer, hc, if_neg hcode]
  refine ⟨?_, ?_⟩
  · rw [State.getF_setReg_other _ _ hpage, State.getF_putF_same _ _ (by simp [Fld.ok, F.JOB_CTX_KV_RESULT_STATUS])]
    rfl
  · rw [State.takeHost_eq]
    exact ⟨rfl, rfl, rfl⟩

/-- A program's command answered with OK: its cell holds the result. -/
theorem State.kvAnswer_ok_cell (hc : q.cell = some c) (id : Nat) :
    s.kvAnswer q Code.OK id = s.cellResult c (kvResult Code.OK id) := by simp [State.kvAnswer, hc]

/-- An answer of OK leaves the page units and the cores. -/
theorem State.kvAnswer_ok_keeps (id : Nat) : (s.kvAnswer q Code.OK id).kv = s.kv ∧ (s.kvAnswer q Code.OK id).cores = s.cores := by
  cases hc : q.cell with
  | none =>
    obtain ⟨-, hkv, -, hcores⟩ := State.kvAnswer_host (s := s) hc (code := Code.OK) (by decide) id
    exact ⟨hkv, hcores⟩
  | some c =>
    rw [State.kvAnswer_ok_cell hc]
    exact ⟨rfl, rfl⟩

/-- A program's command answered with another code faults its job: a reference not held with its own code, all else with
KV_PORT_FAULT. -/
theorem State.kvAnswer_cell_faults (hc : q.cell = some c) {j : Job} (hj : s.jobOf c.job = some j) {code : Nat} (hcode : code ≠ Code.OK)
    (id : Nat) : (s.kvAnswer q code id).ctxState j.ctx = 3 ∧
      ((s.kvAnswer q code id).ctx j.ctx).fault = (if code = Code.KV_REF_UNDERFLOW then code else Code.KV_PORT_FAULT) ∧
      (s.kvAnswer q code id).jobOf c.job = none := by
  have hfault {t : State} (ht : t.job = s.job) (code : Nat) : (t.jobFault c.job code 0 0 0).ctxState j.ctx = 3 ∧
      ((t.jobFault c.job code 0 0 0).ctx j.ctx).fault = code ∧ (t.jobFault c.job code 0 0 0).jobOf c.job = none := by
    have hj' := (State.jobOf_of_job ht c.job).trans hj
    exact ⟨State.jobFault_ctxState hj' .., State.jobFault_fault hj' .., State.jobFault_gone hj' ..⟩
  simp only [State.kvAnswer, hc, if_neg hcode]
  split
  · exact hfault (by simp [State.cellResult]) _
  · exact hfault (by simp [State.cellResult]) _

end

/-! ## Rows (R183, R185) -/

section
variable {s : State} {op : Nat} {via : Via} {q : PortCmd} {body : PortCmd → State}

/-- The command of an OP is the row of its OP. -/
theorem exec_kvCommand (s : State) {op : Nat} (h1 : 1 ≤ op) (h5 : op ≤ 5) (via : Via) :
    ∃ body, exec (kvCommand op via) s = s.kvRow op via body := by
  obtain rfl | rfl | rfl | rfl | rfl : op = 1 ∨ op = 2 ∨ op = 3 ∨ op = 4 ∨ op = 5 := by omega
  · exact ⟨_, rfl⟩
  · exact ⟨_, rfl⟩
  · exact ⟨_, rfl⟩
  · exact ⟨_, rfl⟩
  · exact ⟨_, rfl⟩

variable (hq : s.portCmd .page via = some q) (hop : q.op = op)
include hq hop

theorem State.kvRow_off (hoff : s.kvPart.isNone = true) : s.kvRow op via body = .next (s.kvAnswer q Code.KV_TABLE_FULL q.page) := by
  simp [State.kvRow, hq, hop, hoff]

theorem State.kvRow_badForm (hon : s.kvPart.isSome = true) (hform : kvForm q = false) :
    s.kvRow op via body = .next (s.kvAnswer q Code.KV_COMMAND_BAD q.page) := by
  simp [State.kvRow, hq, hop, hform, Option.isNone_eq_false_iff.mpr hon]

theorem State.kvRow_serves (hon : s.kvPart.isSome = true) (hform : kvForm q = true) : s.kvRow op via body = .next (body q) := by
  simp [State.kvRow, hq, hop, hform, Option.isNone_eq_false_iff.mpr hon]

end

/-! ## New pages (R181, R182) -/

/-- A page `pg` with its contents has been made at descriptor `i` in a slot of its owner, who holds one reference. -/
structure State.pageMade (s t : State) (i : Nat) (pg : KvPage) (data : List Byte) : Prop where
  page : t.kvPage i = pg
  inSlot : t.kvSlot pg.owner pg.slot = some (i, pg)
  held : t.kvHeld pg.owner (kvId i pg) = 1
  others : ∀ k, k ≠ i → t.kvPage k = s.kvPage k
  cores : t.cores = s.cores
  bytes : t.mem.hbm = storeSetRun zeroByte s.mem.hbm pg.address data

theorem State.pageMade.of_bare {s t u : State} {i : Nat} {pg : KvPage} {data : List Byte} (h : s.pageMade u i pg data)
    (hbare : t.bare = u.bare) : s.pageMade t i pg data := by
  have hview := State.pageView_of_bare hbare
  have hkv := State.kv_of_pageView hview
  exact ⟨(State.kvPage_of_kv hkv i).trans h.page, (State.kvSlot_of_kv hkv ..).trans h.inSlot, (State.kvHeld_of_kv hkv ..).trans h.held,
    fun k hk => (State.kvPage_of_kv hkv k).trans (h.others k hk), (State.cores_of_pageView hview).trans h.cores,
    (State.hbmBytes_of_bare hbare).trans h.bytes⟩

/-- The descriptor of a page that a command makes. -/
def State.pageFor (s : State) (q : PortCmd) (i a m fmt fill first parent : Nat) : KvPage :=
  ⟨a, fmt, fill, 1, 0, q.ctx, 1, false, false, (s.kvPage i).gen, q.slot, m, first, parent⟩

/-- The contents, the descriptor and the owner's reference of a new page put in their places. -/
def State.putPage (s : State) (q : PortCmd) (i : Nat) (pg : KvPage) (data : List Byte) : State :=
  (((s.setHbm pg.address data).setKvPage i pg).setKvHeld pg.owner (kvId i pg) 1).noteEffect q (.kvAlloc i)

theorem State.pageMade_putPage {s w : State} (hbare : w.bare = s.bare) (hclean : s.clean) {pg : KvPage} (hstate : pg.state = 1)
    (hslot : s.kvSlot pg.owner pg.slot = none) (q : PortCmd) (i : Nat) (data : List Byte) :
    s.pageMade (w.putPage q i pg data) i pg data := by
  have hput := State.bare_noteEffect (((w.setHbm pg.address data).setKvPage i pg).setKvHeld pg.owner (kvId i pg) 1) q (.kvAlloc i)
  rw [State.setHbm_clean (State.clean_of_bare hbare hclean)] at hput
  have hkv := State.kv_of_pageView (State.pageView_of_bare hput)
  have hold := State.kv_of_pageView (State.pageView_of_bare hbare)
  simp only [State.putPage, State.setHbm_clean (State.clean_of_bare hbare hclean)]
  constructor
  case page =>
    rw [State.kvPage_of_kv hkv, State.kvPage_setKvHeld, State.kvPage_setKvPage, if_pos rfl]
  case inSlot =>
    rw [State.kvSlot_of_kv hkv, State.kvSlot_setKvHeld]
    exact State.kvSlot_setKvPage ((State.kvSlot_of_kv hold ..).trans hslot) hstate
  case held => rw [State.kvHeld_of_kv hkv, State.kvHeld_setKvHeld_same]
  case others =>
    intro k hk
    rw [State.kvPage_of_kv hkv, State.kvPage_setKvHeld, State.kvPage_setKvPage, if_neg hk]
    exact State.kvPage_of_kv hold k
  case cores =>
    have hcores : w.cores = s.cores := State.cores_of_pageView (State.pageView_of_bare hbare)
    exact (State.cores_of_pageView (State.pageView_of_bare hput)).trans hcores
  case bytes =>
    rw [State.hbmBytes_of_bare hput, ← State.hbmBytes_of_bare hbare]
    rfl

section
variable {s s1 s2 : State} {q : PortCmd} {c : Cell}

/-- With quota, journal and space for it, and both its writes readied, a command makes its page and goes on. -/
theorem State.makePage_makes {i a m fmt : Nat} (hslot : s.kvSlot q.ctx q.slot = none)
    (hquota : s.overQuota q.ctx 2 (kvPageBytes fmt + 264 + 8) = false) (hjournal : (s.kvJournal q.ctx).length < journalMax)
    (hspace : s.kvSpace fmt = some (i, a, m)) (hdesc : s.deviceReady q (s.descAddr i) 32 s1)
    (hdata : s1.deviceReady q a (kvPageBytes fmt) s2) (hclean : s.clean) (cmd : Instr) (fill first parent : Nat) (data : List Byte)
    (k : Nat → State → State) :
    ∃ u, s.makePage q cmd fmt fill first parent data k = k i u ∧ s.pageMade u i (s.pageFor q i a m fmt fill first parent) data := by
  have hbare1 := State.deviceReady_bare hdesc hclean
  have hbare : (s2.touch a (kvPageBytes fmt) true).bare = s.bare :=
    (s2.bare_touch ..).trans ((State.deviceReady_bare hdata (State.clean_of_bare hbare1 hclean)).trans hbare1)
  refine ⟨(s2.touch a (kvPageBytes fmt) true).putPage q i (s.pageFor q i a m fmt fill first parent) data, ?_,
    State.pageMade_putPage hbare hclean rfl hslot q i data⟩
  have hnew : ((s2.touch a (kvPageBytes fmt) true).setHbm a data).newPage q.ctx i a m fmt fill q.slot first parent =
      ((s2.touch a (kvPageBytes fmt) true).setHbm a data).setKvPage i (s.pageFor q i a m fmt fill first parent) := by
    have hgen := State.kvPage_of_kv (State.kv_of_pageView (State.pageView_of_bare hbare)) i
    rw [State.setHbm_clean (State.clean_of_bare hbare hclean), State.pageFor, ← hgen]
    rfl
  simp only [State.makePage, hquota, Bool.false_eq_true, if_false, if_neg (Nat.not_le.mpr hjournal), hspace,
    State.deviceWrite_ready hdesc, State.deviceWrite_ready hdata, hnew, State.kvPage_setKvPage, if_true]
  rfl

/-! ## The commands that make a page (R181, R182, R184) -/

theorem State.kvAlloc_makes {i a m : Nat} (hc : q.cell = some c) (hslot : s.kvSlot q.ctx q.slot = none)
    (hquota : s.overQuota q.ctx 2 (kvPageBytes q.fmt + 264 + 8) = false) (hjournal : (s.kvJournal q.ctx).length < journalMax)
    (hspace : s.kvSpace q.fmt = some (i, a, m)) (hdesc : s.deviceReady q (s.descAddr i) 32 s1)
    (hdata : s1.deviceReady q a (kvPageBytes q.fmt) s2) (hclean : s.clean) (cmd : Instr) :
    let pg := s.pageFor q i a m q.fmt 0 q.word2 0xFFFFFFFF
    ∃ u : State, s.kvAlloc cmd q = u.cellResult c (kvResult Code.OK (kvId i pg)) ∧
      s.pageMade u i pg (List.replicate (kvPageBytes q.fmt) 0) := by
  intro pg
  obtain ⟨u, hmake, hu⟩ := State.makePage_makes hslot hquota hjournal hspace hdesc hdata hclean cmd 0 q.word2 0xFFFFFFFF
    (List.replicate (kvPageBytes q.fmt) 0) fun i s => (s.kvCount i).kvAnswer q Code.OK (kvId i (s.kvPage i))
  refine ⟨u.kvCount i, ?_, hu.of_bare (u.bare_addF ..)⟩
  rw [State.kvAlloc, hslot, Option.isSome_none, if_neg Bool.false_ne_true, hmake, hu.page, State.kvAnswer_ok_cell hc]

/-- A program's reference released is off its journal now; the page's own count is the Lull's to lower (R186). -/
theorem State.releaseRef_program (s : State) (hc : q.cell = some c) (id : Nat) :
    (s.releaseRef q id).kv = (s.setKvHeld q.ctx id (s.kvHeld q.ctx id - 1)).kv ∧ (s.releaseRef q id).cores = s.cores ∧
      (s.releaseRef q id).mem.hbm = s.mem.hbm := by
  have hu : q.uid = some c.job := by simp [PortCmd.uid, hc]
  have hbare : (s.releaseRef q id).bare = (s.setKvHeld q.ctx id (s.kvHeld q.ctx id - 1)).bare := by
    simp only [State.releaseRef, hu, State.bare_addEffect]
  have hview := State.pageView_of_bare hbare
  refine ⟨State.kv_of_pageView hview, ?_, ?_⟩
  · rw [State.cores_of_pageView hview]
    rfl
  · rw [State.hbmBytes_of_bare hbare]
    rfl

/-- A program's COPY: its page has the contents of the one it names. -/
theorem State.kvCopy_makes {k i a m : Nat} {pg : KvPage} (hc : q.cell = some c) (hslot : s.kvSlot q.ctx q.slot = none)
    (hheld : s.kvHeld q.ctx q.page ≠ 0) (hnamed : s.kvNamed q.page = some (k, pg)) (hstate : pg.state = 2)
    (hpending : pg.sealPending = false ∨ pg.owner = q.ctx) (hpins : pg.pins < 65535) (hclean : s.clean) {r : List Byte × State}
    (hr : r = (s.touch pg.address (kvPageBytes pg.format) false).hbmRead pg.address (kvPageBytes pg.format))
    (hquota : r.2.overQuota q.ctx 2 (kvPageBytes pg.format + 264 + 8) = false) (hjournal : (r.2.kvJournal q.ctx).length < journalMax)
    (hspace : r.2.kvSpace pg.format = some (i, a, m)) (hdesc : r.2.deviceReady q (r.2.descAddr i) 32 s1)
    (hdata : s1.deviceReady q a (kvPageBytes pg.format) s2) (cmd : Instr) :
    let new := s.pageFor q i a m pg.format pg.fill pg.firstPos q.page
    ∃ u : State, s.kvCopy cmd q = u.cellResult c (kvResult Code.OK (kvId i new)) ∧ u.kvSlot q.ctx q.slot = some (i, new) ∧
      u.mem.hbm = storeSetRun zeroByte s.mem.hbm a (s.hbm pg.address (kvPageBytes pg.format)) := by
  intro new
  have htouch : r.2.bare = s.bare ∧ r.1 = s.hbm pg.address (kvPageBytes pg.format) := by
    have hb := s.bare_touch pg.address (kvPageBytes pg.format) false
    rw [hr, State.hbmRead, State.openRange_clean (State.clean_of_bare hb hclean)]
    exact ⟨hb, by rw [State.hbm, State.hbmBytes_of_bare hb]; rfl⟩
  obtain ⟨hbare, hcontents⟩ := htouch
  have hkv := State.kv_of_pageView (State.pageView_of_bare hbare)
  obtain ⟨u, hmake, hu⟩ := State.makePage_makes ((State.kvSlot_of_kv hkv ..).trans hslot) hquota hjournal hspace hdesc hdata
    (State.clean_of_bare hbare hclean) cmd pg.fill pg.firstPos q.page r.1 fun j s =>
      let s := ((s.kvCount k).addP (P.MEM_KVU_COPY_BYTES (k % 4)) (kvPageBytes pg.format)).releaseRef q q.page
      s.kvAnswer q Code.OK (kvId j (s.kvPage j))
  have hnew : r.2.pageFor q i a m pg.format pg.fill pg.firstPos q.page = new := by
    rw [State.pageFor, State.kvPage_of_kv hkv]
    rfl
  rw [hnew] at hu
  have hwait : (pg.sealPending && pg.owner ≠ q.ctx) = false := by
    rcases hpending with h | h <;> simp [h]
  have hcopy : s.kvCopy cmd q =
      let v := ((u.kvCount k).addP (P.MEM_KVU_COPY_BYTES (k % 4)) (kvPageBytes pg.format)).releaseRef q q.page
      v.cellResult c (kvResult Code.OK (kvId i (v.kvPage i))) := by
    simp only [State.kvCopy, hslot, Option.isSome_none, Bool.false_eq_true, if_false, if_neg hheld, hnamed, hwait, hstate,
      Nat.reduceEqDiff, ne_eq, not_true_eq_false, if_neg (Nat.not_le.mpr hpins), ← hr]
    exact hmake.trans (State.kvAnswer_ok_cell hc _)
  have hv : ((u.kvCount k).addP (P.MEM_KVU_COPY_BYTES (k % 4)) (kvPageBytes pg.format)).bare = u.bare := by
    rw [State.bare_addP, State.kvCount, State.bare_addF]
  generalize (u.kvCount k).addP (P.MEM_KVU_COPY_BYTES (k % 4)) (kvPageBytes pg.format) = v at hcopy hv
  have hvkv := State.kv_of_pageView (State.pageView_of_bare hv)
  obtain ⟨hrelkv, -, hrelbytes⟩ := v.releaseRef_program hc q.page
  have hpage : (v.releaseRef q q.page).kvPage i = new := by
    rw [State.kvPage_of_kv hrelkv, State.kvPage_setKvHeld, State.kvPage_of_kv hvkv, hu.page]
  refine ⟨v.releaseRef q q.page, hpage ▸ hcopy, ?_, ?_⟩
  · rw [State.kvSlot_of_kv hrelkv, State.kvSlot_setKvHeld, State.kvSlot_of_kv hvkv]
    exact hu.inSlot
  · rw [hrelbytes, State.hbmBytes_of_bare hv, ← hcontents, ← State.hbmBytes_of_bare hbare]
    exact hu.bytes

end

/-! ## SEAL (R184, R187) -/

section
variable {s s1 s2 : State} {q : PortCmd} {c : Cell}

theorem length_kvFold (x : List Nat) : (kvFold x).length = 128 := by simp [kvFold]

theorem State.length_kvSummary (s : State) (pg : KvPage) (fill : Nat) : (s.kvSummary pg fill).length = 264 := by
  have hsums (l : List (List Nat)) (hl : ∀ x ∈ l, x.length = 128) :
      (l.foldl (fun a x => (a.zip x).map fun (u, v) => (fpAdd u v).1) (List.replicate 128 0)).length = 128 :=
    List.foldlRecOn (motive := fun a : List Nat => a.length = 128) l _ (by simp)
      fun a ha x hx => by rw [List.length_map, List.length_zip, ha, hl x hx, Nat.min_self]
  simp only [State.kvSummary, List.length_append, length_leBytes]
  rw [length_flatten_of_equal (c := 2) (by simp), List.length_map, List.length_map, hsums _ (by simp [length_kvFold])]

theorem State.kvSummary_of_hbm {s t : State} (h : t.mem.hbm = s.mem.hbm) (pg : KvPage) (fill : Nat) :
    t.kvSummary pg fill = s.kvSummary pg fill := by simp only [State.kvSummary, State.kvKey, State.hbm, h]

/-- A page whose summary has been written and whose descriptor says it is sealed. -/
def State.sealPage (s : State) (q : PortCmd) (i : Nat) (pg : KvPage) (summary : List Byte) : State :=
  (((s.setHbm pg.summary summary).setKvPage i { pg with fill := q.word2, state := 2, sealPending := true, slot := 0xFF }).noteEffect q
    (.kvSeal i q.slot pg.fill)).kvCount i

theorem State.sealPage_seals {s w : State} (hbare : w.bare = s.bare) (hclean : s.clean) (q : PortCmd) (i : Nat) (pg : KvPage)
    (bs : List Byte) :
    (∀ k, (w.sealPage q i pg bs).kvPage k =
      if k = i then { pg with fill := q.word2, state := 2, sealPending := true, slot := 0xFF } else s.kvPage k) ∧
    (w.sealPage q i pg bs).mem.hbm = storeSetRun zeroByte s.mem.hbm pg.summary bs := by
  have hput : (w.sealPage q i pg bs).bare =
      ((w.setHbm pg.summary bs).setKvPage i { pg with fill := q.word2, state := 2, sealPending := true, slot := 0xFF }).bare := by
    rw [State.sealPage, State.kvCount, State.bare_addF, State.bare_noteEffect]
  rw [State.setHbm_clean (State.clean_of_bare hbare hclean)] at hput
  refine ⟨fun k => ?_, ?_⟩
  · rw [State.kvPage_of_kv (State.kv_of_pageView (State.pageView_of_bare hput)), State.kvPage_setKvPage]
    by_cases hk : k = i
    · rw [if_pos hk, if_pos hk]
    · rw [if_neg hk, if_neg hk]
      exact State.kvPage_of_kv (State.kv_of_pageView (State.pageView_of_bare hbare)) k
  · rw [State.hbmBytes_of_bare hput, ← State.hbmBytes_of_bare hbare]
    rfl

theorem State.kvSeal_seals {i : Nat} {pg : KvPage} (hc : q.cell = some c) (hpage : s.slotPage q.ctx q.slot = some (i, pg))
    (hstate : pg.state = 1) (hdesc : s.deviceReady q (s.descAddr i) 32 s1) (hsum : s1.deviceReady q pg.summary 264 s2)
    (hclean : s.clean) (cmd : Instr) :
    ∃ w : State, w.bare = s.bare ∧
      s.kvSeal cmd q = (w.sealPage q i pg (s.kvSummary pg q.word2)).cellResult c (kvResult Code.OK (kvId i pg)) := by
  have hbare1 := State.deviceReady_bare hdesc hclean
  have hread : (s2.touch pg.address (q.word2 * kvKRow pg.format) false).bare = s.bare :=
    (s2.bare_touch ..).trans ((State.deviceReady_bare hsum (State.clean_of_bare hbare1 hclean)).trans hbare1)
  refine ⟨(s2.touch pg.address (q.word2 * kvKRow pg.format) false).touch pg.summary 264 true, (State.bare_touch ..).trans hread, ?_⟩
  have hsummary := State.kvSummary_of_hbm (State.hbmBytes_of_bare hread) pg q.word2
  simp only [State.kvSeal, hpage, hstate, State.poisoned_clean hclean, Bool.or_false, decide_eq_true_eq, Nat.reduceEqDiff, if_false,
    State.deviceWrite_ready hdesc, State.deviceWrite_ready hsum, hsummary, State.kvAnswer_ok_cell hc, State.sealPage]

end

/-! ## References counted (R185, R186) -/

section
variable {s s1 : State} {q : PortCmd} {i : Nat} {pg : KvPage}

theorem State.kvGain_named (h : s.kvNamed q.page = some (i, pg)) :
    s.kvGain q.ctx q.page = (s.setKvPage i { pg with refs := pg.refs + 1 }).setKvHeld q.ctx q.page (s.kvHeld q.ctx q.page + 1) := by
  simp only [State.kvGain, h]

/-- A page that keeps a reference is only counted down. -/
theorem State.kvDrop_named (h : s.kvNamed q.page = some (i, pg)) (hrefs : 2 ≤ pg.refs) :
    s.kvDrop q.page 1 = s.setKvPage i { pg with refs := pg.refs - 1 } := by
  have hmore : pg.refs - 1 ≠ 0 := by omega
  simp [State.kvDrop, h, State.kvSettle, State.kvPage_setKvPage, hmore]

theorem State.kvRetain_gains (hnamed : s.kvNamed q.page = some (i, pg)) (hstate : pg.state = 2)
    (hpending : pg.sealPending = false ∨ pg.owner = q.ctx) (hrefs : pg.refs < 65535) (hheld : s.kvHeld q.ctx q.page < 65535)
    (hpriv : s.privPage pg = false ∨ pg.owner = q.ctx) (hjournal : (s.kvJournal q.ctx).length < journalMax)
    (hdesc : s.deviceReady q (s.descAddr i) 32 s1) (cmd : Instr) :
    s.kvRetain cmd q =
      (((s1.kvCount i).kvGain q.ctx q.page).noteEffect q (.kvRetain q.page)).kvAnswer q Code.OK q.page := by
  have hwait : (pg.sealPending && pg.owner ≠ q.ctx) = false := by
    rcases hpending with h | h <;> simp [h]
  have hauth : (s.privPage pg && pg.owner ≠ q.ctx) = false := by
    rcases hpriv with h | h <;> simp [h]
  have hsat : (65535 ≤ pg.refs || 65535 ≤ s.kvHeld q.ctx q.page) = false := by simp [hrefs, hheld]
  have hroom : (s.kvHeld q.ctx q.page = 0 && journalMax ≤ (s.kvJournal q.ctx).length) = false := by simp [hjournal]
  simp only [State.kvRetain, hnamed, hwait, hauth, hsat, hroom, hstate, Bool.false_eq_true, if_false, ne_eq, not_true_eq_false,
    State.deviceWrite_ready hdesc]

theorem State.kvRelease_releases (hheld : s.kvHeld q.ctx q.page ≠ 0) (hdesc : s.deviceReady q (s.descAddr (q.page % 2 ^ 24)) 32 s1)
    (cmd : Instr) : s.kvRelease cmd q = ((s1.kvCount (q.page % 2 ^ 24)).releaseRef q q.page).kvAnswer q Code.OK q.page := by
  rw [State.kvRelease, if_neg hheld, State.deviceWrite_ready hdesc]

end

/-! ## What a served command leaves -/

section
variable {s s1 t : State} {q : PortCmd} {i : Nat} {pg : KvPage}

theorem State.kvCount_pageView (s : State) (i : Nat) : (s.kvCount i).pageView = s.pageView :=
  State.pageView_of_bare (s.bare_addF ..)

/-- The caller has one reference more, and so has the page it names. -/
theorem State.kvGain_counts (hnamed : s.kvNamed q.page = some (i, pg)) (hview : s1.pageView = s.pageView)
    (hkv : t.kv = (s1.kvGain q.ctx q.page).kv) (hcores : t.cores = (s1.kvGain q.ctx q.page).cores) :
    t.kvPage i = { pg with refs := pg.refs + 1 } ∧ t.kvHeld q.ctx q.page = s.kvHeld q.ctx q.page + 1 ∧
      (∀ k, k ≠ i → t.kvPage k = s.kvPage k) ∧ t.cores = s.cores := by
  have hkv1 := State.kv_of_pageView hview
  have hcores1 := State.cores_of_pageView hview
  rw [State.kvGain_named ((State.kvNamed_of_kv hkv1 q.page).trans hnamed)] at hkv hcores
  have hpage (k : Nat) : t.kvPage k = if k = i then { pg with refs := pg.refs + 1 } else s.kvPage k := by
    rw [State.kvPage_of_kv hkv, State.kvPage_setKvHeld, State.kvPage_setKvPage, State.kvPage_of_kv hkv1]
  refine ⟨(hpage i).trans (if_pos rfl), ?_, fun k hk => (hpage k).trans (if_neg hk), hcores.trans hcores1⟩
  rw [State.kvHeld_of_kv hkv, State.kvHeld_setKvHeld_same, State.kvHeld_of_kv hkv1]

/-- The caller has one reference less; the page has, at once, for the host alone (R186). -/
theorem State.releaseRef_counts (hnamed : s.kvNamed q.page = some (i, pg)) (hrefs : 2 ≤ pg.refs) (hview : s1.pageView = s.pageView)
    (hkv : t.kv = (s1.releaseRef q q.page).kv) (hcores : t.cores = (s1.releaseRef q q.page).cores) :
    t.kvHeld q.ctx q.page = s.kvHeld q.ctx q.page - 1 ∧
      t.kvPage i = (if q.cell.isNone then { pg with refs := pg.refs - 1 } else pg) ∧ (∀ k, k ≠ i → t.kvPage k = s.kvPage k) ∧
      t.cores = s.cores := by
  have hkv1 := State.kv_of_pageView hview
  have hcores1 := State.cores_of_pageView hview
  cases hc : q.cell with
  | some c =>
    obtain ⟨-, hpg⟩ := State.kvNamed_parts hnamed
    obtain ⟨hrelkv, hrelcores, -⟩ := s1.releaseRef_program hc q.page
    have hkv := hkv.trans hrelkv
    have hpage (k : Nat) : t.kvPage k = s.kvPage k := by
      rw [State.kvPage_of_kv hkv, State.kvPage_setKvHeld, State.kvPage_of_kv hkv1]
    refine ⟨?_, (hpage i).trans hpg.symm, fun k _ => hpage k, (hcores.trans hrelcores).trans hcores1⟩
    rw [State.kvHeld_of_kv hkv, State.kvHeld_setKvHeld_same, State.kvHeld_of_kv hkv1]
  | none =>
    have hnamed1 : (s1.setKvHeld q.ctx q.page (s1.kvHeld q.ctx q.page - 1)).kvNamed q.page = some (i, pg) := by
      rw [State.kvNamed_setKvHeld, State.kvNamed_of_kv hkv1, hnamed]
    have hu : q.uid = none := by simp [PortCmd.uid, hc]
    have hrel : s1.releaseRef q q.page =
        (s1.setKvHeld q.ctx q.page (s1.kvHeld q.ctx q.page - 1)).setKvPage i { pg with refs := pg.refs - 1 } := by
      simp only [State.releaseRef, hu, State.kvDrop_named hnamed1 hrefs]
    rw [hrel] at hkv hcores
    have hpage (k : Nat) : t.kvPage k = if k = i then { pg with refs := pg.refs - 1 } else s.kvPage k := by
      rw [State.kvPage_of_kv hkv, State.kvPage_setKvPage, State.kvPage_setKvHeld, State.kvPage_of_kv hkv1]
    refine ⟨?_, (hpage i).trans (if_pos rfl), fun k hk => (hpage k).trans (if_neg hk), hcores.trans hcores1⟩
    rw [State.kvHeld_of_kv hkv, State.kvHeld_setKvPage, State.kvHeld_setKvHeld_same, State.kvHeld_of_kv hkv1]

end

/-! ## The obligation -/

/-- A host's command answered without being served: the code in its result register, nothing else of the page units or memory. -/
theorem exec_kvCommand_host {s : State} {op ctx : Nat} {q : PortCmd} (h1 : 1 ≤ op) (h5 : op ≤ 5)
    (hq : s.portCmd .page (.host ctx) = some q) (hop : q.op = op) :
    (s.kvPart.isNone = true → Completes (exec (kvCommand op (.host ctx)) s) fun t =>
      t.getF (F.JOB_CTX_KV_RESULT_STATUS ctx) = Code.KV_TABLE_FULL ∧ t.kv = s.kv ∧ t.mem = s.mem) ∧
    (s.kvPart.isSome = true → kvForm q = false → Completes (exec (kvCommand op (.host ctx)) s) fun t =>
      t.getF (F.JOB_CTX_KV_RESULT_STATUS ctx) = Code.KV_COMMAND_BAD ∧ t.kv = s.kv ∧ t.mem = s.mem) := by
  obtain ⟨body, hrow⟩ := exec_kvCommand s h1 h5 (.host ctx)
  obtain ⟨rfl, hc⟩ := State.portCmd_host hq
  have hcode {code : Nat} (hne : code ≠ Code.KV_REF_UNDERFLOW) (hlt : code < 2 ^ 16) :
      (s.kvAnswer q code q.page).getF (F.JOB_CTX_KV_RESULT_STATUS q.ctx) = code ∧ (s.kvAnswer q code q.page).kv = s.kv ∧
        (s.kvAnswer q code q.page).mem = s.mem := by
    obtain ⟨hstatus, hkv, hmem, -⟩ := State.kvAnswer_host (s := s) hc hne q.page
    exact ⟨hstatus.trans (Nat.mod_eq_of_lt hlt), hkv, hmem⟩
  rw [hrow]
  exact ⟨fun hoff => ⟨_, State.kvRow_off hq hop hoff, hcode (by decide) (by decide)⟩,
    fun hon hform => ⟨_, State.kvRow_badForm hq hop hon hform, hcode (by decide) (by decide)⟩⟩

/-- A program's command answered without being served faults its job. -/
theorem exec_kvCommand_cell_faults {s : State} {op : Nat} {via : Via} {q : PortCmd} {c : Cell} {j : Job} (h1 : 1 ≤ op) (h5 : op ≤ 5)
    (hq : s.portCmd .page via = some q) (hop : q.op = op) (hc : q.cell = some c) (hj : s.jobOf c.job = some j)
    (hbad : s.kvPart.isNone = true ∨ kvForm q = false) :
    Completes (exec (kvCommand op via) s) fun t =>
      t.ctxState j.ctx = 3 ∧ (t.ctx j.ctx).fault = Code.KV_PORT_FAULT ∧ t.jobOf c.job = none := by
  obtain ⟨body, hrow⟩ := exec_kvCommand s h1 h5 via
  rw [hrow]
  cases hon : s.kvPart.isNone with
  | true => exact ⟨_, State.kvRow_off hq hop hon, State.kvAnswer_cell_faults hc hj (by decide) q.page⟩
  | false =>
    have hform : kvForm q = false := hbad.resolve_left (by simp [hon])
    exact ⟨_, State.kvRow_badForm hq hop (by simpa using hon) hform, State.kvAnswer_cell_faults hc hj (by decide) q.page⟩

theorem exec_kvPinResume {s : State} {index : Nat} (hwaits : ∃ w ∈ s.kv.pinWaits, w.1 = index)
    (hpins : (s.kvPage index).pins < 65535) : exec (.kvPinResume index) s = .next { s with
      held := s.held ++ (s.kv.pinWaits.filter fun w => w.1 == index).map (·.2),
      kv.pinWaits := s.kv.pinWaits.filter fun w => w.1 != index } := by
  have hany : (s.kv.pinWaits.any fun w => w.1 == index) = true := by simpa using hwaits
  show execKvPinResume index s = _
  simp [execKvPinResume, hany, hpins]

/-- Settles O39: a command off the page units or out of form is answered by its code; one that is served leaves the page it made, sealed
or counted, and every other page, as the shared rules of the page units say. -/
theorem pageCommandsServeTheirSlots : Obligations.PageCommandsServeTheirSlots := by
  unfold Obligations.PageCommandsServeTheirSlots
  refine ⟨?host, ?cell, ?alloc, ?sealing, ?retain, ?release, ?underflow, ?copy, ?resume⟩
  case host =>
    intro s op ctx q h1 h5 _ hq hop
    exact exec_kvCommand_host h1 h5 hq hop
  case cell =>
    intro s op ctx cell q c j h1 h5 hq hop hc hj _ hbad
    exact exec_kvCommand_cell_faults h1 h5 hq hop hc hj hbad
  case alloc =>
    intro s s1 s2 via q c i a m hq hop hc hon hform hslot hquota hjournal hspace hdesc hdata hclean
    obtain ⟨u, halloc, hu⟩ := State.kvAlloc_makes hc hslot hquota hjournal hspace hdesc hdata hclean (.kvAlloc via)
    obtain ⟨hbytes, hkept⟩ := State.hbm_of_written hu.bytes List.length_replicate
    refine ⟨_, (State.kvRow_serves hq hop hon hform).trans (congrArg _ halloc),
      ⟨_, hu.inSlot, rfl, rfl, rfl, rfl, rfl, rfl, rfl, hu.held, _, State.cell_cellResult .., rfl, rfl⟩, hbytes, hkept, hu.others, hu.cores⟩
  case sealing =>
    intro s s1 s2 via q c i pg hq hop hc hon hform hpage hstate hdesc hsum hclean
    obtain ⟨w, hbare, hseal⟩ := State.kvSeal_seals hc hpage hstate hdesc hsum hclean (.kvSeal via)
    obtain ⟨hpages, hwritten⟩ := State.sealPage_seals hbare hclean q i pg (s.kvSummary pg q.word2)
    obtain ⟨hbytes, hkept⟩ := State.hbm_of_written hwritten (s.length_kvSummary pg q.word2)
    exact ⟨_, (State.kvRow_serves hq hop hon hform).trans (congrArg _ hseal), (hpages i).trans (if_pos rfl), hbytes, hkept,
      fun k hk => (hpages k).trans (if_neg hk), _, State.cell_cellResult .., rfl, rfl⟩
  case retain =>
    intro s s1 via q i pg hq hop hon hform hnamed hstate hpending hrefs hheld hpriv hjournal hdesc
    have hview := (s1.kvCount_pageView i).trans (State.deviceReady_pageView hdesc)
    have hnote := State.pageView_of_bare (State.bare_noteEffect ((s1.kvCount i).kvGain q.ctx q.page) q (.kvRetain q.page))
    obtain ⟨hkv, hcores⟩ := State.kvAnswer_ok_keeps
      (s := ((s1.kvCount i).kvGain q.ctx q.page).noteEffect q (.kvRetain q.page)) (q := q) q.page
    exact ⟨_, (State.kvRow_serves hq hop hon hform).trans (congrArg _
        (State.kvRetain_gains hnamed hstate hpending hrefs hheld hpriv hjournal hdesc (.kvRetain via))),
      State.kvGain_counts hnamed hview (hkv.trans (State.kv_of_pageView hnote)) (hcores.trans (State.cores_of_pageView hnote))⟩
  case release =>
    intro s s1 via q i pg hq hop hon hform hheld hnamed hrefs hdesc
    obtain ⟨rfl, -⟩ := State.kvNamed_parts hnamed
    have hview := (s1.kvCount_pageView (q.page % 2 ^ 24)).trans (State.deviceReady_pageView hdesc)
    obtain ⟨hkv, hcores⟩ := State.kvAnswer_ok_keeps (s := (s1.kvCount (q.page % 2 ^ 24)).releaseRef q q.page) (q := q) q.page
    exact ⟨_, (State.kvRow_serves hq hop hon hform).trans (congrArg _ (State.kvRelease_releases hheld hdesc (.kvRelease via))),
      State.releaseRef_counts hnamed hrefs hview hkv hcores⟩
  case underflow =>
    intro s via q c j hq hop hc hon hform hheld hj _
    have hrel : s.kvRelease (.kvRelease via) q = s.kvAnswer q Code.KV_REF_UNDERFLOW q.page := if_pos hheld
    exact ⟨_, (State.kvRow_serves hq hop hon hform).trans (congrArg _ hrel), State.kvAnswer_cell_faults hc hj (by decide) q.page⟩
  case copy =>
    intro s s1 s2 via q c k i a m pg hq hop hc hon hform hslot hheld hnamed hstate hpending hpins hclean hroom hdata
    obtain ⟨hquota, hjournal, hspace, hdesc⟩ := hroom
    obtain ⟨u, hcopy, hinSlot, hwritten⟩ := State.kvCopy_makes hc hslot hheld hnamed hstate hpending hpins hclean rfl hquota hjournal
      hspace hdesc hdata (.kvCopy via)
    obtain ⟨hbytes, hkept⟩ := State.hbm_of_written hwritten (s.length_hbm ..)
    exact ⟨_, (State.kvRow_serves hq hop hon hform).trans (congrArg _ hcopy),
      ⟨_, hinSlot, rfl, rfl, rfl, rfl, rfl, rfl⟩, hbytes, hkept⟩
  case resume =>
    intro s index hwaits hpins
    exact exec_kvPinResume hwaits hpins

end Sys2Proof.Machine
end

section
/-! The marks of poisoned units (R215): of all that the discovery of an error sets going, replays, discards, job faults, banking messages
and lost pages, nothing takes a mark away. -/

namespace Sys2Proof.Machine

open Sys2Proof

/-! ## Updates that leave memory -/

section
variable (s : State)

/-- A log entry changes registers and may leave for the host; one that cannot waits in the staging buffer (R290, R370). -/
theorem State.logFull_eq (code source : Nat) (ctx : Option Nat) (action : Bool) (d0 d1 : Nat) :
    s.logFull code source ctx action d0 d1 = { s with
      regs := (s.logFull code source ctx action d0 d1).regs
      out := (s.logFull code source ctx action d0 d1).out
      host.dma := (s.logFull code source ctx action d0 d1).host.dma } := by
  have hset (t : State) (g : Nat → Nat) (w : Nat → Word) (l : List Nat) :
      ∃ r, l.foldl (fun s i => s.setReg (g i) (w i)) t = { t with regs := r } :=
    List.foldlRecOn (motive := fun u : State => ∃ r, u = { t with regs := r }) l _ ⟨_, rfl⟩ fun u ⟨_, hu⟩ _ _ => by
      rw [hu]
      exact ⟨_, rfl⟩
  unfold State.logFull
  extract_lets seq fl bytes slot t u base v
  obtain ⟨r, ht⟩ : ∃ r, t = { s with regs := r } := hset ..
  have hv : ∃ r o d, v = { s with regs := r, out := o, host.dma := d } := by
    unfold v u
    rw [ht]
    split
    · exact ⟨_, _, _, rfl⟩
    · unfold State.hostRecord
      split
      · unfold State.hostWrite
        dsimp only
        split <;> exact ⟨_, _, _, rfl⟩
      · exact ⟨_, _, _, rfl⟩
  obtain ⟨_, _, _, hv⟩ := hv
  rw [v.raise_regs, hv]

@[simp] theorem State.logFull_mem (code source : Nat) (ctx : Option Nat) (action : Bool) (d0 d1 : Nat) :
    (s.logFull code source ctx action d0 d1).mem = s.mem := by rw [State.logFull_eq]

@[simp] theorem State.log_mem (code source : Nat) (ctx : Option Nat) (d0 d1 : Nat) : (s.log code source ctx d0 d1).mem = s.mem :=
  s.logFull_mem ..

@[simp] theorem State.log_job (code source : Nat) (ctx : Option Nat) (d0 d1 : Nat) : (s.log code source ctx d0 d1).job = s.job := by
  rw [State.log, State.logFull_eq]

@[simp] theorem State.log_cores (code source : Nat) (ctx : Option Nat) (d0 d1 : Nat) :
    (s.log code source ctx d0 d1).cores = s.cores := by
  rw [State.log, State.logFull_eq]

@[simp] theorem State.raise_mem (n : Nat) : (s.raise n).mem = s.mem := by rw [State.raise_regs]

@[simp] theorem State.raise_cores (n : Nat) : (s.raise n).cores = s.cores := by rw [State.raise_regs]

@[simp] theorem State.showAlert_mem : s.showAlert.mem = s.mem := by
  unfold State.showAlert
  dsimp only
  split <;> rfl

@[simp] theorem State.enter_mem (st : Nat) : (s.enter st).mem = s.mem := by
  unfold State.enter
  dsimp only
  split
  · rfl
  · split <;> simp

@[simp] theorem State.settleDevice_mem : s.settleDevice.mem = s.mem := by
  simp only [State.settleDevice, apply_ite State.mem, State.enter_mem, ite_self]

@[simp] theorem State.showJobs_mem : s.showJobs.mem = s.mem := by simp [State.showJobs, State.showFree]

@[simp] theorem State.withdrawNotice_mem (c code : Nat) : (s.withdrawNotice c code).mem = s.mem := by
  unfold State.withdrawNotice
  split <;> rfl

@[simp] theorem State.completeNotice_mem (n : Notice) (code : Nat) : (s.completeNotice n code).mem = s.mem := by
  simp [State.completeNotice, State.ackNotice, State.answerNotice]

@[simp] theorem State.settleChan_mem (c : Nat) : (s.settleChan c).mem = s.mem := by
  unfold State.settleChan
  dsimp only
  split
  · split <;> simp
  · split
    · rfl
    · split <;> simp

@[simp] theorem State.settleMail_mem (i : Nat) : (s.settleMail i).mem = s.mem := by
  unfold State.settleMail
  split
  · rfl
  · exact foldl_kept State.mem (fun _ _ t => t.settleChan_mem _) s

@[simp] theorem State.setIsland_mem (i st : Nat) : (s.setIsland i st).mem = s.mem := by
  simp only [State.setIsland, State.settleMail_mem, State.putF_mem, apply_ite State.mem, ite_self]

@[simp] theorem State.kvSettle_mem (i : Nat) : (s.kvSettle i).mem = s.mem := by
  unfold State.kvSettle
  dsimp only
  split
  · rfl
  · split <;> rfl

@[simp] theorem State.kvDrop_mem (id n : Nat) : (s.kvDrop id n).mem = s.mem := by
  unfold State.kvDrop
  split <;> simp

@[simp] theorem State.setKvHeld_mem (ctx id n : Nat) : (s.setKvHeld ctx id n).mem = s.mem := rfl

@[simp] theorem State.unpinScan_mem (o : Option Scan) : (s.unpinScan o).mem = s.mem := by
  unfold State.unpinScan
  split
  · split
    · exact foldl_kept State.mem (fun i _ t => by simp [State.kvUnpin]) s
    · rfl
  · rfl

@[simp] theorem State.freeSlot_mem (slot : Nat) : (s.freeSlot slot).mem = s.mem := rfl

@[simp] theorem State.unleave_mem (slot : Nat) : (s.unleave slot).mem = s.mem := by
  unfold State.unleave
  split <;> rfl

@[simp] theorem State.mapPin_mem (slot ctx va : Nat) (m : Bool) : (s.mapPin slot ctx va m).mem = s.mem := by
  unfold State.mapPin
  split <;> rfl

@[simp] theorem State.tryEvict_mem (slot : Nat) : (s.tryEvict slot).mem = s.mem := by
  unfold State.tryEvict
  split
  · split <;> rfl
  · rfl

@[simp] theorem State.dropPin_mem (slot : Nat) (pin : Pin) : (s.dropPin slot pin).mem = s.mem := by
  unfold State.dropPin
  split
  · rfl
  · dsimp only
    split <;> simp

@[simp] theorem State.freeStream_mem (slot : Nat) : (s.freeStream slot).mem = s.mem := by
  unfold State.freeStream
  split <;> rfl

@[simp] theorem State.undoStream_mem (uid : Nat) (v : Stream) : (State.undoStream uid s v).mem = s.mem := by
  unfold State.undoStream
  split
  · simp
  · dsimp only
    split
    · split <;> simp
    · simp

@[simp] theorem State.undoStreams_mem (uid : Nat) : (s.undoStreams uid).mem = s.mem :=
  foldl_kept State.mem (fun v _ t => t.undoStream_mem uid v) s

@[simp] theorem State.dropWindows_mem (o : SyncObj) : (s.dropWindows o).mem = s.mem := by
  unfold State.dropWindows
  split
  · exact foldl_kept State.mem (fun n _ t => t.addF_mem _ _) _
  · rfl

@[simp] theorem State.clearObjs_mem (ctx : Nat) (gone : SyncObj → Bool) : (s.clearObjs ctx gone).mem = s.mem := by
  simp only [State.clearObjs, State.syncShow, State.putF_mem]
  exact foldl_kept State.mem (fun o _ t => t.dropWindows_mem o) s

@[simp] theorem State.dropScan_mem (p : Nat) (o : Option Scan) : (s.dropScan p o).mem = s.mem := by simp [State.dropScan]

@[simp] theorem State.releaseCore_mem (p : Nat) : (s.releaseCore p).mem = s.mem := by
  unfold State.releaseCore
  dsimp only
  split <;> simp

@[simp] theorem State.restoreCore_mem (p : Nat) : (s.restoreCore p).mem = s.mem := by
  unfold State.restoreCore
  split
  · rfl
  · simp

@[simp] theorem State.undoShow_mem : s.undoShow.mem = s.mem := rfl

@[simp] theorem State.resumeVictim_mem (uid : Nat) : (s.resumeVictim uid).mem = s.mem := by
  unfold State.resumeVictim
  split
  · split
    · rw [State.showJobs_mem, State.setJob_mem]
      exact foldl_kept State.mem (fun p _ t => by simp) s
    · rfl
  · rfl

@[simp] theorem State.resumeVictims_mem : s.resumeVictims.mem = s.mem :=
  foldl_kept State.mem (fun j _ t => t.resumeVictim_mem j.uid) s

@[simp] theorem State.refuseFetches_mem (ctx code : Nat) : (s.refuseFetches ctx code).mem = s.mem := by
  have hdecide (t : State) (n : Nat) : (t.decideSub ctx n 0 code).mem = t.mem := by
    unfold State.decideSub
    dsimp only
    split <;> split <;> simp
  exact foldl_kept State.mem (fun f _ t => hdecide t f.number) s

/-! ## Frames sent (R257, R304) -/

@[simp] theorem State.wakePort_mem (p : Nat) : (s.wakePort p).mem = s.mem := by
  unfold State.wakePort
  split
  · rfl
  · simp

/-- Wherever the router sends a frame, memory stays as it is. -/
@[simp] theorem State.route_mem (again : Bool) (c : Carried) : (State.route again s c).mem = s.mem := by
  unfold State.route
  split
  case h_1 =>
    unfold State.deliver
    split <;> rfl
  case h_2 =>
    dsimp only
    split <;> simp
  case h_3 =>
    dsimp only
    split <;> rfl
  case h_4 => simp [State.dropFrame]
  case h_5 => rfl

@[simp] theorem State.bankSend_mem (dest op step unit : Nat) (data : List Byte) : (s.bankSend dest op step unit data).mem = s.mem :=
  State.route_mem ..

@[simp] theorem State.requestUnit_mem (u : Nat) : (s.requestUnit u).mem = s.mem := by
  unfold State.requestUnit
  split
  · rfl
  · split
    · rfl
    · exact foldl_kept State.mem (fun p _ t => t.bankSend_mem ..) _

@[simp] theorem State.kvDamage_mem (addr : Nat) (banked : Bool) : (s.kvDamage addr banked).mem = s.mem := by
  unfold State.kvDamage
  split
  · rfl
  · dsimp only
    split <;> simp

/-! ## Discards and faults -/

/-- A unit's old contents come back with the undo of a step; the marks stay (R299). -/
@[simp] theorem State.undo_poison (ctx : Nat) (e : Effect) : (State.undo ctx s e).mem.poison = s.mem.poison := by
  cases e with
  | memory u old => rfl
  | tierWriteBack slot =>
    unfold State.undo
    dsimp only
    split <;> rfl
  | _ => simp [State.undo]

@[simp] theorem State.discardStep_poison (uid : Nat) (phase : JobPhase) : (s.discardStep uid phase).mem.poison = s.mem.poison := by
  unfold State.discardStep
  split
  · rfl
  · split
    · rfl
    · simp only [State.showJobs_mem, State.resumeVictims_mem, State.undoShow_mem, State.setJob_mem, apply_ite State.mem,
        State.putF_mem, ite_self, State.clearObjs_mem]
      refine (foldl_kept (fun t : State => t.mem.poison) (fun p _ t => ?_) _).trans ?_
      · cases (t.core p).saved <;> simp [apply_ite State.mem]
      · rw [State.undoStreams_mem]
        exact foldl_kept (fun t : State => t.mem.poison) (fun e _ t => t.undo_poison _ e) s

@[simp] theorem State.endOne_poison (code : Nat → Nat) (j : Job) : (State.endOne code s j).mem.poison = s.mem.poison := by
  unfold State.endOne
  dsimp only
  split
  · exact s.discardStep_poison ..
  · exact s.discardStep_poison ..

@[simp] theorem State.jobFault_poison (uid code index kind logical : Nat) :
    (s.jobFault uid code index kind logical).mem.poison = s.mem.poison := by
  cases hj : s.jobOf uid with
  | none => simp only [State.jobFault, hj]
  | some j =>
    rw [State.jobFault_of_job hj, State.showJobs_mem, State.putF_mem, State.setCtx_mem, State.endJobs_eq]
    exact foldl_kept (fun t : State => t.mem.poison) (fun x _ t => t.endOne_poison _ x) s

@[simp] theorem State.replayStep_poison (uid source : Nat) : (s.replayStep uid source).mem.poison = s.mem.poison := by
  unfold State.replayStep
  split
  · rfl
  · split
    · rfl
    · dsimp only
      split <;> split <;> simp

@[simp] theorem State.ctxFault_poison (ctx code : Nat) : (s.ctxFault ctx code).mem.poison = s.mem.poison := by
  unfold State.ctxFault
  split
  · rfl
  · split <;> simp

@[simp] theorem State.saveDamage_poison (l : Nat) : (s.saveDamage l).mem.poison = s.mem.poison :=
  foldl_kept (fun t : State => t.mem.poison) (fun _ _ t => t.replayStep_poison ..) s

/-- What follows from poison, by the partition it lies in (Table MEM-6), takes no mark away. -/
@[simp] theorem State.poisonFound_poison (addr : Nat) : (s.poisonFound addr).mem.poison = s.mem.poison := by
  unfold State.poisonFound
  split
  · exact s.saveDamage_poison _
  · split
    · rfl
    · split
      · rfl
      · split
        · rw [State.kvDamage_mem]
        · split
          · rw [State.requestUnit_mem]
          · split
            · split
              · exact s.ctxFault_poison ..
              · rfl
            · rfl

/-! ## Uncorrectable errors of HBM (R215, R217) -/

theorem State.hbmError_poison (addr pch : Nat) :
    (s.hbmError addr pch).mem.poison = storeSet noPoison s.mem.poison (addr / 64) true := by
  simp [State.hbmError, State.poisonUnit]

@[simp] theorem State.fence_poison (pch : Nat) : (s.fence pch).mem.poison = s.mem.poison := by
  unfold State.fence
  refine (foldl_kept (fun t : State => t.mem.poison) (fun e _ t => ?_) _).trans (by simp)
  split
  · exact t.poisonFound_poison _
  · rfl

/-- The error's unit is marked, and no other mark changes, fenced or not. -/
theorem State.hbmUncorrectable_poison (addr pch row : Nat) :
    (s.hbmUncorrectable addr pch row).mem.poison = storeSet noPoison s.mem.poison (addr / 64) true := by
  unfold State.hbmUncorrectable
  extract_lets t m u
  have hu : u.mem.poison = storeSet noPoison s.mem.poison (addr / 64) true := s.hbmError_poison addr pch
  split
  · exact (u.fence_poison pch).trans hu
  · exact hu

end

end Sys2Proof.Machine
end

section
/-! Patrol, temperature, regulators and the traffic generators (R211, R212, R214, R219): what each leaves of registers and memory, and the
obligation of chapter 11 on them. -/

namespace Sys2Proof.Machine

open Sys2Proof

/-! ## Registers beyond the log -/

section
variable (s : State)

/-- A record for the host leaves, waits or is lost and counted (R370). -/
theorem State.reg_hostRecord {o : Nat} (ho : o ≠ F.GLB_DMA_RECORDS_LOST_COUNT.off) (cls : Nat) (ctx uid : Option Nat) (addr : Nat)
    (bs : List Byte) : (s.hostRecord cls ctx uid addr bs).reg o = s.reg o := by
  unfold State.hostRecord
  split
  · unfold State.hostWrite
    dsimp only
    split <;> rfl
  · exact s.reg_putF_other _ ho

/-- The log's registers, the interrupt it raises and the count of lost records lie below the memory's registers (Table REL-2). -/
theorem State.reg_log_above {o : Nat} (ho : 0x1018000 ≤ o) (code source : Nat) (ctx : Option Nat) (d0 d1 : Nat) :
    (s.log code source ctx d0 d1).reg o = s.reg o := by
  unfold State.log State.logFull
  extract_lets seq fl bytes slot t u base v
  have ht : t.reg o = s.reg o := foldl_kept (fun x : State => x.reg o) (fun i hi x => x.reg_setReg_other _ (by
    have hi := List.mem_range.mp hi
    have hslot : slot < 1024 := Nat.mod_lt _ (by decide)
    simp only [R.REL_LOG_ENTRY]
    omega)) s
  have hu : u.reg o = s.reg o := (t.reg_putF_other _ (by simp only [F.REL_LOG_SEQ_COUNT]; omega)).trans ht
  have hv : v.reg o = u.reg o := by
    unfold v
    split
    · rfl
    · exact u.reg_hostRecord (by simp only [F.GLB_DMA_RECORDS_LOST_COUNT]; omega) ..
  rw [v.raise_reg_other 1 o (by omega), hv, hu]

theorem State.getF_log_above {f : Fld} (hf : 0x1018000 ≤ f.off) (code source : Nat) (ctx : Option Nat) (d0 d1 : Nat) :
    (s.log code source ctx d0 d1).getF f = s.getF f := by
  simp only [State.getF, s.reg_log_above hf]

/-! ## Patrol (R214, R215) -/

/-- A counter that fills its register wraps at 2^32, and nothing else changes with it. -/
theorem State.addF_counts {f : Fld} (hf : f.lo = 0 ∧ f.hi = 31) :
    (s.addF f 1).getF f = (s.getF f + 1) % 2 ^ 32 ∧ s.onlyRegs (s.addF f 1) [f.off] := by
  obtain ⟨hlo, hhi⟩ := hf
  have hok : f.ok := by simp [Fld.ok, hlo, hhi]
  exact ⟨(s.getF_addF_same 1 hok).trans (by rw [hlo, hhi]), State.onlyRegs_addF State.onlyRegs_refl 1 (by simp)⟩

/-- A new error of a row adds at most one to its errors of the last 24 hours. -/
theorem State.rowErrors_append (l : List (Nat × Nat × Nat)) (pch row t : Nat) :
    s.rowErrors (l ++ [(pch, row, t)]) pch row ≤ s.rowErrors l pch row + 1 := by
  simp only [State.rowErrors, List.filter_append, List.length_append]
  have := List.length_filter_le (fun e : Nat × Nat × Nat => e.1 == pch && e.2.1 == row && s.timeNs - e.2.2 < dayNs) [(pch, row, t)]
  simpa using this

variable {s}

theorem State.hbmCorrected_few {pch row : Nat} (h : s.rowErrors s.mem.ceRows pch row < 3) (addr : Nat) (repair : Bool) :
    s.hbmCorrected addr pch row repair =
      { (s.addF F.MEM_ECC_CE_HBM_COUNT 1).addSatF (F.MEM_PCH_STATUS_CE pch) 1 with
        mem.ceRows := s.mem.ceRows ++ [(pch, row, s.timeNs)] } := by
  have hrow : s.rowErrors (s.mem.ceRows ++ [(pch, row, s.timeNs)]) pch row < 4 :=
    Nat.lt_of_le_of_lt (s.rowErrors_append ..) (Nat.succ_lt_succ h)
  exact if_neg (Nat.not_le.mpr hrow)

/-- A corrected error is counted for the device and, saturating, for its pseudo-channel, and its row is noted. -/
theorem State.hbmCorrected_counts {pch row : Nat} (h : s.rowErrors s.mem.ceRows pch row < 3) (addr : Nat) (repair : Bool) :
    Completes (.next (s.hbmCorrected addr pch row repair)) fun t =>
      t.getF F.MEM_ECC_CE_HBM_COUNT = (s.getF F.MEM_ECC_CE_HBM_COUNT + 1) % 2 ^ 32 ∧
      t.mem.ceRows = s.mem.ceRows ++ [(pch, row, s.timeNs)] ∧ t = { s with regs := t.regs, mem.ceRows := t.mem.ceRows } ∧
      s.regsKept t [F.MEM_ECC_CE_HBM_COUNT.off, (F.MEM_PCH_STATUS_CE pch).off] := by
  have hoff : F.MEM_ECC_CE_HBM_COUNT.off ≠ (F.MEM_PCH_STATUS_CE pch).off := by
    simp only [F.MEM_ECC_CE_HBM_COUNT, F.MEM_PCH_STATUS_CE]
    omega
  have hframe : s.onlyRegs ((s.addF F.MEM_ECC_CE_HBM_COUNT 1).addSatF (F.MEM_PCH_STATUS_CE pch) 1)
      [F.MEM_ECC_CE_HBM_COUNT.off, (F.MEM_PCH_STATUS_CE pch).off] :=
    State.onlyRegs_addSatF (State.onlyRegs_addF State.onlyRegs_refl _ (by simp)) _ (by simp)
  have hcount : ((s.addF F.MEM_ECC_CE_HBM_COUNT 1).addSatF (F.MEM_PCH_STATUS_CE pch) 1).getF F.MEM_ECC_CE_HBM_COUNT =
      (s.getF F.MEM_ECC_CE_HBM_COUNT + 1) % 2 ^ 32 := (State.getF_putF_off _ _ hoff).trans (s.addF_counts (by decide)).1
  rw [State.hbmCorrected_few h]
  refine ⟨_, rfl, ?_⟩
  generalize (s.addF F.MEM_ECC_CE_HBM_COUNT 1).addSatF (F.MEM_PCH_STATUS_CE pch) 1 = w at hframe hcount ⊢
  exact ⟨hcount, rfl, by rw [hframe.1], hframe.2⟩

/-- A clean line with an uncorrectable error leaves the cache, and nothing of HBM follows. -/
theorem State.lineError_clean {x : CacheLine} (h : x.dirty = false) :
    (s.lineError x).mem = { s.mem with cache := s.mem.cache.filter fun y => !(y.die == x.die && y.line == x.line) } ∧
      (s.lineError x).job = s.job := by
  simp [State.lineError, State.sramEvent, h]

theorem exec_patrolScrub (s : State) (target : ScrubTarget) : exec (.patrolScrub target) s = execPatrolScrub target s := rfl

theorem exec_patrolHbm {addr : Nat} (h : addr < 8 * 2 ^ 36) (row errors : Nat) (repair last : Bool) :
    exec (.patrolScrub (.hbm addr row errors repair last)) s = .next (
      let t := if errors = 0 then s else if errors = 1 then s.hbmCorrected addr (s.pchOf addr) row repair
        else s.hbmUncorrectable addr (s.pchOf addr) row
      if last then t.addF F.MEM_SCRUB_PASSES_COUNT 1 else t) := by
  rw [exec_patrolScrub, execPatrolScrub, if_neg (Nat.not_le.mpr h)]

theorem exec_patrolLine {die line : Nat} {x : CacheLine} (h : s.mem.cache.find? (fun y => y.die == die && y.line == line) = some x)
    (errors : Nat) : exec (.patrolScrub (.llm die line errors)) s =
      .next (if errors = 0 then s else if errors = 1 then s.sramCorrected else s.lineError x) := by
  simp only [exec_patrolScrub, execPatrolScrub, h]

theorem exec_patrolSram {core : Nat} (h : core < 1088) (addr : Nat) :
    exec (.patrolScrub (.sram core addr 1)) s = .next (s.addF F.MEM_ECC_CE_SRAM_COUNT 1) := by
  rw [exec_patrolScrub, execPatrolScrub, decide_eq_true h, whenPart_true]
  rfl

/-! ## Temperature (R212) -/

theorem throttleLevel_lt (t was c : Nat) : throttleLevel t was c < 2 ^ 2 := by
  unfold throttleLevel
  split
  · decide
  · split <;> decide

/-- A stack has no warning threshold, and below the trip threshold a reading is only kept (R409 to R411). -/
theorem State.thermal_stack {c : Nat} (h : c < 108) (stack : Nat) : s.thermal 2 stack c = s.noteTemp 2 stack c := by
  simp [State.thermal, State.warn, warnAt, tripAt, Nat.not_le.mpr h]

@[simp] theorem State.getF_noteTemp (s : State) (f : Fld) (kind index c : Nat) : (s.noteTemp kind index c).getF f = s.getF f := rfl

@[simp] theorem State.noteTemp_mem (s : State) (kind index c : Nat) : (s.noteTemp kind index c).mem = s.mem := rfl

@[simp] theorem State.noteTemp_job (s : State) (kind index c : Nat) : (s.noteTemp kind index c).job = s.job := rfl

@[simp] theorem State.noteTemp_cores (s : State) (kind index c : Nat) : (s.noteTemp kind index c).cores = s.cores := rfl

/-- A stack that begins to throttle is told once: logged, and its interrupt raised (R212). -/
def State.thermalEvent (s : State) (stack : Nat) : State := (s.log Code.HBM_THERMAL (unitId 3 stack) none 0 0).raise 4

theorem State.getF_thermalEvent (s : State) {f : Fld} (hf : 0x1018000 ≤ f.off) (stack : Nat) :
    (s.thermalEvent stack).getF f = s.getF f :=
  (State.getF_raise _ 4 (by omega)).trans (s.getF_log_above hf ..)

theorem State.thermalEvent_mem (s : State) (stack : Nat) : (s.thermalEvent stack).mem = s.mem := by simp [State.thermalEvent]

theorem State.thermalEvent_job (s : State) (stack : Nat) : (s.thermalEvent stack).job = s.job := by simp [State.thermalEvent]

theorem State.thermalEvent_cores (s : State) (stack : Nat) : (s.thermalEvent stack).cores = s.cores := by simp [State.thermalEvent]

/-- What a reading stores in the registers of its stack. -/
def State.storeTemp (s : State) (stack c : Nat) : State :=
  let was := s.getF (F.MEM_STACK_STATUS_THROTTLE stack)
  (((if was = 0 then s else s.addF (F.MEM_STACK_THROTTLED_MS stack) 1).putF (F.MEM_STACK_STATUS_THROTTLE stack)
    (throttleLevel (s.getF F.MEM_THERMAL_CONFIG_T_THROTTLE) was c)).putF (F.MEM_STACK_STATUS_TEMP stack) (min c 255))

theorem State.getF_storeTemp_temp {c : Nat} (h : c < 108) (s : State) (stack : Nat) :
    (s.storeTemp stack c).getF (F.MEM_STACK_STATUS_TEMP stack) = c := by
  refine (State.getF_putF_same _ _ (by simp [Fld.ok, F.MEM_STACK_STATUS_TEMP])).trans ?_
  simp only [F.MEM_STACK_STATUS_TEMP]
  omega

theorem State.getF_storeTemp_throttle (s : State) (stack c : Nat) : (s.storeTemp stack c).getF (F.MEM_STACK_STATUS_THROTTLE stack) =
    throttleLevel (s.getF F.MEM_THERMAL_CONFIG_T_THROTTLE) (s.getF (F.MEM_STACK_STATUS_THROTTLE stack)) c := by
  refine (State.getF_putF_apart _ _ (by simp [Fld.ok, F.MEM_STACK_STATUS_TEMP]) (by simp [F.MEM_STACK_STATUS_THROTTLE])
    (by simp [F.MEM_STACK_STATUS_THROTTLE, F.MEM_STACK_STATUS_TEMP])).trans ?_
  exact (State.getF_putF_same _ _ (by simp [Fld.ok, F.MEM_STACK_STATUS_THROTTLE])).trans (Nat.mod_eq_of_lt (throttleLevel_lt ..))

theorem State.storeTemp_keeps (s : State) (stack c : Nat) : (s.storeTemp stack c).mem = s.mem ∧ (s.storeTemp stack c).job = s.job ∧
    (s.storeTemp stack c).cores = s.cores := by
  unfold State.storeTemp
  dsimp only
  split <;> exact ⟨rfl, rfl, rfl⟩

theorem exec_hbmTempRead {stack c : Nat} (hs : stack < 8) (hused : s.stackUsed stack = true) (hc : c < 108) :
    exec (.hbmTempRead stack c) s = .next ((if s.getF (F.MEM_STACK_STATUS_THROTTLE stack) = 0 &&
      throttleLevel (s.getF F.MEM_THERMAL_CONFIG_T_THROTTLE) (s.getF (F.MEM_STACK_STATUS_THROTTLE stack)) c ≠ 0
      then (s.storeTemp stack c).thermalEvent stack else s.storeTemp stack c).noteTemp 2 stack c) := by
  show execHbmTempRead stack c s = _
  simp only [execHbmTempRead, hs, hused, decide_true, whenPart_true, Bool.not_true, Bool.false_eq_true, if_false,
    State.thermal_stack hc]
  rfl

theorem exec_hbmTempRead_unused {stack : Nat} (hs : stack < 8) (hunused : s.stackUsed stack = false) (c : Nat) :
    exec (.hbmTempRead stack c) s = .refused .notDue := by
  show execHbmTempRead stack c s = _
  rw [execHbmTempRead, decide_eq_true hs, whenPart_true, if_pos (by simp [hunused])]

/-- A reading below the trip threshold shows in its stack's status; the rest of what it does is to count and to tell (R212). -/
theorem hbmTempRead_shows {stack c : Nat} (hs : stack < 8) (hused : s.stackUsed stack = true) (hc : c < 108) :
    Completes (exec (.hbmTempRead stack c) s) fun t =>
      t.getF (F.MEM_STACK_STATUS_TEMP stack) = c ∧
      t.getF (F.MEM_STACK_STATUS_THROTTLE stack) =
        throttleLevel (s.getF F.MEM_THERMAL_CONFIG_T_THROTTLE) (s.getF (F.MEM_STACK_STATUS_THROTTLE stack)) c ∧
      t.mem = s.mem ∧ t.job = s.job ∧ t.cores = s.cores := by
  rw [exec_hbmTempRead hs hused hc]
  obtain ⟨hmem, hjob, hcores⟩ := s.storeTemp_keeps stack c
  have htemp := s.getF_storeTemp_temp hc stack
  have hthrottle := s.getF_storeTemp_throttle stack c
  generalize s.storeTemp stack c = w at hmem hjob hcores htemp hthrottle ⊢
  refine ⟨_, rfl, ?_⟩
  simp only [State.getF_noteTemp, State.noteTemp_mem, State.noteTemp_job, State.noteTemp_cores]
  split
  · have hstack : 0x1018000 ≤ (F.MEM_STACK_STATUS_TEMP stack).off := by simp only [F.MEM_STACK_STATUS_TEMP]; omega
    exact ⟨(w.getF_thermalEvent hstack stack).trans htemp,
      (w.getF_thermalEvent (f := F.MEM_STACK_STATUS_THROTTLE stack) hstack stack).trans hthrottle,
      (w.thermalEvent_mem stack).trans hmem, (w.thermalEvent_job stack).trans hjob, (w.thermalEvent_cores stack).trans hcores⟩
  · exact ⟨htemp, hthrottle, hmem, hjob, hcores⟩

/-! ## Regulators (R211) -/

theorem exec_regulatorTokensGrant {part : Nat} (hp : part < 16) (howes : ∃ b ∈ s.mem.buckets, b.part = part ∧ b.level < 0)
    (ns : Nat) : exec (.regulatorTokensGrant part ns) s = .next ((s.fillBuckets (some part) ns).addP (P.MEM_PART_WAIT part) ns) := by
  have hany : (s.mem.buckets.any fun b => b.part == part && b.level < 0) = true := by simpa using howes
  show execRegulatorTokensGrant part ns s = _
  simp only [execRegulatorTokensGrant, hp, hany, decide_true, whenPart_true, if_true]

/-! ## Traffic generators (R219) -/

/-- MODE and PATTERN of a generator as a write of its control register sets them. -/
def State.tgSetMode (s : State) (pch v : Nat) : State :=
  (s.putF (F.DBG_TG_CONTROL_MODE pch) (bits v 2 1)).putF (F.DBG_TG_CONTROL_PATTERN pch) (bits v 4 3)

/-- The registers that report a run: its state, its two counts and its first error. -/
def tgReport (pch : Nat) : List Nat :=
  [(F.DBG_TG_STATUS_STATE pch).off, (F.DBG_TG_MISMATCHES_COUNT pch).off, (F.DBG_TG_UE_COUNT pch).off, R.DBG_TG_FIRST_ERROR pch]

/-- A generator that starts: RUNNING, its counts and its first error cleared. -/
def State.tgClear (s : State) (pch : Nat) : State :=
  (((s.putF (F.DBG_TG_STATUS_STATE pch) 1).putF (F.DBG_TG_MISMATCHES_COUNT pch) 0).putF (F.DBG_TG_UE_COUNT pch) 0).setReg
    (R.DBG_TG_FIRST_ERROR pch) 0

theorem exec_tgStart {req : Requester} {pch : Nat} {v : Word} (hp : pch < 512) (hopen : s.denied req (R.DBG_TG_CONTROL pch) = false)
    (hon : s.regDown (R.DBG_TG_CONTROL pch) = false) (hstart : bit v.toNat 0 = true) :
    exec (.tgStart req pch v) s = .next (
      if (s.tgSetMode pch v.toNat).imageValid || (s.tgSetMode pch v.toNat).getF (F.MEM_STACK_STATUS_TRAINED (pch / 64)) = 0
      then (s.tgSetMode pch v.toNat).putF (F.DBG_TG_STATUS_STATE pch) 3 else (s.tgSetMode pch v.toNat).tgClear pch) := by
  show execTgStart req pch v s = _
  simp only [execTgStart, hp, hopen, hon, hstart, decide_true, whenPart_true, Bool.false_eq_true, if_false, Bool.not_true]
  rfl

theorem State.onlyRegs_tgSetMode (pch v : Nat) : s.onlyRegs (s.tgSetMode pch v) [(F.DBG_TG_CONTROL_MODE pch).off] :=
  State.onlyRegs_putF (State.onlyRegs_putF State.onlyRegs_refl _ (by simp)) _
    (by simp [F.DBG_TG_CONTROL_MODE, F.DBG_TG_CONTROL_PATTERN])

theorem State.getF_tgSetMode (pch v : Nat) :
    (s.tgSetMode pch v).getF (F.DBG_TG_CONTROL_MODE pch) = bits v 2 1 ∧
      (s.tgSetMode pch v).getF (F.DBG_TG_CONTROL_PATTERN pch) = bits v 4 3 := by
  have hmode : (F.DBG_TG_CONTROL_MODE pch).ok := by simp [Fld.ok, F.DBG_TG_CONTROL_MODE]
  have hpattern : (F.DBG_TG_CONTROL_PATTERN pch).ok := by simp [Fld.ok, F.DBG_TG_CONTROL_PATTERN]
  refine ⟨?_, (State.getF_putF_same _ _ hpattern).trans (bits_mod v 4 3)⟩
  refine (State.getF_putF_apart _ _ hpattern hmode.1 ?_).trans ((s.getF_putF_same _ hmode).trans (bits_mod v 2 1))
  simp [F.DBG_TG_CONTROL_MODE, F.DBG_TG_CONTROL_PATTERN]

theorem State.onlyRegs_tgClear (pch : Nat) : s.onlyRegs (s.tgClear pch) (tgReport pch) :=
  State.onlyRegs_setReg (State.onlyRegs_putF (State.onlyRegs_putF (State.onlyRegs_putF State.onlyRegs_refl _ (by simp [tgReport])) _
    (by simp [tgReport])) _ (by simp [tgReport])) _ (by simp [tgReport])

theorem State.getF_tgState (pch n : Nat) :
    (s.putF (F.DBG_TG_STATUS_STATE pch) n).getF (F.DBG_TG_STATUS_STATE pch) = n % 2 ^ 2 :=
  s.getF_putF_same n (by simp [Fld.ok, F.DBG_TG_STATUS_STATE])

theorem State.getF_tgClear (pch : Nat) : (s.tgClear pch).getF (F.DBG_TG_STATUS_STATE pch) = 1 := by
  unfold State.tgClear
  rw [State.getF_setReg_other _ _ (by simp [F.DBG_TG_STATUS_STATE, R.DBG_TG_FIRST_ERROR]),
    State.getF_putF_off _ _ (by simp [F.DBG_TG_STATUS_STATE, F.DBG_TG_UE_COUNT]),
    State.getF_putF_off _ _ (by simp [F.DBG_TG_STATUS_STATE, F.DBG_TG_MISMATCHES_COUNT])]
  exact s.getF_tgState pch 1

/-- A start is refused while an image is in force or the stack is not trained; either way the mode is stored (R219). -/
theorem tgStart_decides {req : Requester} {pch : Nat} {v : Word} (hp : pch < 512)
    (hopen : s.denied req (R.DBG_TG_CONTROL pch) = false) (hon : s.regDown (R.DBG_TG_CONTROL pch) = false)
    (hstart : bit v.toNat 0 = true) : Completes (exec (.tgStart req pch v) s) fun t =>
      t.getF (F.DBG_TG_CONTROL_MODE pch) = bits v.toNat 2 1 ∧ t.getF (F.DBG_TG_CONTROL_PATTERN pch) = bits v.toNat 4 3 ∧
      t.getF (F.DBG_TG_STATUS_STATE pch) =
        (if s.imageValid = true ∨ s.getF (F.MEM_STACK_STATUS_TRAINED (pch / 64)) = 0 then 3 else 1) ∧
      s.onlyRegs t ((F.DBG_TG_CONTROL_MODE pch).off :: tgReport pch) := by
  rw [exec_tgStart hp hopen hon hstart]
  have hset := s.onlyRegs_tgSetMode pch v.toNat
  have hvalid : (s.tgSetMode pch v.toNat).imageValid = s.imageValid := by
    simp only [State.imageValid]
    rw [State.getF_of_onlyRegs hset (by simp [F.SIL_STATUS_IMAGE_VALID, F.DBG_TG_CONTROL_MODE]; omega)]
  have htrained : (s.tgSetMode pch v.toNat).getF (F.MEM_STACK_STATUS_TRAINED (pch / 64)) =
      s.getF (F.MEM_STACK_STATUS_TRAINED (pch / 64)) :=
    State.getF_of_onlyRegs hset (by simp [F.MEM_STACK_STATUS_TRAINED, F.DBG_TG_CONTROL_MODE]; omega)
  obtain ⟨hmode, hpattern⟩ := s.getF_tgSetMode pch v.toNat
  rw [hvalid, htrained]
  generalize s.tgSetMode pch v.toNat = u at hset hmode hpattern ⊢
  have hends {t : State} {n : Nat} (ht : u.onlyRegs t (tgReport pch)) (hstate : t.getF (F.DBG_TG_STATUS_STATE pch) = n) :
      t.getF (F.DBG_TG_CONTROL_MODE pch) = bits v.toNat 2 1 ∧ t.getF (F.DBG_TG_CONTROL_PATTERN pch) = bits v.toNat 4 3 ∧
        t.getF (F.DBG_TG_STATUS_STATE pch) = n ∧ s.onlyRegs t ((F.DBG_TG_CONTROL_MODE pch).off :: tgReport pch) := by
    have hapart : R.DBG_TG_CONTROL pch ∉ tgReport pch := by
      simp [tgReport, R.DBG_TG_CONTROL, F.DBG_TG_STATUS_STATE, F.DBG_TG_MISMATCHES_COUNT, F.DBG_TG_UE_COUNT, R.DBG_TG_FIRST_ERROR]
    exact ⟨(State.getF_of_onlyRegs ht hapart).trans hmode, (State.getF_of_onlyRegs ht hapart).trans hpattern, hstate,
      State.onlyRegs_trans (State.onlyRegs_mono hset (by simp)) (State.onlyRegs_mono ht fun _ => List.mem_cons_of_mem _)⟩
  by_cases hrefused : s.imageValid = true ∨ s.getF (F.MEM_STACK_STATUS_TRAINED (pch / 64)) = 0
  · rw [if_pos (by simpa using hrefused), if_pos hrefused]
    exact ⟨_, rfl, hends (State.onlyRegs_putF State.onlyRegs_refl _ (by simp [tgReport])) (u.getF_tgState pch 3)⟩
  · rw [if_neg (by simpa using hrefused), if_neg hrefused]
    exact ⟨_, rfl, hends (u.onlyRegs_tgClear pch) (u.getF_tgClear pch)⟩

/-! ## Runs of a traffic generator (R221) -/

section
variable (s)

theorem State.work_openUnit (u : Nat) : (s.openUnit u).work = s.work := by
  unfold State.openUnit
  split <;> rfl

theorem State.work_openRange (addr n : Nat) : (s.openRange addr n).work = s.work := by
  unfold State.openRange
  split
  · rfl
  · exact foldl_kept State.work (fun u _ t => t.work_openUnit u) s

theorem State.work_setUnit (u lo : Nat) (part : List Byte) : (s.setUnit u lo part).work = s.work := by
  unfold State.setUnit
  split
  · rfl
  · split
    · rfl
    · exact s.work_openUnit u

theorem State.work_tgNote (pch u : Nat) : (s.tgNote pch u).work = s.work := by
  unfold State.tgNote
  split
  · rfl
  · simp [State.work]

@[simp] theorem State.tgNote_mem (pch u : Nat) : (s.tgNote pch u).mem = s.mem := by
  unfold State.tgNote
  split
  · rfl
  · simp

theorem State.work_tgRead (pch : Nat) (ue : List Nat) (u : Nat) : (State.tgRead pch ue s u).work = s.work := by
  unfold State.tgRead
  dsimp only
  split
  · exact State.work_tgNote ..
  · split
    · exact s.work_openRange ..
    · exact (State.work_tgNote ..).trans (s.work_openRange ..)

variable {s}

theorem State.openRange_sealed (h : s.mem.orphanCipher = []) (addr n : Nat) : s.openRange addr n = s := by
  simp [State.openRange, h]

/-- A read settles units under an erased key; without any it leaves memory as it is. -/
theorem State.tgRead_mem (h : s.mem.orphanCipher = []) (pch : Nat) (ue : List Nat) (u : Nat) :
    (State.tgRead pch ue s u).mem = s.mem := by
  unfold State.tgRead
  dsimp only
  split
  · simp
  · rw [State.hbmRead, State.openRange_sealed h]
    split <;> simp

end

/-- A run writes HBM and its report; one that does not write reads unit after unit, and each read leaves memory as it is. -/
theorem exec_tgRunComplete {pch : Nat} (hp : pch < 512) (hrun : s.getF (F.DBG_TG_STATUS_STATE pch) = 1) (ue : List Nat) :
    Completes (exec (.tgRunComplete pch ue) s) fun t =>
      t.getF (F.DBG_TG_STATUS_STATE pch) = 2 ∧
      (s.getF (F.DBG_TG_CONTROL_MODE pch) % 2 = 0 → s.mem.orphanCipher = [] → t.mem = s.mem) ∧ t.work = s.work := by
  show Completes (execTgRunComplete pch ue s) _
  rw [execTgRunComplete, decide_eq_true hp, whenPart_true, if_neg (by simp [hrun])]
  extract_lets mode us written read
  refine ⟨_, rfl, State.getF_tgState pch 2, fun heven hsealed => ?_, ?_⟩
  · have hkept : written = s := if_neg (by simp; omega)
    rw [State.putF_mem]
    unfold read
    rw [hkept]
    split
    · exact List.foldlRecOn (motive := fun t : State => t.mem = s.mem) us _ rfl fun t ht u _ =>
        (State.tgRead_mem (ht ▸ hsealed) pch ue u).trans ht
    · rfl
  · have hwritten : written.work = s.work := by
      unfold written
      split
      · exact foldl_kept State.work (fun u _ t => t.work_setUnit ..) s
      · rfl
    show read.work = s.work
    unfold read
    split
    · exact (foldl_kept State.work (fun u _ t => t.work_tgRead pch ue u) written).trans hwritten
    · exact hwritten

theorem exec_tgRunComplete_idle {pch : Nat} (hp : pch < 512) (hidle : s.getF (F.DBG_TG_STATUS_STATE pch) ≠ 1) (ue : List Nat) :
    exec (.tgRunComplete pch ue) s = .refused .notDue := by
  show execTgRunComplete pch ue s = _
  rw [execTgRunComplete, decide_eq_true hp, whenPart_true, if_pos hidle]

end

/-! ## The obligation -/

/-- Settles O40: what follows an error takes no mark of poison away, and every other command changes the registers it names beside the
part of memory its error or its grant falls on. -/
theorem memoryIsPatrolledAndTested : Obligations.MemoryIsPatrolledAndTested := by
  unfold Obligations.MemoryIsPatrolledAndTested
  refine ⟨?hbm, ?cache, ?sram, ?temperature, ?unusedStack, ?tokens, ?start, ?run, ?idle⟩
  case hbm =>
    intro s addr row repair haddr
    have hrow (errors : Nat) (last : Bool) := exec_patrolHbm (s := s) haddr row errors repair last
    refine ⟨hrow 0 false, ⟨_, hrow 0 true, s.addF_counts (by decide)⟩, fun _ hfew => ?_,
      ⟨s.hbmUncorrectable addr (s.pchOf addr) row, hrow 2 false, ?_⟩⟩
    · rw [hrow 1 false]
      exact State.hbmCorrected_counts hfew addr repair
    · simp only [State.hbmUncorrectable_poison, storeGet_storeSet, if_true]
  case cache =>
    intro s die line x hx
    have hrow (errors : Nat) := exec_patrolLine hx errors
    refine ⟨hrow 0, fun hclean => ⟨s.lineError x, hrow 2, ?_⟩⟩
    obtain ⟨hmem, hjob⟩ := State.lineError_clean (s := s) hclean
    refine ⟨fun y hy => ?_, by rw [hmem], by rw [hmem], hjob⟩
    obtain ⟨hdie, hline⟩ : x.die = die ∧ x.line = line := by simpa using List.find?_some hx
    rw [hmem, hdie, hline] at hy
    simpa [Decidable.imp_iff_not_or] using (List.mem_filter.mp hy).2
  case sram =>
    intro s core addr hcore
    exact ⟨_, exec_patrolSram hcore addr, s.addF_counts (by decide)⟩
  case temperature =>
    intro s stack c hs hused hc
    exact hbmTempRead_shows hs hused hc
  case unusedStack =>
    intro s stack c hs hunused
    exact exec_hbmTempRead_unused hs hunused c
  case tokens =>
    intro s part ns hp howes
    exact ⟨_, exec_regulatorTokensGrant hp howes ns, State.getP_addP .., rfl, rfl, fun o ho => by
      simp only [List.mem_cons, List.not_mem_nil, or_false, not_or] at ho
      rw [State.addP, State.putP, State.reg_setReg_other _ _ ho.2, State.reg_setReg_other _ _ ho.1]
      rfl⟩
  case start =>
    intro s req pch v hp hopen hon hstart
    exact tgStart_decides hp hopen hon hstart
  case run =>
    intro s pch ue hp hrun
    obtain ⟨t, ht, hstate, hmem, hwork⟩ := exec_tgRunComplete hp hrun ue
    exact ⟨t, ht, hstate, hmem, congrArg Prod.fst hwork, congrArg Prod.snd hwork⟩
  case idle =>
    intro s pch ue hp hidle
    exact exec_tgRunComplete_idle hp hidle ue

end Sys2Proof.Machine
end

section
/-! Barrier objects and SYNC (R265 to R271): what an object reads as once it is replaced, what an arrival leaves of its object and of the
state, how the object a SYNC names is found or bound, and the obligation of chapter 14 on ARRIVE, WAIT and ARRIVE_WAIT. -/

namespace Sys2Proof.Machine

open Sys2Proof

/-! ## Objects replaced -/

/-- Where the first element that fulfils `q` is also the first that fulfils `p`, its replacement is found in its place. -/
theorem find?_replaced_first {α : Type} {p q : α → Bool} {l : List α} {o x : α} (hp : l.find? p = some o) (hq : l.find? q = some o)
    (hx : p x = true) : (l.map fun y => if q y then x else y).find? p = some x := by
  induction l with
  | nil => cases hp
  | cons y l ih =>
    cases hqy : q y with
    | true => simp [hqy, hx]
    | false =>
      have hpy : p y = false := by
        cases hpy : p y with
        | false => rfl
        | true =>
          have hyo : y = o := by simpa [hpy] using hp
          have hqo : q o = true := List.find?_some hq
          rw [← hyo, hqy] at hqo
          contradiction
      have htail := ih (by simpa [hpy] using hp) (by simpa [hqy] using hq)
      simpa [hqy, hpy] using htail

/-- What tells an object from the others: its index, and the context, job and identifier it is bound to. -/
def SyncObj.key (o : SyncObj) : Nat × Nat × Nat × Nat := (o.index, o.ctx, o.job, o.ident)

section
variable {s : State} {o x : SyncObj} (hat : s.syncAt o.index = some o) (hkey : x.key = o.key)
include hat hkey

theorem State.syncAt_setSync : (s.setSync x).syncAt o.index = some x := by
  simp only [SyncObj.key, Prod.mk.injEq] at hkey
  obtain ⟨hindex, -⟩ := hkey
  rw [← hindex] at hat ⊢
  exact find?_replaced (by simp) (Option.isSome_of_eq_some hat)

theorem State.boundTo_setSync {ctx uid ident : Nat} (hbound : s.boundTo ctx uid ident = some o) :
    (s.setSync x).boundTo ctx uid ident = some x := by
  have ho := List.find?_some hbound
  simp only [SyncObj.key, Prod.mk.injEq] at hkey
  obtain ⟨hindex, hctx, hjob, hident⟩ := hkey
  rw [← hindex] at hat
  exact find?_replaced_first hbound hat (by rwa [hctx, hjob, hident])

end

theorem State.ident_of_boundTo {s : State} {ctx uid ident : Nat} {o : SyncObj} (h : s.boundTo ctx uid ident = some o) :
    o.ident = ident := by
  have ho := List.find?_some h
  simp only [Bool.and_eq_true, beq_iff_eq] at ho
  exact ho.2

section
variable (s : State) (ctx uid ident : Nat)

@[simp] theorem State.boundTo_putF (f : Fld) (v : Nat) : (s.putF f v).boundTo ctx uid ident = s.boundTo ctx uid ident := by rfl

@[simp] theorem State.boundTo_setProg (p : Nat) (g : Program) : (s.setProg p g).boundTo ctx uid ident = s.boundTo ctx uid ident := by rfl

end

/-! ## Windows (R277) -/

/-- The state without what taking and dropping windows changes: registers and the windows taken on each die. -/
def State.sansWindows (s : State) : State := { s with regs := [], fab.winTaken := [] }

theorem State.eq_of_sansWindows {β : Type} (obs : State → β) (hobs : ∀ u : State, obs u.sansWindows = obs u) {s t : State}
    (h : t.sansWindows = s.sansWindows) : obs t = obs s := by rw [← hobs t, h, hobs s]

section
variable (s : State) (o : SyncObj)

theorem State.sansWindows_putF (f : Fld) (v : Nat) : (s.putF f v).sansWindows = s.sansWindows := rfl

theorem State.sansWindows_openPhase : (s.openPhase o).2.sansWindows = s.sansWindows := by
  unfold State.openPhase
  dsimp only
  split
  · exact (foldl_kept State.sansWindows (fun _ _ t => t.sansWindows_putF ..) _).trans rfl
  · rfl

theorem State.sansWindows_dropWindows : (s.dropWindows o).sansWindows = s.sansWindows := by
  unfold State.dropWindows
  split
  · exact (foldl_kept State.sansWindows (fun _ _ t => t.sansWindows_putF ..) _).trans rfl
  · rfl

/-- Opening a phase judges the group, and takes its windows or does not. -/
theorem State.openPhase_obj : ∃ can cond win, (s.openPhase o).1 = { o with canReduce := can, condition := cond, windows := win } := by
  unfold State.openPhase
  dsimp only
  split <;> exact ⟨_, _, _, rfl⟩

end

/-! ## Arrivals (R269) -/

/-- `t` is `s` but for its windows and for the object `o`, whose ranks that have arrived are now `l` and whose phase is `ph`. -/
def State.arrivedAs (s t : State) (o : SyncObj) (l : List Nat) (ph : Nat) : Prop :=
  ∃ (u : State) (x : SyncObj), t = u.setSync x ∧ u.sansWindows = s.sansWindows ∧ x.key = o.key ∧ x.arrived = l ∧ x.phase = ph

section
variable {s t : State} {o : SyncObj} {l : List Nat} {ph : Nat} (h : s.arrivedAs t o l ph)
include h

theorem State.arrivedAs_frame : t.mem = s.mem ∧ t.cores = s.cores ∧ t.held = s.held := by
  obtain ⟨u, x, rfl, hu, -⟩ := h
  have hframe : (u.mem, u.cores, u.held) = (s.mem, s.cores, s.held) :=
    State.eq_of_sansWindows (fun v => (v.mem, v.cores, v.held)) (fun _ => rfl) hu
  simpa using hframe

variable (hat : s.syncAt o.index = some o)
include hat

theorem State.arrivedAs_syncAt : ∃ x, t.syncAt o.index = some x ∧ x.arrived = l ∧ x.phase = ph := by
  obtain ⟨u, x, rfl, hu, hkey, hl, hph⟩ := h
  have hat : u.syncAt o.index = some o := (State.eq_of_sansWindows (·.syncAt o.index) (fun _ => rfl) hu).trans hat
  exact ⟨x, State.syncAt_setSync hat hkey, hl, hph⟩

theorem State.arrivedAs_phaseOver {ctx uid ident : Nat} (hbound : s.boundTo ctx uid ident = some o) (n : Nat) :
    t.phaseOver ctx uid ident n = decide (n < ph) := by
  obtain ⟨u, x, rfl, hu, hkey, -, hph⟩ := h
  have hat : u.syncAt o.index = some o := (State.eq_of_sansWindows (·.syncAt o.index) (fun _ => rfl) hu).trans hat
  have hbound : u.boundTo ctx uid ident = some o :=
    (State.eq_of_sansWindows (·.boundTo ctx uid ident) (fun _ => rfl) hu).trans hbound
  rw [State.phaseOver, State.boundTo_setSync hat hkey hbound, ← hph]

end

/-- An arrival noted in its program: what the object and the program show, and what stays. -/
theorem State.arrivedAs_setProg {s t : State} {p : Nat} {g : Program} {o : SyncObj} {l : List Nat} {ph : Nat}
    (h : (s.setProg p g).arrivedAs t o l ph) (hat : s.syncAt o.index = some o) :
    (∃ x, t.syncAt o.index = some x ∧ x.arrived = l ∧ x.phase = ph) ∧ t.mem = s.mem ∧ (t.core p).prog = some g ∧
      ∀ q, q ≠ p → t.core q = s.core q := by
  obtain ⟨hmem, hcores, -⟩ := State.arrivedAs_frame h
  have hcore (q : Nat) : t.core q = (s.setProg p g).core q := by simp only [State.core, hcores]
  exact ⟨State.arrivedAs_syncAt h hat, hmem, by rw [hcore, State.core_setProg_same],
    fun q hq => (hcore q).trans (State.core_setCore_other _ _ hq)⟩

section
variable (s : State) (o : SyncObj) (rank : Nat)

/-- An arrival opens the phase if it is the first of the first phase, and then goes on with its rank counted. -/
theorem State.arriveLocal_eq : ∃ (u : State) (can : Bool) (cond : Nat) (win : Bool), u.sansWindows = s.sansWindows ∧
    s.arriveLocal o rank = u.advanceSync { o with canReduce := can, condition := cond, windows := win, arrived := o.arrived ++ [rank] } := by
  unfold State.arriveLocal
  split
  · obtain ⟨can, cond, win, hobj⟩ := s.openPhase_obj o
    refine ⟨_, can, cond, win, s.sansWindows_openPhase o, ?_⟩
    dsimp only
    rw [hobj]
  · exact ⟨s, _, _, _, rfl, rfl⟩

variable {o}

/-- While ranks of the group are missing, an arrival is counted and nothing more. -/
theorem State.arriveLocal_counts (hmissing : o.arrived.length + 1 < o.ranks.length) :
    s.arrivedAs (s.arriveLocal o rank) o (o.arrived ++ [rank]) o.phase := by
  obtain ⟨u, can, cond, win, hu, heq⟩ := s.arriveLocal_eq o rank
  have hopen : ¬(o.arrived.length + 1 = o.ranks.length ∧ o.childArrived.length = o.children.length) := by omega
  rw [heq, State.advanceSync, if_neg (by simpa using hopen)]
  exact ⟨u, _, rfl, hu, rfl, rfl, rfl⟩

/-- The last arrival at a root with no children completes the phase. -/
theorem State.arriveLocal_completes (hlast : o.arrived.length + 1 = o.ranks.length) (hroot : o.parent = none)
    (hleaf : o.children = []) (hnone : o.childArrived = []) :
    s.arrivedAs (s.arriveLocal o rank) o [] (o.phase + 1) := by
  obtain ⟨u, can, cond, win, hu, heq⟩ := s.arriveLocal_eq o rank
  rw [heq, State.advanceSync, if_pos (by simp [hlast, hleaf, hnone])]
  simp only [hroot, State.completePhase, hleaf, List.foldl_nil]
  refine ⟨_, _, rfl, ?_, rfl, rfl, rfl⟩
  split
  · exact (State.sansWindows_dropWindows ..).trans hu
  · exact hu

end

/-! ## Reads leave the fabric -/

section
variable (s : State)

theorem State.fab_openRange (addr n : Nat) : (s.openRange addr n).fab = s.fab := by
  have hunit (t : State) (u : Nat) : (t.openUnit u).fab = t.fab := by
    unfold State.openUnit
    split <;> rfl
  unfold State.openRange
  split
  · rfl
  · exact foldl_kept (·.fab) (fun u _ t => hunit t u) s

theorem State.fab_hbmRead (addr m n : Nat) : ((s.touch addr m false).hbmRead addr n).2.fab = s.fab :=
  (State.fab_openRange ..).trans (State.eq_of_bare (·.fab) (fun _ => rfl) (s.bare_touch addr m false))

end

theorem readPieces_fab {ctx : Nat} {l : List (Nat × Nat)} {s t : State} {bs : List Byte} (h : readPieces ctx l s = .ok (bs, t)) :
    t.fab = s.fab := by
  induction l generalizing s bs with
  | nil =>
    cases h
    rfl
  | cons r l ih =>
    unfold readPieces at h
    split at h
    case h_1 =>
      split at h
      · cases h
      · dsimp only at h
        split at h
        case h_1 hrest =>
          cases h
          exact (ih hrest).trans (s.fab_hbmRead ..)
        case h_2 hrest => exact absurd h (hrest _ _)
    case h_2 =>
      split at h
      case h_1 hrest =>
        cases h
        exact ih hrest
      case h_2 hrest => exact absurd h (hrest _ _)
    all_goals cases h

theorem State.readTile_ok {s t : State} {ctx va n : Nat} {bs : List Byte} (h : s.vRead ctx va n = .ok (bs, t)) (cmd : Instr) (p uid : Nat)
    (k : List Byte → State → TileRes) : s.readTile cmd p ctx uid va n k = k bs t := by
  rw [State.readTile, h]

/-! ## The object a SYNC names (R267, R268) -/

section
variable {s : State} {p : Nat} {enc : BitVec 256} {g : Program} {j : Job} {o : SyncObj} {cmd : Instr} {k : SyncObj → State → TileRes}
  (hbound : s.boundTo g.ctx j.uid (fieldOf enc 4 2) = some o)
include hbound

theorem State.withObj_member (hdesc : o.desc = fieldOf enc 8 8) (hrank : g.rank ∈ o.ranks) : s.withObj cmd p enc g j k = k o s := by
  simp [State.withObj, hbound, hdesc, hrank]

theorem State.withObj_bad (hbad : o.desc ≠ fieldOf enc 8 8 ∨ g.rank ∉ o.ranks) :
    s.withObj cmd p enc g j k = .fault Code.SYNC_GROUP_BAD 0 := by
  simp [State.withObj, hbound, hbad]

end

/-- A group of one member has one position, the root's, with no parent and no children. -/
theorem tree_of_one (f : Nat) : treeParent 1 f 0 0 = none ∧ treeChildren 1 f 0 0 = [] := by
  refine ⟨rfl, ?_⟩
  simp [treeChildren, Nat.mod_one]

theorem State.self_of_single {s : State} {ctx uid ident desc rank : Nat} {d : List Byte} (h : s.groupBad ctx uid ident desc rank d = false)
    (hone : leAt d 8 4 = 1) : leAt d 0x14 4 = 0 := by
  simp only [State.groupBad, groupForm, Bool.or_eq_false_iff, Bool.not_eq_false', Bool.and_eq_true, decide_eq_true_eq] at h
  omega

/-- An identifier bound to a group of one member. -/
def State.boundAlone (s : State) (ctx uid ident desc : Nat) (d : List Byte) : State :=
  { s with fab.objs := s.fab.objs ++ [objOf s.freeObj? ctx uid ident desc d none []] }.syncShow ctx

section
variable {s s1 s2 : State} {g : Program} {j : Job} {ident desc : Nat} {d e : List Byte}

theorem State.bindObj_single {st : StepRun} (hstep : j.step = some st)
    (hroom : (s.fab.objs.filter (·.job == j.uid)).length < 2 * st.cores.length) (hdesc : s.vRead g.ctx desc 160 = .ok (d, s1))
    (hgood : s1.groupBad g.ctx j.uid ident desc g.rank d = false) (hone : leAt d 8 4 = 1)
    (hlist : s1.vRead g.ctx (leAt d 0x18 8) 4 = .ok (e, s2)) (hself : leNat e = s2.deviceId + g.ctx * 2 ^ 20) (cmd : Instr) (p : Nat)
    (k : SyncObj → State → TileRes) : s.bindObj cmd p ident desc g j k =
      k (objOf s2.freeObj? g.ctx j.uid ident desc d none []) (s2.boundAlone g.ctx j.uid ident desc d) := by
  have hzero := State.self_of_single hgood hone
  obtain ⟨hparent, hchildren⟩ := tree_of_one (leAt d 0x0C 1)
  simp only [State.bindObj, hstep, if_neg (Nat.not_le.mpr hroom), State.readTile_ok hdesc, hgood, hone, hzero, hparent, hchildren]
  simp [gatherRows, State.readTile_ok hlist, hself, State.noteGroup, State.boundAlone, objOf]

/-- The object bound is clear, and the group's that the descriptor names. -/
theorem State.boundTo_boundAlone (hnone : s.boundTo g.ctx j.uid ident = none) (hread : s2.fab = s.fab) (desc : Nat) (d : List Byte) :
    ∃ o, (s2.boundAlone g.ctx j.uid ident desc d).boundTo g.ctx j.uid ident = some o ∧ o.desc = desc ∧
      o.ranks = maskRanks (leAt d 0x20 128) ∧ o.members = leAt d 8 4 ∧ o.phase = 0 ∧ o.arrived = [] ∧ o.run = none := by
  have hnone : s2.fab.objs.find? (fun o => o.ctx == g.ctx && o.job == j.uid && o.ident == ident) = none := by rwa [hread]
  refine ⟨objOf s2.freeObj? g.ctx j.uid ident desc d none [], ?_, rfl, by rw [objOf], rfl, rfl, rfl, rfl⟩
  change List.find? _ (s2.fab.objs ++ _) = _
  rw [List.find?_append, hnone]
  simp [objOf]

end

/-! ## The three instructions -/

theorem State.issue_stops {s t : State} {p : Nat} {enc : BitVec 256} {cmd : Instr} {row : Nat} {judge : Program → Job → Judged}
    {body : Program → Job → TileRes} {g : Program} {j : Job} (h : s.fetched p enc g j) (hv : judge g j = ⟨row, true, 0⟩)
    (hrow : row ≠ 0) (hbody : body g j = .stop t) : s.issue p enc cmd row judge body = .next t := by
  rw [State.issue_legal h hv hrow, hbody]
  rfl

theorem Program.mem_named_name (g : Program) (ident : Nat) : ident ∈ (g.name ident).named := by
  unfold Program.name
  dsimp only
  split
  case isTrue hmem => simpa using hmem
  case isFalse => simp

theorem syncJudge_legal {enc : BitVec 256} {g : Program} {n : Nat} (hop : fieldOf enc 0 1 = 0xA) (hlegal : syncLegal enc = true)
    (hslot : g.slotOver (fieldOf enc 4 2) = 0) (hn : fieldOf enc 1 1 = n) (hlt : n < 4) : syncJudge enc g = ⟨0xA00 + n, true, 0⟩ := by
  simp [syncJudge, syncRow, hop, hlegal, hslot, hn, hlt]

/-- The program whose rank has arrived on an object's identifier in its phase. -/
def Program.arrivedOn (g : Program) (o : SyncObj) : Program := (g.name o.ident).note o.ident o.phase

theorem Program.mem_arrived_arrivedOn (g : Program) (o : SyncObj) : (o.ident, o.phase) ∈ (g.arrivedOn o).arrived := List.mem_cons_self

/-- What an ARRIVE_WAIT does with its arrival is decided by whether that completed the phase. -/
theorem State.arriveWaitBody_arrives {s : State} {p : Nat} {enc : BitVec 256} {g : Program} {j : Job} {o : SyncObj}
    (hbound : s.boundTo g.ctx j.uid (fieldOf enc 4 2) = some o) (hdesc : o.desc = fieldOf enc 8 8) (hrank : g.rank ∈ o.ranks)
    (hawait : g.await = none) (hnew : g.rank ∉ o.arrived) :
    let t := (s.setProg p (g.arrivedOn o)).arriveLocal o g.rank
    s.arriveWaitBody (.arriveWait p enc) p enc g j =
      if t.phaseOver g.ctx j.uid o.ident o.phase then .done t
      else .stop ((t.setProg p { g.arrivedOn o with await := some (s.getF (F.JOB_CORE_PROGRAM_NEXT p), o.phase) }).hold
        (.arriveWait p enc)) := by
  dsimp only
  rw [State.arriveWaitBody, State.withObj_member hbound hdesc hrank]
  simp only [hawait]
  rw [if_neg (by simpa using hnew)]
  rfl

section
variable {s : State} {p : Nat} {enc : BitVec 256} {g : Program} {j : Job} (h : s.fetched p enc g j) (hop : fieldOf enc 0 1 = 0xA)
  (hlegal : syncLegal enc = true) (hslot : g.slotOver (fieldOf enc 4 2) = 0)
include h hop hlegal hslot

theorem exec_wait_binds {s1 s2 : State} {d e : List Byte} {st : StepRun} (hwait : fieldOf enc 1 1 = 1)
    (hnone : s.boundTo g.ctx j.uid (fieldOf enc 4 2) = none) (hfirst : g.arrived = []) (hstep : j.step = some st)
    (hroom : (s.fab.objs.filter (·.job == j.uid)).length < 2 * st.cores.length)
    (hdesc : s.vRead g.ctx (fieldOf enc 8 8) 160 = .ok (d, s1))
    (hgood : s1.groupBad g.ctx j.uid (fieldOf enc 4 2) (fieldOf enc 8 8) g.rank d = false) (hone : leAt d 8 4 = 1)
    (hlist : s1.vRead g.ctx (leAt d 0x18 8) 4 = .ok (e, s2)) (hself : leNat e = s2.deviceId + g.ctx * 2 ^ 20) :
    exec (.wait p enc) s = .next
      (((s2.boundAlone g.ctx j.uid (fieldOf enc 4 2) (fieldOf enc 8 8) d).setProg p (g.name (fieldOf enc 4 2))).putF
        (F.JOB_CORE_PROGRAM_NEXT p) (s.getF (F.JOB_CORE_PROGRAM_NEXT p) + 1)) := by
  refine State.issue_done h (syncJudge_legal hop hlegal hslot hwait (by decide)) (by decide) ?_
  simp only [State.waitBody, State.withObj, hnone]
  rw [State.bindObj_single hstep hroom hdesc hgood hone hlist hself]
  simp [hfirst, objOf]

variable {o : SyncObj} (hbound : s.boundTo g.ctx j.uid (fieldOf enc 4 2) = some o)
include hbound

/-- R267, R268: another descriptor for a bound identifier, or a rank outside its group. -/
theorem exec_sync_bad {c : Instr} (hc : fieldOf enc 1 1 = 0 ∧ c = .arrive p enc ∨ fieldOf enc 1 1 = 1 ∧ c = .wait p enc ∨
      fieldOf enc 1 1 = 2 ∧ c = .arriveWait p enc) (hbad : o.desc ≠ fieldOf enc 8 8 ∨ g.rank ∉ o.ranks) :
    exec c s = .next (s.jobFault j.uid Code.SYNC_GROUP_BAD (s.getF (F.JOB_CORE_PROGRAM_NEXT p)) 0
      (s.getF (F.JOB_CORE_STATUS_LOGICAL p))) := by
  obtain ⟨hn, rfl⟩ | ⟨hn, rfl⟩ | ⟨hn, rfl⟩ := hc
  · exact State.issue_faults h (syncJudge_legal hop hlegal hslot hn (by decide)) (by decide) (State.withObj_bad hbound hbad)
  · exact State.issue_faults h (syncJudge_legal hop hlegal hslot hn (by decide)) (by decide) (State.withObj_bad hbound hbad)
  · exact State.issue_faults h (syncJudge_legal hop hlegal hslot hn (by decide)) (by decide)
      (by simp only [State.arriveWaitBody, State.withObj_bad hbound hbad])

variable (hdesc : o.desc = fieldOf enc 8 8) (hrank : g.rank ∈ o.ranks)
include hdesc hrank

section
variable (harrive : fieldOf enc 1 1 = 0)
include harrive

theorem exec_arrive_waits (hagain : g.rank ∈ o.arrived) : exec (.arrive p enc) s = .next (s.hold (.arrive p enc)) := by
  refine State.issue_waits h (syncJudge_legal hop hlegal hslot harrive (by decide)) (by decide) ?_
  rw [State.arriveBody, State.withObj_member hbound hdesc hrank, if_pos (by simpa using hagain)]

theorem exec_arrive_done (hnew : g.rank ∉ o.arrived) : exec (.arrive p enc) s = .next
    (((s.setProg p (g.arrivedOn o)).arriveLocal o g.rank).putF (F.JOB_CORE_PROGRAM_NEXT p)
      (s.getF (F.JOB_CORE_PROGRAM_NEXT p) + 1)) := by
  refine State.issue_done h (syncJudge_legal hop hlegal hslot harrive (by decide)) (by decide) ?_
  rw [State.arriveBody, State.withObj_member hbound hdesc hrank, if_neg (by simpa using hnew)]
  rfl

end

section
variable (hwait : fieldOf enc 1 1 = 1) {ph : Nat} (hlast : g.arrived.find? (fun e => e.1 == o.ident) = some (o.ident, ph))
include hwait hlast

theorem exec_wait_done (hover : ph < o.phase) : exec (.wait p enc) s = .next
    ((s.setProg p (g.name o.ident)).putF (F.JOB_CORE_PROGRAM_NEXT p) (s.getF (F.JOB_CORE_PROGRAM_NEXT p) + 1)) := by
  refine State.issue_done h (syncJudge_legal hop hlegal hslot hwait (by decide)) (by decide) ?_
  rw [State.waitBody, State.withObj_member hbound hdesc hrank]
  simp only [hlast, if_pos hover]

theorem exec_wait_waits (hopen : o.phase ≤ ph) : exec (.wait p enc) s = .next (s.hold (.wait p enc)) := by
  refine State.issue_waits h (syncJudge_legal hop hlegal hslot hwait (by decide)) (by decide) ?_
  rw [State.waitBody, State.withObj_member hbound hdesc hrank]
  simp only [hlast, if_neg (Nat.not_lt.mpr hopen)]

end

section
variable (hboth : fieldOf enc 1 1 = 2)
include hboth

/-- An ARRIVE_WAIT that has arrived and whose phase is over. -/
theorem exec_arriveWait_released {ph : Nat} (hawait : g.await = some (s.getF (F.JOB_CORE_PROGRAM_NEXT p), ph)) (hover : ph < o.phase) :
    exec (.arriveWait p enc) s = .next ((s.setProg p { g with await := none }).putF (F.JOB_CORE_PROGRAM_NEXT p)
      (s.getF (F.JOB_CORE_PROGRAM_NEXT p) + 1)) := by
  refine State.issue_done h (syncJudge_legal hop hlegal hslot hboth (by decide)) (by decide) ?_
  rw [State.arriveWaitBody, State.withObj_member hbound hdesc hrank]
  simp only [hawait, if_true, if_pos hover]

variable (hawait : g.await = none) (hnew : g.rank ∉ o.arrived)
include hawait hnew

variable (hat : s.syncAt o.index = some o) {l : List Nat} {ph : Nat}
  (hleft : (s.setProg p (g.arrivedOn o)).arrivedAs ((s.setProg p (g.arrivedOn o)).arriveLocal o g.rank) o l ph)
include hat hleft

theorem exec_arriveWait_completes (hover : o.phase < ph) : exec (.arriveWait p enc) s = .next
    (((s.setProg p (g.arrivedOn o)).arriveLocal o g.rank).putF (F.JOB_CORE_PROGRAM_NEXT p)
      (s.getF (F.JOB_CORE_PROGRAM_NEXT p) + 1)) := by
  refine State.issue_done h (syncJudge_legal hop hlegal hslot hboth (by decide)) (by decide) ?_
  rw [State.arriveWaitBody_arrives hbound hdesc hrank hawait hnew, if_pos]
  rw [State.arrivedAs_phaseOver hleft hat (State.ident_of_boundTo hbound ▸ hbound)]
  simpa using hover

theorem exec_arriveWait_awaits (hopen : ph ≤ o.phase) : exec (.arriveWait p enc) s = .next
    ((((s.setProg p (g.arrivedOn o)).arriveLocal o g.rank).setProg p
      { g.arrivedOn o with await := some (s.getF (F.JOB_CORE_PROGRAM_NEXT p), o.phase) }).hold (.arriveWait p enc)) := by
  refine State.issue_stops h (syncJudge_legal hop hlegal hslot hboth (by decide)) (by decide) ?_
  rw [State.arriveWaitBody_arrives hbound hdesc hrank hawait hnew, if_neg]
  rw [State.arrivedAs_phaseOver hleft hat (State.ident_of_boundTo hbound ▸ hbound)]
  simpa using hopen

end

end

/-! ## The obligation -/

/-- Settles O35: a first WAIT reads the descriptor and its own entry of the member list and binds; on a bound object every instruction
ends in the way that its rank's arrival and the object's phase pick. -/
theorem barriersArriveAndRelease : Obligations.BarriersArriveAndRelease := by
  unfold Obligations.BarriersArriveAndRelease
  refine ⟨?binds, ?bound, ?bad⟩
  case binds =>
    intro s s1 s2 p enc g j d e h hop hwait hlegal hslot hnone hfirst hroom hsome hdesc hgood hone hlist hself
    obtain ⟨st, hst⟩ := Option.isSome_iff_exists.mp hsome
    have hexec := exec_wait_binds h hop hlegal hslot hwait hnone hfirst hst (hroom st hst) hdesc hgood hone hlist hself
    have hfab : s2.fab = s.fab := (readPieces_fab hlist).trans (readPieces_fab hdesc)
    obtain ⟨o, hobj, hd, hranks, hmembers, hclear⟩ := State.boundTo_boundAlone hnone hfab (fieldOf enc 8 8) d
    refine ⟨_, hexec, ⟨o, ?_, hd, hranks, hmembers.trans hone, hclear⟩, ⟨_, ?_, g.mem_named_name _⟩, State.advanced_next ..⟩
    · rwa [State.boundTo_putF, State.boundTo_setProg]
    · rw [State.core_putF, State.core_setProg_same]
  case bound =>
    intro s p enc g j o h hop hlegal hslot hbound hat hdesc hrank
    refine ⟨fun harrive hagain => ?again, fun harrive hnew hmissing => ?counted, fun harrive hnew hlast hroot hleaf hnone => ?last,
      fun ph hwait hlast hover => ?released, fun ph hwait hlast hopen => ?waits,
      fun hboth hawait halone hempty hroot hleaf hnone => ?alone, fun hboth hawait hnew hmissing => ?awaits,
      fun ph hboth hawait hover => ?resumed⟩
    case again => exact exec_arrive_waits h hop hlegal hslot hbound hdesc hrank harrive hagain
    case counted =>
      have hleft := (s.setProg p (g.arrivedOn o)).arriveLocal_counts g.rank hmissing
      obtain ⟨hobj, hmem, hprog, hcores⟩ := State.arrivedAs_setProg hleft hat
      exact ⟨_, exec_arrive_done h hop hlegal hslot hbound hdesc hrank harrive hnew, hobj,
        ⟨_, hprog, g.mem_arrived_arrivedOn o⟩, State.advanced_next .., hmem, hcores⟩
    case last =>
      have hleft := (s.setProg p (g.arrivedOn o)).arriveLocal_completes g.rank hlast hroot hleaf hnone
      obtain ⟨hobj, hmem, -, hcores⟩ := State.arrivedAs_setProg hleft hat
      exact ⟨_, exec_arrive_done h hop hlegal hslot hbound hdesc hrank harrive hnew, hobj, State.advanced_next .., hmem, hcores⟩
    case released =>
      exact ⟨_, exec_wait_done h hop hlegal hslot hbound hdesc hrank hwait hlast hover, State.advanced_next .., rfl,
        State.onlyCore_putF (State.onlyCore_setProg ..) _ (by simp)⟩
    case waits => exact exec_wait_waits h hop hlegal hslot hbound hdesc hrank hwait hlast hopen
    case alone =>
      have hleft := (s.setProg p (g.arrivedOn o)).arriveLocal_completes g.rank (by simp [hempty, halone]) hroot hleaf hnone
      obtain ⟨hobj, -⟩ := State.arrivedAs_setProg hleft hat
      exact ⟨_, exec_arriveWait_completes h hop hlegal hslot hbound hdesc hrank hboth hawait (by simp [hempty]) hat hleft
        (Nat.lt_succ_self _), hobj, State.advanced_next ..⟩
    case awaits =>
      have hleft := (s.setProg p (g.arrivedOn o)).arriveLocal_counts g.rank hmissing
      obtain ⟨hobj, -⟩ := State.arrivedAs_setProg hleft hat
      obtain ⟨-, -, hheld⟩ := State.arrivedAs_frame hleft
      exact ⟨_, exec_arriveWait_awaits h hop hlegal hslot hbound hdesc hrank hboth hawait hnew hat hleft (Nat.le_refl _),
        hobj, ⟨_, congrArg Core.prog (State.core_setProg_same ..), rfl⟩, congrArg (· ++ [Instr.arriveWait p enc]) hheld⟩
    case resumed =>
      exact ⟨_, exec_arriveWait_released h hop hlegal hslot hbound hdesc hrank hboth hawait hover, State.core_setProg_same ..,
        State.advanced_next .., State.onlyCore_putF (State.onlyCore_setProg ..) _ (by simp)⟩
  case bad =>
    intro s p enc g j o c h hop hlegal hslot _ hc hbound hbad
    obtain ⟨hctx, hcode, -, hgone⟩ := State.jobFault_faulted (State.fetched_jobOf h) ..
    exact ⟨_, exec_sync_bad h hop hlegal hslot hbound hc hbad, hctx, hcode, hgone⟩

end Sys2Proof.Machine
end
